-- ==== Sys2Proof/Word.lean ====
section
/-! DEFINITION. The word types of Virnor 2. -/
namespace Sys2Proof

/-- A register, a timetable lane, an event word: 32 bits (spec/00_scope.md, R10). -/
abbrev Word := BitVec 32

/-- A byte of memory. -/
abbrev Byte := BitVec 8

/-- A 64-bit quantity: the time base (R31), a tick number, a saturating long counter. -/
abbrev DWord := BitVec 64

end Sys2Proof
end

