-- ==== Sys2Proof/Syntax.lean ====
section
/-! DEFINITION. The commands and events of Virnor 2, one constructor per row of spec/opcode_table.json, and the operands they carry. -/
namespace Sys2Proof

/-- The parts (R2, R13). -/
inductive Part where
  | vn2_8 | vn2_4 | vn2_2
  deriving DecidableEq, Repr

/-- The dies of a part, D0 upward (R13). -/
def Part.dies : Part → Nat
  | .vn2_8 => 8
  | .vn2_4 => 4
  | .vn2_2 => 2

/-- A physical core: die, tile and slot, slot 32 being the spare (R16). -/
structure Phys where
  die : Fin 8
  tile : Fin 64
  slot : Fin 33
  deriving DecidableEq, Repr

/-- The number the model keys a physical core by: die × 2,112 + tile × 33 + slot. -/
def Phys.idx (p : Phys) : Nat := p.die.val * 2112 + p.tile.val * 33 + p.slot.val

/-- Who reads or writes a register: a host port, a die's coachman or ostler, the debug port, a secure monitor, or the command
engine of a port (R10, R35, R306). -/
inductive Party where
  | port (p : Fin 4)
  | coachman (d : Fin 8)
  | ostler (d : Fin 8) (k : Fin 4)
  | debug
  | monitor (d : Fin 8)
  | engine (p : Fin 4)
  deriving DecidableEq, Repr

/-- A core number: the 18-bit field by which core space is indexed (R9, R23). -/
abbrev CoreNo := Fin 262144

/-- A host command: its place in the ring and its 64 bytes (R332). -/
structure Cmd where
  seq : Nat
  bytes : List Byte
  deriving DecidableEq, Repr

/-- What a management interface sends (R130, R131): DEST in the physical-core form, a byte offset in the destination's core-space window, or
in its program store, and the data. -/
structure Maint where
  dest : Fin 262144
  off : Fin 524288
  pstore : Bool
  data : List Word
  deriving DecidableEq, Repr

/-- A source of packets: a core's network interface, or a block of a die in the numbering of R131: 0–3 churns, 4–19 separators,
20 the management interface; or that interface with the MAINT packet that it forms. -/
inductive Source where
  | core (p : Phys)
  | block (d : Fin 8) (b : Fin 21)
  | maint (d : Fin 8) (m : Maint)
  deriving DecidableEq, Repr

/-- What the SECDED check of a flit finds on a hop (R157): nothing, a corrected bit, an uncorrectable head flit, or an
uncorrectable body flit. -/
inductive FlitErr where
  | none | corrected | head
  | body (k : Fin 16)
  deriving DecidableEq, Repr

/-- A packet taken at its destination interface, and what that interface's SECDED check of its flits finds (R144, R157). -/
structure Ejection where
  pid : Nat
  err : FlitErr
  deriving DecidableEq, Repr

/-- A burst on a port's LPDDR5 bus (R294): row, bank and C[5:0], BL32 or BL16, and for a write its data with the bytes that the data
mask excludes (R311). -/
structure Burst where
  row : Fin 65536
  bank : Fin 16
  col : Fin 64
  bl32 : Bool
  data : List Byte
  masked : List Bool
  deriving DecidableEq, Repr

/-- The linear byte address of a burst (R294). -/
def Burst.addr (b : Burst) : Nat :=
  (b.row.val * 16 + b.bank.val) * 2048 + (if b.bl32 then 64 * (b.col.val / 2) else 32 * b.col.val)

/-- Bytes that a burst moves (R291, R294). -/
def Burst.size (b : Burst) : Nat := if b.bl32 then 64 else 32

/-- The operand gives every byte of the burst. -/
def Burst.wellFormed (b : Burst) : Bool := b.data.length == b.size && b.masked.length == b.size

/-- What a read command of a port's LPDDR5 interface reads: a burst at the row, bank and column that it carries (R294), a mode register
(R293), the read DQ calibration patterns, or the read FIFO (R291; log entry 156). Only a burst uses row, bank and column. -/
inductive PortRead where
  | bl16 | bl32
  | modeRegister (mr : Byte)
  | calibration
  | fifo
  deriving DecidableEq, Repr

/-- What a mode-register or training write of the interface does: it writes a register of a set point, where `absent` marks the bits of
fields that it would set to an absent feature or setting (R292, R293); it puts a set point in force; or it writes one burst to the write
FIFO (R291; log entry 156). -/
inductive ModeOp where
  | field (absent : Byte)
  | setPoint
  | fifo (data : List Byte)
  deriving DecidableEq, Repr

/-- A failure that a test finds (R366): KIND, die and LOCATION. -/
structure Found where
  kind : Fin 18
  die : Fin 8
  loc : Nat
  deriving DecidableEq, Repr

/-- An error that a circuit detects (R377 to R381): the die of its collector, SOURCE, MASTER, ACCESS, ADDR, INFO, and the owner that the
raising rule names, which counts where MASTER names no owned block. -/
structure Detected where
  die : Fin 8
  source : Byte
  master : BitVec 16
  access : Fin 8
  owner : Fin 5
  addr : BitVec 48
  info : DWord
  deriving DecidableEq, Repr

/-- A reading of an ageing sensor (R396): die, tile, sensor and margin in ps. -/
structure Reading where
  die : Fin 8
  tile : Fin 64
  sensor : Fin 34
  margin : Byte
  deriving DecidableEq, Repr

/-- The crock in its socket when the supplies come up (R426, R427): the one that was there, none, or a blank one. -/
inductive CrockFit where
  | same | absent | blank
  deriving DecidableEq, Repr

/-- What a die measures (R444): rail power in 0.1 W, its hottest sensor in 0.1 °C, and which one that is. -/
structure DieMeasure where
  power : BitVec 16
  temp : BitVec 12
  sensor : Fin 16
  deriving DecidableEq, Repr

/-- A measurement of the package (R444): power over the last 1 ms in W, and each die in order. -/
structure Measure where
  package : BitVec 16
  dies : List DieMeasure
  deriving DecidableEq, Repr

/-- A block with counters and a CLR_CNT bit: a churn, the timetable network or the vat of a die, a separator, a frame unit, a host port,
the fault collector or the PSRAM channel of a die. -/
inductive CntBlock where
  | chn (d : Fin 8) (c : Fin 4)
  | sn (d : Fin 8)
  | vat (d : Fin 8)
  | sp (d : Fin 8) (k : Fin 16)
  | fr (p : Fin 4)
  | hp (p : Fin 4)
  | fc (d : Fin 8)
  | xr (d : Fin 8)
  deriving DecidableEq, Repr

/-- A limit register: the stall and reply limits of a core, the drain and emission limits of a die, the loss timeout of a port. -/
inductive Limit where
  | stall (n : CoreNo)
  | reply (n : CoreNo)
  | drain (d : Fin 8)
  | emit (d : Fin 8)
  | loss (p : Fin 4)
  deriving DecidableEq, Repr

/-- A register by its place in the address space of R23: a word of a core's register page by core number, of a die's registers, or of the
package-global space. -/
inductive RegPlace where
  | core (n : CoreNo) (word : Fin 1024)
  | die (d : Fin 8) (word : Fin 2097152)
  | global (word : Fin 2097152)
  deriving DecidableEq, Repr

/-- How a host uses a command code of the SMBus target: a read, a read to which it clocks the PEC byte too, or a write (R480). -/
inductive SmbUse where
  | read | readPec | write
  deriving DecidableEq, Repr

/-- A command or event: one constructor per row of spec/opcode_table.json, in its order. -/
inductive Instr where
  /-- OPEN_COACH (R342). -/
  | openCoach (p : Fin 4) (c : Cmd)
  /-- CLOSE_COACH (R343). -/
  | closeCoach (p : Fin 4) (c : Cmd)
  /-- SET_RANKS (R22). -/
  | setRanks (p : Fin 4) (c : Cmd)
  /-- SET_PLACEMENT (R347). -/
  | setPlacement (p : Fin 4) (c : Cmd)
  /-- LOAD_CORES (R348). -/
  | loadCores (p : Fin 4) (c : Cmd)
  /-- LOAD_VAT (R235). -/
  | loadVat (p : Fin 4) (c : Cmd)
  /-- LOAD_TIMETABLE (R246). -/
  | loadTimetable (p : Fin 4) (c : Cmd)
  /-- SET_ROUTES (R150). -/
  | setRoutes (p : Fin 4) (c : Cmd)
  /-- SWAP_EPOCH (R151). -/
  | swapEpoch (p : Fin 4) (c : Cmd)
  /-- SWAP_EPOCH_DRAINED (R151). -/
  | swapEpochDrained (g : Fin 4)
  /-- SWAP_EPOCH_TIMEOUT (R151). -/
  | swapEpochTimeout (g : Fin 4)
  /-- DRAIN (R153). -/
  | drain (p : Fin 4) (c : Cmd)
  /-- DRAIN_DONE (R153). -/
  | drainDone (g : Fin 4)
  /-- DRAIN_TIMEOUT (R346). -/
  | drainTimeout (g : Fin 4)
  /-- START_RUN (R46). -/
  | startRun (p : Fin 4) (c : Cmd)
  /-- STOP_RUN (R47). -/
  | stopRun (p : Fin 4) (c : Cmd)
  /-- STEP (R47). -/
  | step (p : Fin 4) (c : Cmd)
  /-- GENERATOR_STOP (R47). -/
  | generatorStop (g : Fin 4)
  /-- STEP_DONE (R47). -/
  | stepDone (g : Fin 4)
  /-- READ_STATE (R346). -/
  | readState (p : Fin 4) (c : Cmd)
  /-- SNAPSHOT (R350). -/
  | snapshot (p : Fin 4) (c : Cmd)
  /-- RESTORE (R351). -/
  | restore (p : Fin 4) (c : Cmd)
  /-- FENCE_CORE (R352). -/
  | fenceCore (p : Fin 4) (c : Cmd)
  /-- BRING_SPARE (R352). -/
  | bringSpare (p : Fin 4) (c : Cmd)
  /-- MARCH_RUN (R376). -/
  | marchRun (p : Fin 4) (c : Cmd) (found : List Found) (cut : Option Nat)
  /-- BIST_RUN (R376). -/
  | bistRun (p : Fin 4) (c : Cmd) (found : List Found) (cut : Option Nat)
  /-- LOG_READ (R409). -/
  | logRead (p : Fin 4) (c : Cmd)
  /-- FW_STAGE (R428). -/
  | fwStage (p : Fin 4) (c : Cmd) (restart : Bool)
  /-- FW_ACTIVATE (R429). -/
  | fwActivate (p : Fin 4) (c : Cmd)
  /-- ACTIVATION_CONFIRM (R429). -/
  | activationConfirm
  /-- ACTIVATION_TIMEOUT (R429). -/
  | activationTimeout
  /-- DEFERRED_ACTIVATION_START (R430). -/
  | deferredActivationStart
  /-- SET_OPP (R443). -/
  | setOpp (p : Fin 4) (c : Cmd)
  /-- ENTER_HOLD (R449). -/
  | enterHold (p : Fin 4) (c : Cmd)
  /-- HOLD_ENTRY (R450). -/
  | holdEntry
  /-- QUERY (R346). -/
  | query (p : Fin 4) (c : Cmd)
  /-- ATTEST (R420). -/
  | attest (p : Fin 4) (c : Cmd)
  /-- TIMER_CFG (R67). -/
  | timerCfg (p : Fin 4) (c : Cmd)
  /-- QUEUE_INJECT (R193). -/
  | queueInject (p : Fin 4) (c : Cmd)
  /-- DEVICE_OPEN (R324). -/
  | deviceOpen (p : Fin 4)
  /-- CMD_TAKE (R329). -/
  | cmdTake (p : Fin 4)
  /-- FW_COMMAND_TIMEOUT (R335). -/
  | fwCommandTimeout (p : Fin 4) (seq : Nat)
  /-- RING_CONSUME (R330). -/
  | ringConsume (p : Fin 4) (log : Bool)
  /-- LOG_DELIVERY (R331). -/
  | logDelivery (p : Fin 4)
  /-- TICK_START (R39). -/
  | tickStart (g : Fin 4)
  /-- CLOSE (R48). -/
  | close (g : Fin 4)
  /-- FIRE_END (R86). -/
  | fireEnd (p : Phys)
  /-- APPLY_END (R116). -/
  | applyEnd (p : Phys) (busy : Nat)
  /-- ROW_WRITE_BACK (R120). -/
  | rowWriteBack (p : Phys)
  /-- PAIL_INSTANT (R214). -/
  | pailInstant (g : Fin 4)
  /-- FLAGS_CLEAR (R255). -/
  | flagsClear (g : Fin 4)
  /-- FRAME_END (R247). -/
  | frameEnd (g : Fin 4)
  /-- ACTION_INSTANT (R283). -/
  | actionInstant (g : Fin 4)
  /-- ACTION_PUBLISH (R281). -/
  | actionPublish (p : Fin 4)
  /-- SUBSTITUTE_DONE (R283). -/
  | substituteDone (p : Fin 4)
  /-- TICK_IN_EDGE (R42). -/
  | tickInEdge (pin : Fin 4) (rising : Bool) (width : Nat)
  /-- EDGE_MISS (R43). -/
  | edgeMiss (g : Fin 4)
  /-- FREEWHEEL_TICK (R43). -/
  | freewheelTick (g : Fin 4)
  /-- SYNC_WORD (R32). -/
  | syncWord (d : Fin 8)
  /-- SYNC_TIMEOUT (R34). -/
  | syncTimeout (d : Fin 8)
  /-- TB_NOW_LO_READ (R35). -/
  | tbNowLoRead (who : Party) (d : Fin 8)
  /-- CMP_MATCH (R59). -/
  | cmpMatch (d : Fin 8) (c : Fin 64)
  /-- CMP_MATCH_HI_WRITE (R59). -/
  | cmpMatchHiWrite (who : Party) (d : Fin 8) (c : Fin 64) (x : Word)
  /-- CMP_CTRL_WRITE (R60). -/
  | cmpCtrlWrite (who : Party) (d : Fin 8) (c : Fin 64) (x : Word)
  /-- CMP_PERIOD_WRITE (R61). -/
  | cmpPeriodWrite (who : Party) (d : Fin 8) (c : Fin 64) (x : Word)
  /-- PROCESSOR_HALT (R63). -/
  | processorHalt (d : Fin 8) (bind : Fin 8)
  /-- PROCESSOR_RESUME (R63). -/
  | processorResume (d : Fin 8) (bind : Fin 8)
  /-- CAPTURE (R65). -/
  | capture (d : Fin 8) (k : Fin 8) (pin : Fin 4) (rising : Bool) (width ago : Nat)
  /-- CAP_VALUE_LO_READ (R65). -/
  | capValueLoRead (who : Party) (d : Fin 8) (k : Fin 8)
  /-- TICK_OUT_PULSE_END (R66). -/
  | tickOutPulseEnd (k : Fin 4)
  /-- TG_TIMING_WRITE (R45). -/
  | tgTimingWrite (who : Party) (g : Fin 4) (k : Fin 5) (x : Word)
  /-- TG_CTRL_CLEAR_SAFE (R56). -/
  | tgCtrlClearSafe (who : Party) (g : Fin 4)
  /-- TG_CTRL_CLR_CNT (R57). -/
  | tgCtrlClrCnt (who : Party) (g : Fin 4)
  /-- EVENT_ARRIVAL (R49). -/
  | eventArrival (p : Phys)
  /-- STATE_WRITE_APPLY (R72). -/
  | stateWriteApply (p : Phys)
  /-- NC_CTRL_ENABLE (R70). -/
  | ncCtrlEnable (who : Party) (n : CoreNo)
  /-- NC_CTRL_RESTART (R99). -/
  | ncCtrlRestart (who : Party) (n : CoreNo)
  /-- CORE_RESET_DONE (R101). -/
  | coreResetDone (p : Phys)
  /-- NC_CTRL_CLR_CNT (R102). -/
  | ncCtrlClrCnt (who : Party) (n : CoreNo)
  /-- NC_THRESH_WRITE (R75). -/
  | ncThreshWrite (who : Party) (n : CoreNo) (j : Fin 16) (x : Word)
  /-- NC_PL_CTRL_EN (R115). -/
  | ncPlCtrlEn (who : Party) (n : CoreNo)
  /-- NC_PL_EPOCH_WRITE (R115). -/
  | ncPlEpochWrite (who : Party) (n : CoreNo) (len : Fin 65536)
  /-- NC_PL_ETA_WRITE (R121). -/
  | ncPlEtaWrite (who : Party) (n : CoreNo) (eta : Fin 65536)
  /-- PACKET_INJECT (R134). -/
  | packetInject (src : Source)
  /-- ROUTER_HOP (R138). -/
  | routerHop (pid : Nat) (err : FlitErr) (wait : Nat)
  /-- MULTICAST_REPLICATE (R143). -/
  | multicastReplicate (pid : Nat)
  /-- PACKET_EJECT (R144). -/
  | packetEject (e : Ejection)
  /-- EMIT_STALL_LIMIT (R146). -/
  | emitStallLimit (p : Phys) (handed : Nat)
  /-- COUPLING_REPLAY (R158). -/
  | couplingReplay (d : Fin 8) (edge : Fin 4)
  /-- LANE_REPAIR (R158). -/
  | laneRepair (d : Fin 8) (edge : Fin 4) (mdl : Fin 2)
  /-- COUPLING_DOWN (R154). -/
  | couplingDown (d : Fin 8) (edge : Fin 4) (mdl : Fin 2)
  /-- EF_CTRL_DROUTE_COMMIT (R153). -/
  | efCtrlDrouteCommit (who : Party) (d : Fin 8)
  /-- EF_CTRL_CLR_CNT (R159). -/
  | efCtrlClrCnt (who : Party) (d : Fin 8)
  /-- EF_LINK_SEL_WRITE (R159). -/
  | efLinkSelWrite (who : Party) (d : Fin 8) (x : Word)
  /-- QM_Q_OPEN (R163). -/
  | qmQOpen (who : Party) (n : CoreNo) (q : Fin 16)
  /-- QM_Q_CLOSE (R163). -/
  | qmQClose (who : Party) (n : CoreNo) (q : Fin 16)
  /-- QM_RD_WRITE (R167). -/
  | qmRdWrite (who : Party) (n : CoreNo) (q : Fin 16) (x : Word)
  /-- QM_ARRIVAL (R180). -/
  | qmArrival (p : Phys)
  /-- REPLY_ARRIVAL (R179). -/
  | replyArrival (p : Phys)
  /-- COMB_PENDING_EMIT (R174). -/
  | combPendingEmit (p : Phys) (q : Fin 16)
  /-- COMB_AGE_PARTIAL (R175). -/
  | combAgePartial (p : Phys) (q : Fin 16) (slot : Fin 64)
  /-- QM_C_CTRL_EN (R184). -/
  | qmCCtrlEn (who : Party) (n : CoreNo) (c : Fin 16)
  /-- QM_C_CTRL_DOORBELL (R182). -/
  | qmCCtrlDoorbell (who : Party) (n : CoreNo) (c : Fin 16)
  /-- SEND_START (R183). -/
  | sendStart (p : Phys) (c : Fin 16)
  /-- RELAY_TRIGGER (R182). -/
  | relayTrigger (p : Phys) (c : Fin 16)
  /-- SEND_RETRY (R187). -/
  | sendRetry (p : Phys) (c : Fin 16)
  /-- REPLY_TIMEOUT (R186). -/
  | replyTimeout (p : Phys) (c : Fin 16)
  /-- SEND_STALLED_OUT (R187). -/
  | sendStalledOut (p : Phys) (c : Fin 16)
  /-- QM_INJ_GO (R193). -/
  | qmInjGo (who : Party) (n : CoreNo) (x : Word)
  /-- QM_CTRL_WRITE (R196). -/
  | qmCtrlWrite (who : Party) (n : CoreNo) (x : Word)
  /-- LIMIT_WRITE (R190). -/
  | limitWrite (who : Party) (l : Limit) (x : Word)
  /-- WEIGHT_BLOCK_ARRIVAL (R206). -/
  | weightBlockArrival (d : Fin 8) (c : Fin 4)
  /-- PASS_START (R223). -/
  | passStart (d : Fin 8) (c : Fin 4)
  /-- OUTPUT_STAGE_START (R216). -/
  | outputStageStart (d : Fin 8) (c : Fin 4)
  /-- OUTPUT_STAGE_END (R216). -/
  | outputStageEnd (d : Fin 8) (c : Fin 4) (bank : Fin 2) (waited : Nat)
  /-- PAIL_RECORD (R212). -/
  | pailRecord (d : Fin 8)
  /-- PAIL_CLEAR_DONE (R214). -/
  | pailClearDone (d : Fin 8) (c : Fin 4)
  /-- MSE_WINDOW_CLOSE (R219). -/
  | mseWindowClose (d : Fin 8) (c : Fin 4)
  /-- CHN_SEED_WRITE (R218). -/
  | chnSeedWrite (who : Party) (d : Fin 8) (c : Fin 4) (q : Fin 16) (x : Word)
  /-- CHN_MSE_WIN_WRITE (R219). -/
  | chnMseWinWrite (who : Party) (d : Fin 8) (c : Fin 4) (x : Word)
  /-- PAIL_CTRL_EN (R211). -/
  | pailCtrlEn (who : Party) (d : Fin 8) (c : Fin 4)
  /-- CLR_CNT_WRITE (R228). -/
  | clrCntWrite (who : Party) (b : CntBlock)
  /-- TT_WORD_DELIVER (R245). -/
  | ttWordDeliver (d : Fin 8) (g : Fin 4) (en : Fin 1024) (r : Fin 65536) (w : Fin 4096)
  /-- BARRIER_SIGNAL (R256). -/
  | barrierSignal (k : Nat)
  /-- COUPLING_RELEASE (R251). -/
  | couplingRelease (d : Fin 8) (edge : Fin 4) (g : Fin 4)
  /-- VAT_UNSCHED_ACCESS (R235). -/
  | vatUnschedAccess (who : Party) (d : Fin 8) (off : Nat) (data : Option (List Byte))
  /-- VAT_SET_WRITE (R233). -/
  | vatSetWrite (who : Party) (d : Fin 8) (k : Fin 16) (x : Word)
  /-- VAT_BANK_SEL_WRITE (R260). -/
  | vatBankSelWrite (who : Party) (d : Fin 8) (x : Word)
  /-- VAT_SPARE_MAP (R238). -/
  | vatSpareMap (d : Fin 8) (bank : Fin 64) (rows : Nat)
  /-- SPI_WORD (R266). -/
  | spiWord (d : Fin 8) (k : Fin 16) (waited : Nat)
  /-- SP_CTRL_EN (R285). -/
  | spCtrlEn (who : Party) (d : Fin 8) (k : Fin 16)
  /-- FR_CTRL_EN (R285). -/
  | frCtrlEn (who : Party) (p : Fin 4)
  /-- SP_SEED_WRITE (R271). -/
  | spSeedWrite (who : Party) (d : Fin 8) (k : Fin 16) (x : Word)
  /-- FR_SAFEN_RELEASE (R284). -/
  | frSafenRelease (who : Party)
  /-- FR_SAFEN_FORCE (R284). -/
  | frSafenForce (who : Party) (b : Bool)
  /-- HOST_SRAM_WRITE (R297). -/
  | hostSramWrite (p : Fin 4) (b : Burst)
  /-- SHADOW_READ (R301). -/
  | shadowRead (p : Fin 4) (row : Fin 65536) (bank : Fin 16) (col : Fin 64) (kind : PortRead)
  /-- SHADOW_RECAPTURE (R300). -/
  | shadowRecapture (p : Fin 4) (d : Fin 8)
  /-- STATUS_PAGE_UPDATE (R298). -/
  | statusPageUpdate (p : Fin 4)
  /-- HOST_REG_BURST (R311). -/
  | hostRegBurst (p : Fin 4) (b : Burst)
  /-- WRITE_QUEUE_APPLY (R312). -/
  | writeQueueApply (p : Fin 4)
  /-- REGISTER_WRITE (R10). -/
  | registerWrite (who : Party) (r : RegPlace) (x : Word)
  /-- HP_FETCH_ADDR_WRITE (R307). -/
  | hpFetchAddrWrite (who : Party) (p : Fin 4) (x : Word)
  /-- FETCH_DONE (R307). -/
  | fetchDone (p : Fin 4)
  /-- HP_HEARTBEAT (R318). -/
  | hpHeartbeat (who : Party) (p : Fin 4) (x : Word)
  /-- MODE_REGISTER_WRITE (R293). -/
  | modeRegisterWrite (p : Fin 4) (fsp : Fin 3) (mr x : Byte) (op : ModeOp)
  /-- UNSUPPORTED_COMMAND (R292). -/
  | unsupportedCommand (p : Fin 4)
  /-- POWER_DOWN (R291). -/
  | powerDown (p : Fin 4)
  /-- SELF_REFRESH_ENTRY (R316). -/
  | selfRefreshEntry (p : Fin 4)
  /-- SELF_REFRESH_EXIT (R316). -/
  | selfRefreshExit (p : Fin 4)
  /-- DEEP_SLEEP_ENTRY (R316). -/
  | deepSleepEntry (p : Fin 4)
  /-- DEEP_SLEEP_EXIT (R316). -/
  | deepSleepExit (p : Fin 4)
  /-- PORT_RESET (R317). -/
  | portReset (p : Fin 4)
  /-- CK_STOPPED (R318). -/
  | ckStopped (p : Fin 4)
  /-- HEARTBEAT_TIMEOUT (R318). -/
  | heartbeatTimeout (p : Fin 4)
  /-- PORT_LOSS_TIMEOUT (R319). -/
  | portLossTimeout (p : Fin 4)
  /-- PERST_N_DEASSERT (R354). -/
  | perstNDeassert
  /-- POWER_DIES (R360). -/
  | powerDies (who : Party) (found : List Found)
  /-- LOCK_PLLS (R360). -/
  | lockPlls (who : Party) (found : List Found)
  /-- TRAIN_COUPLINGS (R360). -/
  | trainCouplings (who : Party) (found : List Found)
  /-- TEST_MEMORY (R360). -/
  | testMemory (who : Party) (found : List Found)
  /-- READ_CROCK (R360). -/
  | readCrock (who : Party) (auth : Bool)
  /-- VERIFY_FW (R360). -/
  | verifyFw (who : Party)
  /-- START_FW (R360). -/
  | startFw (who : Party) (found : List Found)
  /-- FW_START_FALLBACK (R364). -/
  | fwStartFallback (found : List Found)
  /-- LOAD_MICROCODE (R97). -/
  | loadMicrocode (who : Party) (found : List Found)
  /-- KNOWN_ANSWER (R365). -/
  | knownAnswer (who : Party) (found : List Found)
  /-- BIST (R365). -/
  | bist (who : Party) (found : List Found)
  /-- COMMIT_DEFECTS (R368). -/
  | commitDefects (who : Party) (fails : Bool)
  /-- OPEN_PORTS (R360). -/
  | openPorts (who : Party)
  /-- BU_STEP_END (R358): `late` are the parts that have not finished at the step's maximum. -/
  | buStepEnd (late : List Found)
  /-- BU_STEP_WRITE_REFUSED (R357). -/
  | buStepWriteRefused (who : Party) (x : Word)
  /-- BU_CTRL_SAFE_RELEASE (R373). -/
  | buCtrlSafeRelease (who : Party) (x : Word)
  /-- BU_PADS_WRITE (R453). -/
  | buPadsWrite (who : Party) (x : Word)
  /-- PM_PAD_RELEASE_WRITE (R452). -/
  | pmPadReleaseWrite (who : Party) (d : Fin 8) (x : Word)
  /-- DIE_REBRING (R375). -/
  | dieRebring (d : Fin 8) (found : List Found)
  /-- FAULT_RAISE (R382). -/
  | faultRaise (errs : List Detected)
  /-- AGG_OFFER (R384). -/
  | aggOffer (d : Fin 8) (owner : Fin 5) (cls : Fin 7)
  /-- FAULT_HANDLER_TAKE (R385). -/
  | faultHandlerTake
  /-- FC_ACK_WRITE (R385). -/
  | fcAckWrite (who : Party) (d : Fin 8) (x : Word)
  /-- FC_REACT_WRITE (R386). -/
  | fcReactWrite (who : Party) (d : Fin 8) (g : Fin 4) (x : Word)
  /-- AGEING_READ (R396). -/
  | ageingRead (readings : List Reading)
  /-- REFCLK_LOSS (R397). -/
  | refclkLoss
  /-- PLL_UNLOCK (R395). -/
  | pllUnlock (d : Fin 8) (p : Fin 6)
  /-- FC_INJ_UNLOCK_WRITE (R398). -/
  | fcInjUnlockWrite (who : Party) (d : Fin 8) (token : List Byte)
  /-- FC_INJ_GO (R398). -/
  | fcInjGo (d : Fin 8)
  /-- WATCHDOG_EXPIRY (R403). -/
  | watchdogExpiry (d : Fin 8) (proc : Fin 5)
  /-- OSTLER_CRASH (R404). -/
  | ostlerCrash (d : Fin 8) (k : Fin 4)
  /-- COMPONENT_TRAP (R405). -/
  | componentTrap (d : Fin 8) (log : Bool)
  /-- FW_RESTART (R406). -/
  | fwRestart (d : Fin 8)
  /-- FW_RESTART_DONE (R406). -/
  | fwRestartDone (d : Fin 8) (ok : Bool)
  /-- PSRAM_CRC_ERROR (R402). -/
  | psramCrcError (d : Fin 8) (comp : Fin 8) (off : Nat)
  /-- TRACE_FORWARD (R410). -/
  | traceForward (d : Fin 8)
  /-- FW_WDT_CFG_WRITE (R403). -/
  | fwWdtCfgWrite (who : Party) (d : Fin 8) (x : Word)
  /-- SEC_DBG_TOKEN (R416). -/
  | secDbgToken (who : Party) (d : Fin 8) (x : Word)
  /-- CROCK_DET_CHANGE (R426). -/
  | crockDetChange (high : Bool)
  /-- CROCK_AUTH_FAIL (R423). -/
  | crockAuthFail (restore : Option (Fin 4 × Cmd))
  /-- CROCK_LIFE_THRESHOLD (R425): the percentage reached, the spare sectors used, and the highest erase count of a sector in use. -/
  | crockLifeThreshold (life : Fin 101) (spares : Fin 769) (erase : Word)
  /-- EMERGENCY_BEGIN (R444). -/
  | emergencyBegin (x : Measure)
  /-- EMERGENCY_STEP (R445). -/
  | emergencyStep
  /-- EMERGENCY_END (R444). -/
  | emergencyEnd (x : Measure)
  /-- RECOVERY_STEP (R445). -/
  | recoveryStep
  /-- OPP_STEP (R441). -/
  | oppStep
  /-- THERMTRIP (R447). -/
  | thermtrip
  /-- WAKE (R453). -/
  | wake
  /-- DIE_IDLE_ENTRY (R448). -/
  | dieIdleEntry (d : Fin 8)
  /-- POWER_ON_RESET (R456). -/
  | powerOnReset (msel testmode : Bool) (smbAddr : Fin 4) (fit : CrockFit)
  /-- PACKAGE_COLD_RESET (R456). -/
  | packageColdReset
  /-- PM_RESET_REQ_PACKAGE_WARM (R458). -/
  | pmResetReqPackageWarm (who : Party) (x : Word)
  /-- PM_RESET_REQ_DIE_WARM (R457). -/
  | pmResetReqDieWarm (who : Party) (x : Word)
  /-- CK_SEL_SWITCH (R435). -/
  | ckSelSwitch (who : Party) (d : Fin 8) (x : Word)
  /-- CK_SWITCH_DONE (R435). -/
  | ckSwitchDone (d : Fin 8) (p : Fin 6)
  /-- CK_HANG (R436). -/
  | ckHang (d : Fin 8) (p : Fin 6)
  /-- CK_SEL_FORCE (R436). -/
  | ckSelForce (who : Party) (d : Fin 8) (x : Word)
  /-- CK_SEL_DOMRST (R436). -/
  | ckSelDomrst (who : Party) (d : Fin 8) (x : Word)
  /-- PM_THERM_WRITE (R444). -/
  | pmThermWrite (who : Party) (floor : Bool) (x : Word)
  /-- AVS_FAULT (R470). -/
  | avsFault
  /-- XR_CTRL_WRITE (R478). -/
  | xrCtrlWrite (who : Party) (d : Fin 8) (tcsm : Bool) (x : Word)
  /-- XR_CAL_RECAL (R476). -/
  | xrCalRecal (who : Party) (d : Fin 8) (ok : Bool)
  /-- SMBUS_READ (R480). -/
  | smbusRead (code : Byte) (use : SmbUse)
  /-- SMBUS_ALERT_RESPONSE (R481). -/
  | smbusAlertResponse
  /-- IDCODE (R482). -/
  | idcode
  /-- BYPASS (R482). -/
  | bypass
  /-- SAMPLE_PRELOAD (R482). -/
  | samplePreload (cells : List Bool)
  /-- EXTEST (R483). -/
  | extest
  /-- CLAMP (R483). -/
  | clamp
  /-- HIGHZ (R483). -/
  | highz
  /-- DEBUG (R482). -/
  | debug
  /-- POWER_DOWN_EXIT (R291). -/
  | powerDownExit (p : Fin 4)
  /-- PORT_RESET_RELEASE (R317). -/
  | portResetRelease (p : Fin 4)
  /-- COUPLING_RETRAIN_DONE (R158). -/
  | couplingRetrainDone (d : Fin 8) (edge : Fin 4) (mdl : Fin 2)
  /-- VCORE_EN_HIGH (R469). -/
  | vcoreEnHigh
  /-- OSTLER_RESTART_DONE (R404). -/
  | ostlerRestartDone (d : Fin 8) (k : Fin 4)
  /-- COMPONENT_RESTART_DONE (R405). -/
  | componentRestartDone (d : Fin 8) (log : Bool)
  /-- CLOSE_DRAIN_LIMIT (R343). -/
  | closeDrainLimit (g : Fin 4)
  /-- PORT_AVAILABLE (R354). -/
  | portAvailable (p : Fin 4)
  deriving DecidableEq, Repr

end Sys2Proof
end

