-- ==== Sys2Proof/Config.lean ====
section
/-! DEFINITION. What the spec leaves to the implementation: the free values. Each is a constant with no body, so nothing in Lean can
evaluate it and a claim that holds, holds whatever it is. -/
namespace Sys2Proof

/-- The `k`-th free value a step takes: a value the spec says an operation produces and does not state (log entry 5).
`k` is the counter `Dev.freeCtr`, advanced at each use. UNVERIFIED; safe. -/
opaque Config.free : Nat → Nat

/-- The digest of R418's hash over bytes (00_scope.md gives no algorithm the model could run; log entry 6). UNVERIFIED; safe. -/
opaque Config.hash : List Byte → Nat

/-- The tag or signature that a key gives over bytes (R416, R418, R420, R423; log entry 6). UNVERIFIED; safe. -/
opaque Config.sign : Nat → List Byte → Nat

/-- The KIND byte of the `k`-th kind of snapshot section, in the order of R349, which gives no codes (log entry 19). UNVERIFIED; safe. -/
opaque Config.snapKind : Nat → Byte

/-- The hash of the root public key in mask ROM (R417). UNVERIFIED; safe. -/
opaque Config.rootHash : Nat

/-- The identity public key of the `k`-th enrolment of the PUF (R419, R427). UNVERIFIED; safe. -/
opaque Config.idKey : Nat → Nat

/-- A certificate chains to the root key and names an identity key (R428). UNVERIFIED; safe. -/
opaque Config.certValid : List Byte → Nat → Bool

/-- The minor version of an interface major version that firmware implements (R323). UNVERIFIED; safe. -/
opaque Config.ifMinor : Nat → Nat

/-- What JESD209-5 gives for a mode register that R293 fixes by name: MR4 at the 1× encoding, MR8. UNVERIFIED; safe. -/
opaque Config.jedecMode : Nat → Nat

/-- The mode registers of JESD209-5 that hold the read DQ calibration patterns, in the order in which a read returns them (R291).
UNVERIFIED; safe. -/
opaque Config.jedecCalRegs : List Nat

/-- HP_ID.SI_REV, the silicon revision. UNVERIFIED; safe. -/
opaque Config.siRev : Nat

/-- A signature of a public key over bytes is valid (R398, R416, R418). UNVERIFIED; safe. -/
opaque Config.sigValid : Nat → List Byte → Nat → Bool

/-- The identifier and the loaded program slots that a microcode image gives: R97 lists its parts and no layout. UNVERIFIED; safe. -/
opaque Config.ucodeId : List Byte → Nat
opaque Config.ucodeSlots : List Byte → Nat

/-- The bytes of local memory that the image CRC of a core image header covers, offset and length: R71 does not name them (log entry 136).
UNVERIFIED; safe. -/
opaque Config.imageSpan : List Byte → Nat × Nat

/-- A token is signed with the factory key and names the identity of an enrolment (R398). UNVERIFIED; safe. -/
opaque Config.factoryToken : List Byte → Nat → Bool

/-- The debug level that a token of SEC_DBG_TOKEN raises, 0 where it fails: it is signed with the root key, names the identity of an
enrolment and the nonce, and requests the level (R416 gives no layout). UNVERIFIED; safe. -/
opaque Config.debugToken : List Byte → Nat → Nat → Nat

/-- Flits that an input buffer of a router holds for one virtual channel: R127 and R145 give its credits no number (log entry 141).
UNVERIFIED; safe. -/
opaque Config.vcFlits : Nat

/-- The number that a last tick is given where no tick has ended: R346 and R349 do not say (log entry 157). UNVERIFIED; safe. -/
opaque Config.noTick : Nat

/-- What QUERY writes, in RESULT (0) and in its buffer (1), of what it reports for a WHAT (R346 gives no layout; log entry 18).
UNVERIFIED; safe. -/
opaque Config.queryData : Nat → Nat → List Nat → Nat

end Sys2Proof
end

