-- ==== Sys2Proof/Machine/Bits.lean ====
section
/-! DEFINITION. Bit fields, clamps, saturating counters, little-endian bytes and CRC-32: the arithmetic every chapter shares
(00_scope.md, Notation and R484). -/
namespace Sys2Proof.Machine

/-- Bits [lo + len − 1 : lo] of a number. -/
def fldN (v lo len : Nat) : Nat := v / 2 ^ lo % 2 ^ len

/-- Bits [lo + len − 1 : lo] of a register word. -/
def fld (w : Word) (lo len : Nat) : Nat := fldN w.toNat lo len

/-- Bit `i` of a register word. -/
def bit (w : Word) (i : Nat) : Bool := fld w i 1 == 1

/-- The number with bits [lo + len − 1 : lo] replaced by the low bits of `x`. -/
def setFldN (v lo len x : Nat) : Nat :=
  v / 2 ^ (lo + len) * 2 ^ (lo + len) + x % 2 ^ len * 2 ^ lo + v % 2 ^ lo

/-- The word with bits [lo + len − 1 : lo] replaced by the low bits of `x`. -/
def setFld (w : Word) (lo len x : Nat) : Word := BitVec.ofNat 32 (setFldN w.toNat lo len x)

/-- 1 for true. -/
def b2n (b : Bool) : Nat := if b then 1 else 0

/-- The word with bit `i` set to `b`. -/
def setBit (w : Word) (i : Nat) (b : Bool) : Word := setFld w i 1 (b2n b)

/-- A number as a register word, modulo 2³². -/
def w32 (n : Nat) : Word := BitVec.ofNat 32 n

/-- A saturating 32-bit counter after `k` more (R57, R102 and every chapter's counters). -/
def satAdd32 (w : Word) (k : Nat) : Word := BitVec.ofNat 32 (min (w.toNat + k) 0xFFFFFFFF)

/-- `v` clamped to the range [lo, hi]. -/
def clampI (lo hi v : Int) : Int := if v < lo then lo else if hi < v then hi else v

/-- sat24(x): the signed 24-bit range (00_scope.md, Notation). -/
def sat24 (x : Int) : Int := clampI (-8388608) 8388607 x

/-- The signed 32-bit range. -/
def sat32 (x : Int) : Int := clampI (-2147483648) 2147483647 x

/-- The number below `2 ^ n` read as a two's-complement `n`-bit number. -/
def toSigned (n : Nat) (v : Nat) : Int :=
  if v % 2 ^ n < 2 ^ (n - 1) then ((v % 2 ^ n : Nat) : Int) else ((v % 2 ^ n : Nat) : Int) - ((2 ^ n : Nat) : Int)

/-- The two's-complement code of `v` in `n` bits. -/
def ofSigned (n : Nat) (v : Int) : Nat := (v % ((2 ^ n : Nat) : Int)).toNat

/-- `x >> k`: arithmetic right shift, rounding toward minus infinity (00_scope.md, Notation). -/
def asr (x : Int) (k : Nat) : Int := x / ((2 ^ k : Nat) : Int)

/-- Little-endian bytes of a number. -/
def leBytes : Nat → Nat → List Byte
  | 0, _ => []
  | n + 1, v => BitVec.ofNat 8 v :: leBytes n (v / 256)

/-- The number that little-endian bytes spell. -/
def ofLeBytes : List Byte → Nat
  | [] => 0
  | b :: bs => b.toNat + 256 * ofLeBytes bs

/-- The little-endian number in `n` bytes from `off` of a buffer. -/
def leAt (bs : List Byte) (off n : Nat) : Nat := ofLeBytes ((bs.drop off).take n)

/-- One bit of the reflected CRC-32 register (R484). -/
def crcBit (c : Nat) : Nat := if c % 2 = 1 then (c / 2) ^^^ 0xEDB88320 else c / 2

/-- One byte of the CRC-32 register (R484). -/
def crcByte (c : Nat) (b : Byte) : Nat :=
  let x := c ^^^ b.toNat
  crcBit (crcBit (crcBit (crcBit (crcBit (crcBit (crcBit (crcBit x)))))))

/-- CRC-32 of ISO/IEC 3309 over bytes in ascending order (R484). -/
def crc32 (bs : List Byte) : Nat := (bs.foldl crcByte 0xFFFFFFFF) ^^^ 0xFFFFFFFF

/-- The list with element `i` replaced, unchanged where there is none. -/
def listSet {α : Type} (l : List α) (i : Nat) (x : α) : List α := l.set i x

end Sys2Proof.Machine
end

