-- ==== Sys2Proof/Machine/Map.lean ====
section
/-! DEFINITION. Sparse maps from numbers, as plain data in one canonical form: keys strictly rising and no entry equal to what
an unlisted key reads as. Registers, memory and every table of the machine are held this way. -/
namespace Sys2Proof.Machine

/-- Entries by rising key. -/
abbrev SMap (α : Type) := List (Nat × α)

/-- The value at a key, the default where the key is not listed. -/
def SMap.get {α : Type} (dflt : α) : SMap α → Nat → α
  | [], _ => dflt
  | (k, v) :: m, key => if k = key then v else SMap.get dflt m key

/-- The map without a key. -/
def SMap.erase {α : Type} : SMap α → Nat → SMap α
  | [], _ => []
  | (k, v) :: m, key => if k = key then SMap.erase m key else (k, v) :: SMap.erase m key

/-- The map with a new entry put in its place by key (the key is not listed). -/
def SMap.insert {α : Type} : SMap α → Nat → α → SMap α
  | [], key, x => [(key, x)]
  | (k, v) :: m, key, x => if key < k then (key, x) :: (k, v) :: m else (k, v) :: SMap.insert m key x

/-- The map with a key written: the default is not listed. -/
def SMap.set {α : Type} [DecidableEq α] (dflt : α) (m : SMap α) (key : Nat) (x : α) : SMap α :=
  if x = dflt then m.erase key else (m.erase key).insert key x

/-- The canonical form: keys strictly rising. -/
def SMap.sorted {α : Type} : SMap α → Bool
  | [] => true
  | [_] => true
  | (k, _) :: (k', v') :: m => decide (k < k') && SMap.sorted ((k', v') :: m)

/-- No entry holds the default of its key. -/
def SMap.noDefault {α : Type} [DecidableEq α] (dflt : Nat → α) (m : SMap α) : Bool :=
  m.all (fun e => decide (e.2 ≠ dflt e.1))

end Sys2Proof.Machine
end

