-- ==== Sys2Proof/Machine/RegMap.lean ====
section
/-! DEFINITION. The register map: for every register of the chapters' register tables its place, its reset value and its
access masks (R10), and a name for each register. Places are byte offsets in a die's 8 MiB register window, or in a core's
4 KiB register page (R23). -/
namespace Sys2Proof.Machine

/-- A register: of a die's register window (`core = false`, `idx` the die) or of a physical core's register page
(`core = true`, `idx` the physical core, die × 2,112 + tile × 33 + slot), at byte offset `off` (R23). -/
structure Reg where
  core : Bool
  idx : Nat
  off : Nat
  deriving DecidableEq, Repr

/-- The register of die `d` at window offset `off`. -/
def dieReg (d off : Nat) : Reg := ⟨false, d, off⟩

/-- The register of physical core `p` at page offset `off`. -/
def coreReg (p off : Nat) : Reg := ⟨true, p, off⟩

/-- One line of a register table: `n` registers `stride` bytes apart from `off`, in `nu` units `ustride` bytes apart;
their reset value and the bits of each access code of R10 (`fw`: bits that firmware writes and hosts only read). -/
structure RegRow where
  core : Bool
  off : Nat
  stride : Nat
  n : Nat
  ustride : Nat
  nu : Nat
  reset : Nat
  rw : Nat
  w1c : Nat
  wo : Nat
  rwl : Nat
  fw : Nat
  deriving DecidableEq, Repr

/-- The row covers the offset. -/
def RegRow.covers (r : RegRow) (core : Bool) (off : Nat) : Bool :=
  r.core == core && decide (r.off ≤ off) && decide ((off - r.off) / r.ustride < r.nu)
    && decide ((off - r.off) % r.ustride / r.stride < r.n) && (off - r.off) % r.ustride % r.stride == 0

/-- Rows of the TB tables of 02_ticks_and_time.md. -/
def rowsTb : List RegRow := [
  ⟨false, 0x10000, 0x4, 1, 0x1000000, 1, 0x0, 0x0, 0x0, 0x0, 0x0, 0x0⟩, -- TB_NOW_LO
  ⟨false, 0x10004, 0x4, 1, 0x1000000, 1, 0x0, 0x0, 0x0, 0x0, 0x0, 0x0⟩, -- TB_NOW_HI
  ⟨false, 0x10008, 0x4, 1, 0x1000000, 1, 0x2, 0x0, 0x0, 0x0, 0x2, 0x0⟩, -- TB_CTRL
  ⟨false, 0x1000c, 0x4, 1, 0x1000000, 1, 0x0, 0x0, 0x200, 0x0, 0x0, 0x0⟩, -- TB_ALIGN
  ⟨false, 0x10010, 0x4, 1, 0x1000000, 1, 0x0, 0x0, 0x0, 0x0, 0x0, 0x0⟩ -- TB_ALIGN_LOSS
  ]

/-- Rows of the CMP tables of 02_ticks_and_time.md. -/
def rowsCmp : List RegRow := [
  ⟨false, 0x20000, 0x10, 64, 0x1000000, 1, 0x70000000, 0x7f, 0x70000, 0x0, 0x0, 0x70000000⟩, -- CMP_CTRL
  ⟨false, 0x20004, 0x10, 64, 0x1000000, 1, 0x0, 0xffffffff, 0x0, 0x0, 0x0, 0x0⟩, -- CMP_PERIOD
  ⟨false, 0x20008, 0x10, 64, 0x1000000, 1, 0x0, 0xffffffff, 0x0, 0x0, 0x0, 0x0⟩, -- CMP_MATCH_LO
  ⟨false, 0x2000c, 0x10, 64, 0x1000000, 1, 0x0, 0xffffffff, 0x0, 0x0, 0x0, 0x0⟩ -- CMP_MATCH_HI
  ]

/-- Rows of the CAP tables of 02_ticks_and_time.md. -/
def rowsCap : List RegRow := [
  ⟨false, 0x20400, 0x10, 8, 0x1000000, 1, 0x70000000, 0x3ff3f7, 0x0, 0x0, 0x0, 0x70000000⟩, -- CAP_CTRL
  ⟨false, 0x20404, 0x10, 8, 0x1000000, 1, 0x0, 0x0, 0x2, 0x0, 0x0, 0x0⟩, -- CAP_STATUS
  ⟨false, 0x20408, 0x10, 8, 0x1000000, 1, 0x0, 0x0, 0x0, 0x0, 0x0, 0x0⟩, -- CAP_VALUE_LO
  ⟨false, 0x2040c, 0x10, 8, 0x1000000, 1, 0x0, 0x0, 0x0, 0x0, 0x0, 0x0⟩ -- CAP_VALUE_HI
  ]

/-- Rows of the TG tables of 02_ticks_and_time.md. -/
def rowsTg : List RegRow := [
  ⟨false, 0x20800, 0x100, 4, 0x1000000, 1, 0x0, 0xe, 0x0, 0x30, 0x0, 0x0⟩, -- TG_CTRL
  ⟨false, 0x20804, 0x100, 4, 0x1000000, 1, 0xf4240, 0x7ffffff, 0x0, 0x0, 0x0, 0x0⟩, -- TG_PERIOD
  ⟨false, 0x20808, 0x100, 4, 0x1000000, 1, 0x7a120, 0x7ffffff, 0x0, 0x0, 0x0, 0x0⟩, -- TG_CLOSE
  ⟨false, 0x2080c, 0x100, 4, 0x1000000, 1, 0x7c830, 0x7ffffff, 0x0, 0x0, 0x0, 0x0⟩, -- TG_PAIL
  ⟨false, 0x20810, 0x100, 4, 0x1000000, 1, 0xdbba0, 0x7ffffff, 0x0, 0x0, 0x0, 0x0⟩, -- TG_ACTION
  ⟨false, 0x20814, 0x100, 4, 0x1000000, 1, 0x807d0, 0x1ffffff, 0x0, 0x0, 0x0, 0x0⟩, -- TG_SLAVE
  ⟨false, 0x20818, 0x100, 4, 0x1000000, 1, 0x315, 0xff3f, 0x0, 0x0, 0x0, 0x0⟩, -- TG_REACT
  ⟨false, 0x2081c, 0x100, 4, 0x1000000, 1, 0x0, 0x0, 0x3, 0x0, 0x0, 0x0⟩, -- TG_STATUS
  ⟨false, 0x20820, 0x100, 4, 0x1000000, 1, 0x0, 0xffffffff, 0x0, 0x0, 0x0, 0x0⟩, -- TG_START_AT_LO
  ⟨false, 0x20824, 0x100, 4, 0x1000000, 1, 0x0, 0xffffffff, 0x0, 0x0, 0x0, 0x0⟩, -- TG_START_AT_HI
  ⟨false, 0x20828, 0x100, 4, 0x1000000, 1, 0x0, 0xffffffff, 0x0, 0x0, 0x0, 0x0⟩, -- TG_TICK_LO
  ⟨false, 0x2082c, 0x100, 4, 0x1000000, 1, 0x0, 0xffffffff, 0x0, 0x0, 0x0, 0x0⟩, -- TG_TICK_HI
  ⟨false, 0x20830, 0x100, 4, 0x1000000, 1, 0x0, 0x0, 0x0, 0x0, 0x0, 0x0⟩, -- TG_CUR_START_LO
  ⟨false, 0x20834, 0x100, 4, 0x1000000, 1, 0x0, 0x0, 0x0, 0x0, 0x0, 0x0⟩, -- TG_CUR_START_HI
  ⟨false, 0x20838, 0x100, 4, 0x1000000, 1, 0x0, 0x0, 0x0, 0x0, 0x0, 0x0⟩, -- TG_LATE_LO
  ⟨false, 0x2083c, 0x100, 4, 0x1000000, 1, 0x0, 0x0, 0x0, 0x0, 0x0, 0x0⟩, -- TG_LATE_HI
  ⟨false, 0x20840, 0x100, 4, 0x1000000, 1, 0x0, 0x0, 0x0, 0x0, 0x0, 0x0⟩, -- TG_STALE_LO
  ⟨false, 0x20844, 0x100, 4, 0x1000000, 1, 0x0, 0x0, 0x0, 0x0, 0x0, 0x0⟩, -- TG_STALE_HI
  ⟨false, 0x20848, 0x100, 4, 0x1000000, 1, 0x0, 0x0, 0x0, 0x0, 0x0, 0x0⟩, -- TG_LATE_SPIKES
  ⟨false, 0x2084c, 0x100, 4, 0x1000000, 1, 0x0, 0x0, 0x0, 0x0, 0x0, 0x0⟩, -- TG_OVR_TICKS
  ⟨false, 0x20850, 0x100, 4, 0x1000000, 1, 0x0, 0x0, 0x0, 0x0, 0x0, 0x0⟩, -- TG_FRAME_MISS
  ⟨false, 0x20854, 0x100, 4, 0x1000000, 1, 0x0, 0x0, 0x0, 0x0, 0x0, 0x0⟩, -- TG_TT_ABANDON
  ⟨false, 0x20858, 0x100, 4, 0x1000000, 1, 0x0, 0x0, 0x0, 0x0, 0x0, 0x0⟩, -- TG_EDGE_EARLY
  ⟨false, 0x2085c, 0x100, 4, 0x1000000, 1, 0x0, 0x0, 0x0, 0x0, 0x0, 0x0⟩ -- TG_EDGE_MISS
  ]

/-- Rows of the TO tables of 02_ticks_and_time.md. -/
def rowsTo : List RegRow := [
  ⟨false, 0x20c00, 0x4, 4, 0x1000000, 1, 0x640000, 0xffff3f37, 0x4000, 0x0, 0x0, 0x0⟩, -- TO_CTRL
  ⟨false, 0x20c10, 0x4, 1, 0x1000000, 1, 0x7777, 0x0, 0x0, 0x0, 0x0, 0x7777⟩ -- TO_OWNER
  ]

/-- Rows of the NC tables of 03_neuron_cores.md. -/
def rowsNc : List RegRow := [
  ⟨true, 0x0, 0x4, 1, 0x1000000, 1, 0x0, 0x1, 0x0, 0x6, 0x0, 0x0⟩, -- NC_CTRL
  ⟨true, 0x4, 0x4, 1, 0x1000000, 1, 0xffff0000, 0x0, 0x86, 0x0, 0x0, 0x0⟩, -- NC_STATUS
  ⟨true, 0x10, 0x4, 1, 0x1000000, 1, 0x0, 0x7ff03ff, 0x0, 0x0, 0x0, 0x0⟩, -- NC_STATE_CFG
  ⟨true, 0x14, 0x4, 1, 0x1000000, 1, 0x0, 0xffff03ff, 0x0, 0x0, 0x0, 0x0⟩, -- NC_AXON_CFG
  ⟨true, 0x18, 0x4, 1, 0x1000000, 1, 0x0, 0x7ff03ff, 0x0, 0x0, 0x0, 0x0⟩, -- NC_ROW_CFG
  ⟨true, 0x1c, 0x4, 1, 0x1000000, 1, 0x0, 0xffff03ff, 0x0, 0x0, 0x0, 0x0⟩, -- NC_FANOUT_CFG
  ⟨true, 0x20, 0x4, 1, 0x1000000, 1, 0x40000, 0xf03ff, 0x0, 0x0, 0x0, 0x0⟩, -- NC_DRING_CFG
  ⟨true, 0x40, 0x8, 8, 0x1000000, 1, 0x1000000, 0xffffffff, 0x0, 0x0, 0x0, 0x0⟩, -- NC_GROUP_A
  ⟨true, 0x44, 0x8, 8, 0x1000000, 1, 0x0, 0xf1fffff, 0x0, 0x0, 0x0, 0x0⟩, -- NC_GROUP_B
  ⟨true, 0x80, 0x4, 16, 0x1000000, 1, 0x0, 0xffffff, 0x0, 0x0, 0x0, 0x0⟩, -- NC_THRESH
  ⟨true, 0xc0, 0x4, 1, 0x1000000, 1, 0x0, 0x0, 0x0, 0x0, 0x0, 0x0⟩, -- NC_UCODE_ID
  ⟨true, 0xc4, 0x4, 1, 0x1000000, 1, 0x0, 0x0, 0x0, 0x0, 0x0, 0x0⟩, -- NC_UCODE_STATUS
  ⟨true, 0x100, 0x4, 1, 0x1000000, 1, 0x0, 0x0, 0x0, 0x0, 0x0, 0x0⟩, -- NC_EVENTS_IN_LO
  ⟨true, 0x104, 0x4, 1, 0x1000000, 1, 0x0, 0x0, 0x0, 0x0, 0x0, 0x0⟩, -- NC_EVENTS_IN_HI
  ⟨true, 0x108, 0x4, 1, 0x1000000, 1, 0x0, 0x0, 0x0, 0x0, 0x0, 0x0⟩, -- NC_SYNOPS_LO
  ⟨true, 0x10c, 0x4, 1, 0x1000000, 1, 0x0, 0x0, 0x0, 0x0, 0x0, 0x0⟩, -- NC_SYNOPS_HI
  ⟨true, 0x110, 0x4, 1, 0x1000000, 1, 0x0, 0x0, 0x0, 0x0, 0x0, 0x0⟩, -- NC_FIRES_LO
  ⟨true, 0x114, 0x4, 1, 0x1000000, 1, 0x0, 0x0, 0x0, 0x0, 0x0, 0x0⟩, -- NC_FIRES_HI
  ⟨true, 0x118, 0x4, 1, 0x1000000, 1, 0x0, 0x0, 0x0, 0x0, 0x0, 0x0⟩, -- NC_LATE
  ⟨true, 0x11c, 0x4, 1, 0x1000000, 1, 0x0, 0x0, 0x0, 0x0, 0x0, 0x0⟩, -- NC_STALE
  ⟨true, 0x120, 0x4, 1, 0x1000000, 1, 0x0, 0x0, 0x0, 0x0, 0x0, 0x0⟩, -- NC_OVERDRIVE
  ⟨true, 0x124, 0x4, 1, 0x1000000, 1, 0x0, 0x0, 0x0, 0x0, 0x0, 0x0⟩, -- NC_FANIN_CAP
  ⟨true, 0x128, 0x4, 1, 0x1000000, 1, 0x0, 0x0, 0x0, 0x0, 0x0, 0x0⟩, -- NC_BAD_AXON
  ⟨true, 0x12c, 0x4, 1, 0x1000000, 1, 0x0, 0x0, 0x0, 0x0, 0x0, 0x0⟩, -- NC_STRUCT_ERR
  ⟨true, 0x130, 0x4, 1, 0x1000000, 1, 0x0, 0x0, 0x0, 0x0, 0x0, 0x0⟩, -- NC_DRING_DROP
  ⟨true, 0x134, 0x4, 1, 0x1000000, 1, 0x0, 0x0, 0x0, 0x0, 0x0, 0x0⟩, -- NC_OVERRUN
  ⟨true, 0x138, 0x4, 1, 0x1000000, 1, 0x0, 0x0, 0x0, 0x0, 0x0, 0x0⟩, -- NC_IDLE_TICKS
  ⟨true, 0x13c, 0x4, 1, 0x1000000, 1, 0x0, 0x0, 0x0, 0x0, 0x0, 0x0⟩, -- NC_FIRE_CYCLES
  ⟨true, 0x140, 0x4, 1, 0x1000000, 1, 0x0, 0x0, 0x0, 0x0, 0x0, 0x0⟩, -- NC_MEM_CE
  ⟨false, 0x30000, 0x4, 1, 0x1000000, 1, 0x0, 0x0, 0x0, 0x0, 0x0, 0x0⟩, -- NC_DIE_UCODE
  ⟨false, 0x30004, 0x4, 1, 0x1000000, 1, 0x0, 0x0, 0x0, 0x0, 0x0, 0x0⟩, -- NC_DIE_UCODE_FAIL
  ⟨false, 0x30008, 0x4, 1, 0x1000000, 1, 0x0, 0x0, 0x0, 0x0, 0x0, 0x0⟩ -- NC_DIE_CORES
  ]

/-- Rows of the NC tables of 04_plasticity.md. -/
def rowsNcB : List RegRow := [
  ⟨true, 0x200, 0x4, 1, 0x1000000, 1, 0x0, 0x3f, 0x0, 0x0, 0x0, 0x0⟩, -- NC_PL_CTRL
  ⟨true, 0x204, 0x4, 1, 0x1000000, 1, 0x0, 0x0, 0x19, 0x0, 0x0, 0x0⟩, -- NC_PL_STATUS
  ⟨true, 0x208, 0x4, 1, 0x1000000, 1, 0x0, 0xff03ff, 0x0, 0x0, 0x0, 0x0⟩, -- NC_PL_REGION
  ⟨true, 0x20c, 0x4, 1, 0x1000000, 1, 0x0, 0x7ff, 0x0, 0x0, 0x0, 0x0⟩, -- NC_PL_LIST
  ⟨true, 0x210, 0x4, 1, 0x1000000, 1, 0x0, 0xffffffff, 0x0, 0x0, 0x0, 0x0⟩, -- NC_PL_RULE
  ⟨true, 0x214, 0x4, 1, 0x1000000, 1, 0x0, 0xfffff, 0x0, 0x0, 0x0, 0x0⟩, -- NC_PL_INC
  ⟨true, 0x218, 0x4, 1, 0x1000000, 1, 0x0, 0xffff, 0x0, 0x0, 0x0, 0x0⟩, -- NC_PL_EPOCH
  ⟨true, 0x21c, 0x4, 1, 0x1000000, 1, 0x0, 0xffff, 0x0, 0x0, 0x0, 0x0⟩, -- NC_PL_ETA
  ⟨true, 0x220, 0x4, 1, 0x1000000, 1, 0x0, 0x0, 0x0, 0x0, 0x0, 0x0⟩, -- NC_PL_EPOCHS
  ⟨true, 0x224, 0x4, 1, 0x1000000, 1, 0x0, 0x0, 0x0, 0x0, 0x0, 0x0⟩, -- NC_PL_POTS
  ⟨true, 0x228, 0x4, 1, 0x1000000, 1, 0x0, 0x0, 0x0, 0x0, 0x0, 0x0⟩, -- NC_PL_DEPS
  ⟨true, 0x22c, 0x4, 1, 0x1000000, 1, 0x0, 0x0, 0x0, 0x0, 0x0, 0x0⟩, -- NC_PL_DSAT
  ⟨true, 0x230, 0x4, 1, 0x1000000, 1, 0x0, 0x0, 0x0, 0x0, 0x0, 0x0⟩, -- NC_PL_CLAMPS
  ⟨true, 0x234, 0x4, 1, 0x1000000, 1, 0x0, 0x0, 0x0, 0x0, 0x0, 0x0⟩, -- NC_PL_UNREC
  ⟨true, 0x238, 0x4, 1, 0x1000000, 1, 0x0, 0x0, 0x0, 0x0, 0x0, 0x0⟩, -- NC_PL_BAD_TOKEN
  ⟨true, 0x23c, 0x4, 1, 0x1000000, 1, 0x0, 0x0, 0x0, 0x0, 0x0, 0x0⟩ -- NC_PL_APPLY_CYCLES
  ]

/-- Rows of the EF tables of 05_event_fabric.md. -/
def rowsEf : List RegRow := [
  ⟨false, 0x40000, 0x4, 1, 0x1000000, 1, 0x0, 0x0, 0x0, 0x30, 0x0, 0x0⟩, -- EF_CTRL
  ⟨false, 0x40004, 0x4, 1, 0x1000000, 1, 0xf0, 0x0, 0x3, 0x0, 0x0, 0x0⟩, -- EF_STATUS
  ⟨false, 0x40008, 0x4, 1, 0x1000000, 1, 0x0, 0x0, 0xf00, 0x0, 0x0, 0x0⟩, -- EF_EPOCH
  ⟨false, 0x40010, 0x4, 4, 0x1000000, 1, 0x0, 0x0, 0x0, 0x0, 0x0, 0x0⟩, -- EF_INFLIGHT
  ⟨false, 0x40020, 0x4, 1, 0x1000000, 1, 0xc350, 0xffffff, 0x0, 0x0, 0x0, 0x0⟩, -- EF_EMIT_LIMIT
  ⟨false, 0x40024, 0x4, 1, 0x1000000, 1, 0x3e8, 0xffff, 0x0, 0x0, 0x0, 0x0⟩, -- EF_DRAIN_LIMIT
  ⟨false, 0x40040, 0x4, 8, 0x1000000, 1, 0x0, 0xf, 0x0, 0x0, 0x0, 0x0⟩, -- EF_DROUTE
  ⟨false, 0x40060, 0x4, 4, 0x1000000, 1, 0x0, 0x0, 0x0, 0x0, 0x0, 0x0⟩, -- EF_CPL_STATUS
  ⟨false, 0x40080, 0x4, 1, 0x1000000, 1, 0x0, 0x3fffff, 0x0, 0x0, 0x0, 0x0⟩, -- EF_RT_SEL
  ⟨false, 0x40084, 0x4, 1, 0x1000000, 1, 0x0, 0x0, 0x0, 0x0, 0x0, 0x0⟩, -- EF_RT_DATA_LO
  ⟨false, 0x40088, 0x4, 1, 0x1000000, 1, 0x0, 0x0, 0x0, 0x0, 0x0, 0x0⟩, -- EF_RT_DATA_HI
  ⟨false, 0x40090, 0x4, 1, 0x1000000, 1, 0x0, 0x3ff, 0x0, 0x0, 0x0, 0x0⟩, -- EF_LINK_SEL
  ⟨false, 0x40100, 0x4, 1, 0x1000000, 1, 0x0, 0x0, 0x0, 0x0, 0x0, 0x0⟩, -- EF_INJ_PKTS_LO
  ⟨false, 0x40104, 0x4, 1, 0x1000000, 1, 0x0, 0x0, 0x0, 0x0, 0x0, 0x0⟩, -- EF_INJ_PKTS_HI
  ⟨false, 0x40108, 0x4, 1, 0x1000000, 1, 0x0, 0x0, 0x0, 0x0, 0x0, 0x0⟩, -- EF_EJ_PKTS_LO
  ⟨false, 0x4010c, 0x4, 1, 0x1000000, 1, 0x0, 0x0, 0x0, 0x0, 0x0, 0x0⟩, -- EF_EJ_PKTS_HI
  ⟨false, 0x40110, 0x4, 1, 0x1000000, 1, 0x0, 0x0, 0x0, 0x0, 0x0, 0x0⟩, -- EF_NOROUTE
  ⟨false, 0x40114, 0x4, 1, 0x1000000, 1, 0x0, 0x0, 0x0, 0x0, 0x0, 0x0⟩, -- EF_XCOACH_DROP
  ⟨false, 0x40118, 0x4, 1, 0x1000000, 1, 0x0, 0x0, 0x0, 0x0, 0x0, 0x0⟩, -- EF_FENCED_DROP
  ⟨false, 0x4011c, 0x4, 1, 0x1000000, 1, 0x0, 0x0, 0x0, 0x0, 0x0, 0x0⟩, -- EF_RESET_DROP
  ⟨false, 0x40120, 0x4, 1, 0x1000000, 1, 0x0, 0x0, 0x0, 0x0, 0x0, 0x0⟩, -- EF_MISROUTE
  ⟨false, 0x40124, 0x4, 1, 0x1000000, 1, 0x0, 0x0, 0x0, 0x0, 0x0, 0x0⟩, -- EF_BAD_VER
  ⟨false, 0x40128, 0x4, 1, 0x1000000, 1, 0x0, 0x0, 0x0, 0x0, 0x0, 0x0⟩, -- EF_EMIT_DROP
  ⟨false, 0x4012c, 0x4, 1, 0x1000000, 1, 0x0, 0x0, 0x0, 0x0, 0x0, 0x0⟩, -- EF_CPL_DOWN_DROP
  ⟨false, 0x40130, 0x4, 1, 0x1000000, 1, 0x0, 0x0, 0x0, 0x0, 0x0, 0x0⟩, -- EF_FLIT_CE
  ⟨false, 0x40134, 0x4, 1, 0x1000000, 1, 0x0, 0x0, 0x0, 0x0, 0x0, 0x0⟩, -- EF_FLIT_UE
  ⟨false, 0x40138, 0x4, 1, 0x1000000, 1, 0x0, 0x0, 0x0, 0x0, 0x0, 0x0⟩, -- EF_CPL_REPLAY
  ⟨false, 0x40140, 0x4, 1, 0x1000000, 1, 0x0, 0x0, 0x0, 0x0, 0x0, 0x0⟩, -- EF_LINK_BUSY_LO
  ⟨false, 0x40144, 0x4, 1, 0x1000000, 1, 0x0, 0x0, 0x0, 0x0, 0x0, 0x0⟩, -- EF_LINK_BUSY_HI
  ⟨false, 0x40148, 0x4, 1, 0x1000000, 1, 0x0, 0x0, 0x0, 0x0, 0x0, 0x0⟩, -- EF_LINK_WAIT_LO
  ⟨false, 0x4014c, 0x4, 1, 0x1000000, 1, 0x0, 0x0, 0x0, 0x0, 0x0, 0x0⟩ -- EF_LINK_WAIT_HI
  ]

/-- Rows of the QM tables of 06_queues.md. -/
def rowsQm : List RegRow := [
  ⟨true, 0x400, 0x4, 1, 0x1000000, 1, 0x0, 0x1, 0x0, 0x2, 0x0, 0x0⟩, -- QM_CTRL
  ⟨true, 0x404, 0x4, 1, 0x1000000, 1, 0x0, 0x0, 0x10000, 0x0, 0x0, 0x0⟩, -- QM_STATUS
  ⟨true, 0x408, 0x4, 1, 0x1000000, 1, 0x186a0, 0xffffff, 0x0, 0x0, 0x0, 0x0⟩, -- QM_STALL_LIMIT
  ⟨true, 0x40c, 0x4, 1, 0x1000000, 1, 0xc8, 0xffff, 0x0, 0x0, 0x0, 0x0⟩, -- QM_REPLY_LIMIT
  ⟨true, 0x420, 0x4, 1, 0x1000000, 1, 0x0, 0x0, 0x0, 0x0, 0x0, 0x0⟩, -- QM_RX_MSGS_LO
  ⟨true, 0x424, 0x4, 1, 0x1000000, 1, 0x0, 0x0, 0x0, 0x0, 0x0, 0x0⟩, -- QM_RX_MSGS_HI
  ⟨true, 0x428, 0x4, 1, 0x1000000, 1, 0x0, 0x0, 0x0, 0x0, 0x0, 0x0⟩, -- QM_TX_MSGS_LO
  ⟨true, 0x42c, 0x4, 1, 0x1000000, 1, 0x0, 0x0, 0x0, 0x0, 0x0, 0x0⟩, -- QM_TX_MSGS_HI
  ⟨true, 0x430, 0x4, 1, 0x1000000, 1, 0x0, 0x0, 0x0, 0x0, 0x0, 0x0⟩, -- QM_CLOSED_DROP
  ⟨true, 0x434, 0x4, 1, 0x1000000, 1, 0x0, 0x0, 0x0, 0x0, 0x0, 0x0⟩, -- QM_FULL_REPLY
  ⟨true, 0x438, 0x4, 1, 0x1000000, 1, 0x0, 0x0, 0x0, 0x0, 0x0, 0x0⟩, -- QM_STALLED_OUT
  ⟨true, 0x43c, 0x4, 1, 0x1000000, 1, 0x0, 0x0, 0x0, 0x0, 0x0, 0x0⟩, -- QM_TIMEOUT
  ⟨true, 0x440, 0x4, 1, 0x1000000, 1, 0x0, 0x0, 0x0, 0x0, 0x0, 0x0⟩, -- QM_BAD_MSG
  ⟨true, 0x444, 0x4, 1, 0x1000000, 1, 0x0, 0x0, 0x0, 0x0, 0x0, 0x0⟩, -- QM_MC_DROP
  ⟨true, 0x448, 0x4, 1, 0x1000000, 1, 0x0, 0x0, 0x0, 0x0, 0x0, 0x0⟩, -- QM_COMB_SAT
  ⟨true, 0x44c, 0x4, 1, 0x1000000, 1, 0x0, 0x0, 0x0, 0x0, 0x0, 0x0⟩, -- QM_COMB_PARTIAL
  ⟨true, 0x450, 0x4, 1, 0x1000000, 1, 0x0, 0x0, 0x0, 0x0, 0x0, 0x0⟩, -- QM_RELAY_DROP
  ⟨true, 0x454, 0x4, 1, 0x1000000, 1, 0x0, 0x0, 0x0, 0x0, 0x0, 0x0⟩, -- QM_SKIP
  ⟨true, 0x458, 0x4, 1, 0x1000000, 1, 0x0, 0x0, 0x0, 0x0, 0x0, 0x0⟩, -- QM_STALE_REPLY
  ⟨true, 0x480, 0x8, 16, 0x1000000, 1, 0x0, 0x0, 0x0, 0x0, 0x0, 0x0⟩, -- QM_DBG_LO
  ⟨true, 0x484, 0x8, 16, 0x1000000, 1, 0x0, 0x0, 0x0, 0x0, 0x0, 0x0⟩, -- QM_DBG_HI
  ⟨true, 0x500, 0x10, 16, 0x1000000, 1, 0x0, 0x1ff, 0x600, 0x0, 0x0, 0x0⟩, -- QM_Q_CTRL
  ⟨true, 0x504, 0x10, 16, 0x1000000, 1, 0x0, 0x703ff, 0x0, 0x0, 0x0, 0x0⟩, -- QM_Q_REGION
  ⟨true, 0x508, 0x10, 16, 0x1000000, 1, 0x0, 0xffffffff, 0x0, 0x0, 0x0, 0x0⟩, -- QM_Q_COMB
  ⟨true, 0x600, 0x20, 16, 0x1000000, 1, 0x0, 0xfffffff7, 0x0, 0x8, 0x0, 0x0⟩, -- QM_C_CTRL
  ⟨true, 0x604, 0x20, 16, 0x1000000, 1, 0x0, 0x7fffffff, 0x0, 0x0, 0x0, 0x0⟩, -- QM_C_DEST
  ⟨true, 0x608, 0x20, 16, 0x1000000, 1, 0x0, 0x1fff, 0x0, 0x0, 0x0, 0x0⟩, -- QM_C_SRC
  ⟨true, 0x60c, 0x20, 16, 0x1000000, 1, 0x0, 0xffff, 0x0, 0x0, 0x0, 0x0⟩, -- QM_C_TAG
  ⟨true, 0x610, 0x20, 16, 0x1000000, 1, 0x0, 0x0, 0x30000, 0x0, 0x0, 0x0⟩, -- QM_C_STATUS
  ⟨true, 0x614, 0x20, 16, 0x1000000, 1, 0x0, 0x0, 0x0, 0x0, 0x0, 0x0⟩, -- QM_C_SENDNO
  ⟨true, 0x800, 0x4, 1, 0x1000000, 1, 0x0, 0x0, 0x0, 0x81ffffff, 0x0, 0x0⟩, -- QM_INJ_CTRL
  ⟨true, 0x804, 0x4, 1, 0x1000000, 1, 0x100, 0x0, 0x0, 0x0, 0x0, 0x0⟩, -- QM_INJ_STATUS
  ⟨true, 0x808, 0x4, 1, 0x1000000, 1, 0x0, 0x7ff, 0x0, 0x0, 0x0, 0x0⟩, -- QM_INJ_OFFSET
  ⟨true, 0xa00, 0x4, 128, 0x1000000, 1, 0x0, 0x0, 0x0, 0xffffffff, 0x0, 0x0⟩, -- QM_INJ_DATA
  ⟨false, 0x50000, 0x4, 1, 0x1000000, 1, 0x0, 0x0, 0x0, 0x0, 0x0, 0x0⟩, -- QM_DIE_OPEN
  ⟨false, 0x50004, 0x4, 1, 0x1000000, 1, 0x0, 0x0, 0x0, 0x0, 0x0, 0x0⟩, -- QM_DIE_CLOSED_DROP
  ⟨false, 0x50008, 0x4, 1, 0x1000000, 1, 0x0, 0x0, 0x0, 0x0, 0x0, 0x0⟩, -- QM_DIE_STALLED_OUT
  ⟨false, 0x5000c, 0x4, 1, 0x1000000, 1, 0x0, 0x0, 0x0, 0x0, 0x0, 0x0⟩ -- QM_DIE_TIMEOUT
  ]

/-- Rows of the CHN tables of 07_churns.md. -/
def rowsChn : List RegRow := [
  ⟨false, 0x60000, 0x4, 1, 0x10000, 4, 0x0, 0x0, 0x0, 0x1, 0x0, 0x0⟩, -- CHN_CTRL
  ⟨false, 0x60004, 0x4, 1, 0x10000, 4, 0x0, 0x0, 0xf0, 0x0, 0x0, 0x0⟩, -- CHN_STATUS
  ⟨false, 0x60008, 0x4, 1, 0x10000, 4, 0x0, 0x0, 0x0, 0x0, 0x0, 0x0⟩, -- CHN_REPAIR
  ⟨false, 0x6000c, 0x4, 1, 0x10000, 4, 0x3e8, 0xffff, 0x0, 0x0, 0x0, 0x0⟩, -- CHN_MSE_WIN
  ⟨false, 0x60080, 0x4, 1, 0x10000, 4, 0x0, 0x0, 0x0, 0x0, 0x0, 0x0⟩, -- CHN_PASSES_LO
  ⟨false, 0x60084, 0x4, 1, 0x10000, 4, 0x0, 0x0, 0x0, 0x0, 0x0, 0x0⟩, -- CHN_PASSES_HI
  ⟨false, 0x60088, 0x4, 1, 0x10000, 4, 0x0, 0x0, 0x0, 0x0, 0x0, 0x0⟩, -- CHN_VECTORS_LO
  ⟨false, 0x6008c, 0x4, 1, 0x10000, 4, 0x0, 0x0, 0x0, 0x0, 0x0, 0x0⟩, -- CHN_VECTORS_HI
  ⟨false, 0x60090, 0x4, 1, 0x10000, 4, 0x0, 0x0, 0x0, 0x0, 0x0, 0x0⟩, -- CHN_EVENTS_LO
  ⟨false, 0x60094, 0x4, 1, 0x10000, 4, 0x0, 0x0, 0x0, 0x0, 0x0, 0x0⟩, -- CHN_EVENTS_HI
  ⟨false, 0x60098, 0x4, 1, 0x10000, 4, 0x0, 0x0, 0x0, 0x0, 0x0, 0x0⟩, -- CHN_ZERO_MASKS_LO
  ⟨false, 0x6009c, 0x4, 1, 0x10000, 4, 0x0, 0x0, 0x0, 0x0, 0x0, 0x0⟩, -- CHN_ZERO_MASKS_HI
  ⟨false, 0x600a0, 0x4, 1, 0x10000, 4, 0x0, 0x0, 0x0, 0x0, 0x0, 0x0⟩, -- CHN_ACC_SAT
  ⟨false, 0x600a4, 0x4, 1, 0x10000, 4, 0x0, 0x0, 0x0, 0x0, 0x0, 0x0⟩, -- CHN_OUT_SAT
  ⟨false, 0x600a8, 0x4, 1, 0x10000, 4, 0x0, 0x0, 0x0, 0x0, 0x0, 0x0⟩, -- CHN_PASS_ABANDON
  ⟨false, 0x600ac, 0x4, 1, 0x10000, 4, 0x0, 0x0, 0x0, 0x0, 0x0, 0x0⟩, -- CHN_EV_AXON_DROP
  ⟨false, 0x600b0, 0x4, 1, 0x10000, 4, 0x0, 0x0, 0x0, 0x0, 0x0, 0x0⟩, -- CHN_EMIT_WAIT
  ⟨false, 0x600b4, 0x4, 1, 0x10000, 4, 0x0, 0x0, 0x0, 0x0, 0x0, 0x0⟩, -- CHN_RESIDUE_ERR
  ⟨false, 0x600b8, 0x4, 1, 0x10000, 4, 0x0, 0x0, 0x0, 0x0, 0x0, 0x0⟩, -- CHN_MEM_CE
  ⟨false, 0x60100, 0x4, 16, 0x10000, 4, 0x0, 0x0, 0x0, 0xffffffff, 0x0, 0x0⟩, -- CHN_SEED
  ⟨false, 0x60200, 0x10, 16, 0x10000, 4, 0x0, 0x0, 0x0, 0x0, 0x0, 0x0⟩, -- CHN_MSE_SUM_LO
  ⟨false, 0x60204, 0x10, 16, 0x10000, 4, 0x0, 0x0, 0x0, 0x0, 0x0, 0x0⟩, -- CHN_MSE_SUM_HI
  ⟨false, 0x60208, 0x10, 16, 0x10000, 4, 0x0, 0x0, 0x0, 0x0, 0x0, 0x0⟩, -- CHN_MSE_CNT
  ⟨false, 0x62000, 0x4, 2048, 0x10000, 4, 0x0, 0xffffffff, 0x0, 0x0, 0x0, 0x0⟩, -- CHN_EMIT
  ⟨false, 0x64000, 0x4, 4096, 0x10000, 4, 0x0, 0xffffffff, 0x0, 0x0, 0x0, 0x0⟩, -- CHN_GATHER
  ⟨false, 0x68000, 0x4, 8192, 0x10000, 4, 0x0, 0xffffffff, 0x0, 0x0, 0x0, 0x0⟩ -- CHN_REQUANT
  ]

/-- Rows of the PAIL tables of 07_churns.md. -/
def rowsPail : List RegRow := [
  ⟨false, 0x60040, 0x4, 1, 0x10000, 4, 0x0, 0x3, 0x0, 0x0, 0x0, 0x0⟩, -- PAIL_CTRL
  ⟨false, 0x60044, 0x4, 1, 0x10000, 4, 0x0, 0x0, 0x1, 0x0, 0x0, 0x0⟩, -- PAIL_STATUS
  ⟨false, 0x600c0, 0x4, 1, 0x10000, 4, 0x0, 0x0, 0x0, 0x0, 0x0, 0x0⟩, -- PAIL_SPIKES_LO
  ⟨false, 0x600c4, 0x4, 1, 0x10000, 4, 0x0, 0x0, 0x0, 0x0, 0x0, 0x0⟩, -- PAIL_SPIKES_HI
  ⟨false, 0x600c8, 0x4, 1, 0x10000, 4, 0x0, 0x0, 0x0, 0x0, 0x0, 0x0⟩, -- PAIL_LATE
  ⟨false, 0x600cc, 0x4, 1, 0x10000, 4, 0x0, 0x0, 0x0, 0x0, 0x0, 0x0⟩, -- PAIL_STALE
  ⟨false, 0x600d0, 0x4, 1, 0x10000, 4, 0x0, 0x0, 0x0, 0x0, 0x0, 0x0⟩ -- PAIL_XCOACH
  ]

/-- Rows of the SN tables of 08_vats_and_timetable.md. -/
def rowsSn : List RegRow := [
  ⟨false, 0xa0000, 0x4, 1, 0x1000000, 1, 0x0, 0x0, 0x0, 0x1, 0x0, 0x0⟩, -- SN_CTRL
  ⟨false, 0xa0004, 0x4, 1, 0x1000000, 1, 0x0, 0x0, 0x0, 0x0, 0x0, 0x0⟩, -- SN_STATUS
  ⟨false, 0xa0010, 0x4, 1, 0x1000000, 1, 0xffffff, 0x0, 0x0, 0x0, 0x0, 0x0⟩, -- SN_OWN_VR
  ⟨false, 0xa0014, 0x4, 1, 0x1000000, 1, 0xffffff, 0x0, 0x0, 0x0, 0x0, 0x0⟩, -- SN_OWN_VWJ
  ⟨false, 0xa0018, 0x4, 1, 0x1000000, 1, 0xffffff, 0x0, 0x0, 0x0, 0x0, 0x0⟩, -- SN_OWN_SP
  ⟨false, 0xa0020, 0x4, 4, 0x1000000, 1, 0xfff, 0x0, 0x0, 0x0, 0x0, 0x0⟩, -- SN_OWN_CPL
  ⟨false, 0xa0030, 0x4, 4, 0x1000000, 1, 0x0, 0x0, 0x0, 0x0, 0x0, 0x0⟩, -- SN_FRAME
  ⟨false, 0xa0040, 0x4, 1, 0x1000000, 1, 0x0, 0x0, 0x0, 0x0, 0x0, 0x0⟩, -- SN_WORDS_LO
  ⟨false, 0xa0044, 0x4, 1, 0x1000000, 1, 0x0, 0x0, 0x0, 0x0, 0x0, 0x0⟩, -- SN_WORDS_HI
  ⟨false, 0xa0048, 0x4, 1, 0x1000000, 1, 0x0, 0x0, 0x0, 0x0, 0x0, 0x0⟩, -- SN_EMPTY
  ⟨false, 0xa004c, 0x4, 1, 0x1000000, 1, 0x0, 0x0, 0x0, 0x0, 0x0, 0x0⟩, -- SN_XCOACH
  ⟨false, 0xa0050, 0x4, 1, 0x1000000, 1, 0x0, 0x0, 0x0, 0x0, 0x0, 0x0⟩, -- SN_JOIN_SAT
  ⟨false, 0xa0054, 0x4, 1, 0x1000000, 1, 0x0, 0x0, 0x0, 0x0, 0x0, 0x0⟩, -- SN_JOIN_MISMATCH
  ⟨false, 0xa0058, 0x4, 1, 0x1000000, 1, 0x0, 0x0, 0x0, 0x0, 0x0, 0x0⟩, -- SN_GUARD_MISS
  ⟨false, 0xa005c, 0x4, 1, 0x1000000, 1, 0x0, 0x0, 0x0, 0x0, 0x0, 0x0⟩, -- SN_CPL_EMPTY
  ⟨false, 0xa0060, 0x4, 1, 0x1000000, 1, 0x0, 0x0, 0x0, 0x0, 0x0, 0x0⟩, -- SN_CPL_OVF
  ⟨false, 0xa0064, 0x4, 1, 0x1000000, 1, 0x0, 0x0, 0x0, 0x0, 0x0, 0x0⟩, -- SN_ABANDON
  ⟨false, 0xa0068, 0x4, 1, 0x1000000, 1, 0x0, 0x0, 0x0, 0x0, 0x0, 0x0⟩, -- SN_LANE_CE
  ⟨false, 0xa006c, 0x4, 1, 0x1000000, 1, 0x0, 0x0, 0x0, 0x0, 0x0, 0x0⟩, -- SN_LANE_UE
  ⟨false, 0xa0400, 0x4, 128, 0x1000000, 1, 0x0, 0x0, 0x0, 0x0, 0x0, 0x0⟩, -- SN_FLAGS
  ⟨false, 0xa0800, 0x4, 256, 0x1000000, 1, 0x0, 0x0, 0x0, 0x0, 0x0, 0x0⟩ -- SN_BAR
  ]

/-- Rows of the VAT tables of 08_vats_and_timetable.md. -/
def rowsVat : List RegRow := [
  ⟨false, 0xb0000, 0x4, 1, 0x1000000, 1, 0x0, 0x0, 0x0, 0x1, 0x0, 0x0⟩, -- VAT_CTRL
  ⟨false, 0xb0004, 0x4, 1, 0x1000000, 1, 0x0, 0x0, 0x1, 0x0, 0x0, 0x0⟩, -- VAT_STATUS
  ⟨false, 0xb0010, 0x4, 16, 0x1000000, 1, 0x77000, 0x0, 0x0, 0x0, 0x0, 0x0⟩, -- VAT_SET
  ⟨false, 0xb0050, 0x4, 1, 0x1000000, 1, 0x0, 0x0, 0x0, 0x0, 0x0, 0x0⟩, -- VAT_SPARE
  ⟨false, 0xb0060, 0x4, 1, 0x1000000, 1, 0x0, 0x3f, 0x0, 0x0, 0x0, 0x0⟩, -- VAT_BANK_SEL
  ⟨false, 0xb0068, 0x4, 1, 0x1000000, 1, 0x0, 0x0, 0x0, 0x0, 0x0, 0x0⟩, -- VAT_BANK_SCHED_LO
  ⟨false, 0xb006c, 0x4, 1, 0x1000000, 1, 0x0, 0x0, 0x0, 0x0, 0x0, 0x0⟩, -- VAT_BANK_SCHED_HI
  ⟨false, 0xb0070, 0x4, 1, 0x1000000, 1, 0x0, 0x0, 0x0, 0x0, 0x0, 0x0⟩, -- VAT_BANK_UNSCHED_LO
  ⟨false, 0xb0074, 0x4, 1, 0x1000000, 1, 0x0, 0x0, 0x0, 0x0, 0x0, 0x0⟩, -- VAT_BANK_UNSCHED_HI
  ⟨false, 0xb0078, 0x4, 1, 0x1000000, 1, 0x0, 0x0, 0x0, 0x0, 0x0, 0x0⟩, -- VAT_BANK_WAIT_LO
  ⟨false, 0xb007c, 0x4, 1, 0x1000000, 1, 0x0, 0x0, 0x0, 0x0, 0x0, 0x0⟩, -- VAT_BANK_WAIT_HI
  ⟨false, 0xb0080, 0x4, 1, 0x1000000, 1, 0x0, 0x0, 0x0, 0x0, 0x0, 0x0⟩, -- VAT_CE
  ⟨false, 0xb0084, 0x4, 1, 0x1000000, 1, 0x0, 0x0, 0x0, 0x0, 0x0, 0x0⟩, -- VAT_UE
  ⟨false, 0xb0088, 0x4, 1, 0x1000000, 1, 0x0, 0x0, 0x0, 0x0, 0x0, 0x0⟩, -- VAT_WW_COLLIDE
  ⟨false, 0xb008c, 0x4, 1, 0x1000000, 1, 0x0, 0x0, 0x0, 0x0, 0x0, 0x0⟩ -- VAT_ROWS_USED
  ]

/-- Rows of the SP tables of 09_separators.md. -/
def rowsSp : List RegRow := [
  ⟨false, 0xc0000, 0x4, 1, 0x4000, 16, 0x0, 0x7f, 0x0, 0x80, 0x0, 0x0⟩, -- SP_CTRL
  ⟨false, 0xc0004, 0x4, 1, 0x4000, 16, 0x0, 0x7fff7f, 0x0, 0x0, 0x0, 0x0⟩, -- SP_SHAPE
  ⟨false, 0xc0008, 0x4, 1, 0x4000, 16, 0x0, 0x0, 0x3, 0x0, 0x0, 0x0⟩, -- SP_STATUS
  ⟨false, 0xc000c, 0x4, 1, 0x4000, 16, 0x0, 0x0, 0x0, 0xffffffff, 0x0, 0x0⟩, -- SP_SEED
  ⟨false, 0xc0010, 0x4, 1, 0x4000, 16, 0x0, 0x0, 0x0, 0x0, 0x0, 0x0⟩, -- SP_ELEMS_LO
  ⟨false, 0xc0014, 0x4, 1, 0x4000, 16, 0x0, 0x0, 0x0, 0x0, 0x0, 0x0⟩, -- SP_ELEMS_HI
  ⟨false, 0xc0018, 0x4, 1, 0x4000, 16, 0x0, 0x0, 0x0, 0x0, 0x0, 0x0⟩, -- SP_EVENTS_LO
  ⟨false, 0xc001c, 0x4, 1, 0x4000, 16, 0x0, 0x0, 0x0, 0x0, 0x0, 0x0⟩, -- SP_EVENTS_HI
  ⟨false, 0xc0020, 0x4, 1, 0x4000, 16, 0x0, 0x0, 0x0, 0x0, 0x0, 0x0⟩, -- SP_MISSING
  ⟨false, 0xc0024, 0x4, 1, 0x4000, 16, 0x0, 0x0, 0x0, 0x0, 0x0, 0x0⟩, -- SP_DUP
  ⟨false, 0xc0028, 0x4, 1, 0x4000, 16, 0x0, 0x0, 0x0, 0x0, 0x0, 0x0⟩, -- SP_BAD_WORD
  ⟨false, 0xc002c, 0x4, 1, 0x4000, 16, 0x0, 0x0, 0x0, 0x0, 0x0, 0x0⟩, -- SP_IN_SAT
  ⟨false, 0xc0030, 0x4, 1, 0x4000, 16, 0x0, 0x0, 0x0, 0x0, 0x0, 0x0⟩, -- SP_OUT_SAT
  ⟨false, 0xc0034, 0x4, 1, 0x4000, 16, 0x0, 0x0, 0x0, 0x0, 0x0, 0x0⟩, -- SP_ELEM_SAFE
  ⟨false, 0xc0038, 0x4, 1, 0x4000, 16, 0x0, 0x0, 0x0, 0x0, 0x0, 0x0⟩, -- SP_REC_LATE
  ⟨false, 0xc003c, 0x4, 1, 0x4000, 16, 0x0, 0x0, 0x0, 0x0, 0x0, 0x0⟩, -- SP_REC_STALE
  ⟨false, 0xc0040, 0x4, 1, 0x4000, 16, 0x0, 0x0, 0x0, 0x0, 0x0, 0x0⟩, -- SP_XCOACH
  ⟨false, 0xc0044, 0x4, 1, 0x4000, 16, 0x0, 0x0, 0x0, 0x0, 0x0, 0x0⟩, -- SP_EMIT_WAIT
  ⟨false, 0xc0048, 0x4, 1, 0x4000, 16, 0x0, 0x0, 0x0, 0x0, 0x0, 0x0⟩, -- SP_MEM_CE
  ⟨false, 0xc0800, 0x10, 128, 0x4000, 16, 0x0, 0xffffffff, 0x0, 0x0, 0x0, 0x0⟩, -- SP_CHAN, bits [31:0]
  ⟨false, 0xc0804, 0x10, 128, 0x4000, 16, 0x0, 0xffffffff, 0x0, 0x0, 0x0, 0x0⟩, -- SP_CHAN, bits [63:32]
  ⟨false, 0xc0808, 0x10, 128, 0x4000, 16, 0x0, 0xffffffff, 0x0, 0x0, 0x0, 0x0⟩, -- SP_CHAN, bits [95:64]
  ⟨false, 0xc080c, 0x10, 128, 0x4000, 16, 0x0, 0x0, 0x0, 0x0, 0x0, 0x0⟩, -- SP_CHAN, bits [127:96]: RSV
  ⟨false, 0xc1000, 0x4, 1024, 0x4000, 16, 0x0, 0xffffffff, 0x0, 0x0, 0x0, 0x0⟩, -- SP_EMIT
  ⟨false, 0xc2000, 0x8, 512, 0x4000, 16, 0x0, 0xffffffff, 0x0, 0x0, 0x0, 0x0⟩, -- SP_GATHER, bits [31:0]
  ⟨false, 0xc2004, 0x8, 512, 0x4000, 16, 0x0, 0x801fffff, 0x0, 0x0, 0x0, 0x0⟩ -- SP_GATHER, bits [63:32]: [62:53] RSV
  ]

/-- Rows of the FR tables of 09_separators.md. -/
def rowsFr : List RegRow := [
  ⟨false, 0x100000, 0x4, 1, 0x100, 2, 0x0, 0xfffff, 0x0, 0x100000, 0x0, 0x0⟩, -- FR_CTRL
  ⟨false, 0x100004, 0x4, 1, 0x100, 2, 0x0, 0x0, 0x1, 0x0, 0x0, 0x0⟩, -- FR_STATUS
  ⟨false, 0x100008, 0x4, 1, 0x100, 2, 0x0, 0x3ffff, 0x0, 0x0, 0x0, 0x0⟩, -- FR_OBS_BASE
  ⟨false, 0x10000c, 0x4, 1, 0x100, 2, 0x0, 0x3ffff, 0x0, 0x0, 0x0, 0x0⟩, -- FR_OBS_SIZE
  ⟨false, 0x100010, 0x4, 1, 0x100, 2, 0x0, 0x3ffff, 0x0, 0x0, 0x0, 0x0⟩, -- FR_ACT_BASE
  ⟨false, 0x100014, 0x4, 1, 0x100, 2, 0x0, 0x3ffff, 0x0, 0x0, 0x0, 0x0⟩, -- FR_ACT_SIZE
  ⟨false, 0x100018, 0x4, 1, 0x100, 2, 0x0, 0x3ffff, 0x0, 0x0, 0x0, 0x0⟩, -- FR_SAFE_BASE
  ⟨false, 0x100020, 0x4, 1, 0x100, 2, 0x0, 0x0, 0x0, 0x0, 0x0, 0x0⟩, -- FR_PUB
  ⟨false, 0x100024, 0x4, 1, 0x100, 2, 0x0, 0x0, 0x0, 0x0, 0x0, 0x0⟩, -- FR_SUB_SAFE
  ⟨false, 0x100028, 0x4, 1, 0x100, 2, 0x0, 0x0, 0x0, 0x0, 0x0, 0x0⟩, -- FR_SUB_STALE
  ⟨false, 0x10002c, 0x4, 1, 0x100, 2, 0x0, 0x0, 0x0, 0x0, 0x0, 0x0⟩, -- FR_OBS_LATE
  ⟨false, 0x100030, 0x4, 1, 0x100, 2, 0x0, 0x0, 0x0, 0x0, 0x0, 0x0⟩, -- FR_DROP_WR
  ⟨false, 0x100200, 0x4, 1, 0x1000000, 1, 0x9, 0x4, 0x0, 0x2, 0x0, 0x0⟩ -- FR_SAFEN
  ]

/-- Rows of the HP tables of 10_host_ports.md. -/
def rowsHp : List RegRow := [
  ⟨false, 0x110000, 0x4, 1, 0x1000, 2, 0x2000000, 0x0, 0x0, 0x0, 0x0, 0x0⟩, -- HP_ID
  ⟨false, 0x110004, 0x4, 1, 0x1000, 2, 0x0, 0x1, 0x0, 0x2, 0x0, 0x0⟩, -- HP_CTRL
  ⟨false, 0x110008, 0x4, 1, 0x1000, 2, 0x1000000, 0x0, 0xf0, 0x0, 0x0, 0x0⟩, -- HP_STATUS
  ⟨false, 0x11000c, 0x4, 1, 0x1000, 2, 0x0, 0xff, 0x0, 0x0, 0x0, 0x0⟩, -- HP_ALERT_EN
  ⟨false, 0x110010, 0x4, 1, 0x1000, 2, 0x0, 0x0, 0xff, 0x0, 0x0, 0x0⟩, -- HP_ALERT_STAT
  ⟨false, 0x110014, 0x4, 1, 0x1000, 2, 0x64, 0xffff, 0x0, 0x0, 0x0, 0x0⟩, -- HP_LOSS_TIMEOUT
  ⟨false, 0x110018, 0x4, 1, 0x1000, 2, 0x0, 0x0, 0x0, 0xffffffff, 0x0, 0x0⟩, -- HP_HEARTBEAT
  ⟨false, 0x110020, 0x4, 1, 0x1000, 2, 0x0, 0x7ffffff, 0x0, 0x0, 0x0, 0x0⟩, -- HP_FETCH_ADDR
  ⟨false, 0x110024, 0x4, 1, 0x1000, 2, 0x1, 0x0, 0x0, 0x0, 0x0, 0x0⟩, -- HP_FETCH_DONE
  ⟨false, 0x110028, 0x4, 1, 0x1000, 2, 0x0, 0x0, 0x0, 0x0, 0x0, 0x0⟩, -- HP_FETCH_DATA
  ⟨false, 0x11002c, 0x4, 1, 0x1000, 2, 0x0, 0x0, 0x0, 0x0, 0x0, 0x0⟩, -- HP_WRITE_SEQ
  ⟨false, 0x110100, 0x4, 1, 0x1000, 2, 0x0, 0x0, 0x0, 0x0, 0x0, 0x0⟩, -- HP_RD_BURSTS_LO
  ⟨false, 0x110104, 0x4, 1, 0x1000, 2, 0x0, 0x0, 0x0, 0x0, 0x0, 0x0⟩, -- HP_RD_BURSTS_HI
  ⟨false, 0x110108, 0x4, 1, 0x1000, 2, 0x0, 0x0, 0x0, 0x0, 0x0, 0x0⟩, -- HP_WR_BURSTS_LO
  ⟨false, 0x11010c, 0x4, 1, 0x1000, 2, 0x0, 0x0, 0x0, 0x0, 0x0, 0x0⟩, -- HP_WR_BURSTS_HI
  ⟨false, 0x110110, 0x4, 1, 0x1000, 2, 0x0, 0x0, 0x0, 0x0, 0x0, 0x0⟩, -- HP_RSV_ACCESS
  ⟨false, 0x110114, 0x4, 1, 0x1000, 2, 0x0, 0x0, 0x0, 0x0, 0x0, 0x0⟩, -- HP_DENIED_RD
  ⟨false, 0x110118, 0x4, 1, 0x1000, 2, 0x0, 0x0, 0x0, 0x0, 0x0, 0x0⟩, -- HP_DENIED_WR
  ⟨false, 0x11011c, 0x4, 1, 0x1000, 2, 0x0, 0x0, 0x0, 0x0, 0x0, 0x0⟩, -- HP_WQ_DROP
  ⟨false, 0x110120, 0x4, 1, 0x1000, 2, 0x0, 0x0, 0x0, 0x0, 0x0, 0x0⟩, -- HP_PARTIAL_WR
  ⟨false, 0x110124, 0x4, 1, 0x1000, 2, 0x0, 0x0, 0x0, 0x0, 0x0, 0x0⟩, -- HP_UNSUP
  ⟨false, 0x110128, 0x4, 1, 0x1000, 2, 0x0, 0x0, 0x0, 0x0, 0x0, 0x0⟩, -- HP_FETCHES
  ⟨false, 0x11012c, 0x4, 1, 0x1000, 2, 0x0, 0x0, 0x0, 0x0, 0x0, 0x0⟩ -- HP_LOSS
  ]

/-- Rows of the BU tables of 12_bring_up.md. -/
def rowsBu : List RegRow := [
  ⟨false, 0x0, 0x4, 1, 0x1000000, 1, 0x0, 0xf, 0x0, 0x0, 0x0, 0x0⟩, -- BU_STEP
  ⟨false, 0x4, 0x4, 1, 0x1000000, 1, 0x0, 0x0, 0x200, 0x0, 0x0, 0x0⟩, -- BU_STATUS
  ⟨false, 0x8, 0x4, 1, 0x1000000, 1, 0x0, 0x3, 0x0, 0x4, 0x0, 0x0⟩, -- BU_CTRL
  ⟨false, 0xc, 0x4, 1, 0x1000000, 1, 0x0, 0x1, 0x0, 0x0, 0x0, 0x0⟩, -- BU_ARG
  ⟨false, 0x10, 0x4, 1, 0x1000000, 1, 0x0, 0x1ffffff, 0x0, 0x0, 0x0, 0x0⟩, -- BU_FW_OFF
  ⟨false, 0x14, 0x4, 1, 0x1000000, 1, 0x0, 0x1ffffff, 0x0, 0x0, 0x0, 0x0⟩, -- BU_FW_LEN
  ⟨false, 0x18, 0x4, 1, 0x1000000, 1, 0x0, 0x0, 0x0, 0x0, 0x0, 0x0⟩, -- BU_DETAIL
  ⟨false, 0x1c, 0x4, 1, 0x1000000, 1, 0x0, 0x0, 0x0, 0x0, 0x0, 0x0⟩, -- BU_ELAPSED
  ⟨false, 0x20, 0x4, 12, 0x1000000, 1, 0x0, 0x0, 0x0, 0x0, 0x0, 0x0⟩, -- BU_TIME
  ⟨false, 0x60, 0x4, 1, 0x1000000, 1, 0x0, 0x7, 0x0, 0x0, 0x0, 0x0⟩, -- BU_KIND_SEL
  ⟨false, 0x64, 0x4, 1, 0x1000000, 1, 0x0, 0x0, 0x0, 0x0, 0x0, 0x0⟩, -- BU_KIND_TESTED
  ⟨false, 0x68, 0x4, 1, 0x1000000, 1, 0x0, 0x0, 0x0, 0x0, 0x0, 0x0⟩, -- BU_KIND_FAILED
  ⟨false, 0x6c, 0x4, 1, 0x1000000, 1, 0x0, 0x0, 0x0, 0x0, 0x0, 0x0⟩, -- BU_KIND_COV
  ⟨false, 0x70, 0x4, 1, 0x1000000, 1, 0x0, 0x0, 0x0, 0x0, 0x0, 0x0⟩, -- BU_KIND_KA_TIME
  ⟨false, 0x74, 0x4, 1, 0x1000000, 1, 0x0, 0x0, 0x0, 0x0, 0x0, 0x0⟩, -- BU_KIND_BIST_TIME
  ⟨false, 0x80, 0x4, 1, 0x1000000, 1, 0x0, 0x0, 0x0, 0x0, 0x0, 0x0⟩, -- BU_DEFECTS
  ⟨false, 0x84, 0x4, 1, 0x1000000, 1, 0x0, 0x0, 0x0, 0x0, 0x0, 0x0⟩, -- BU_DIE_STATE
  ⟨false, 0x88, 0x4, 1, 0x1000000, 1, 0x0, 0x0, 0x0, 0x1f1f, 0x0, 0x0⟩ -- BU_PADS
  ]

/-- Rows of the FC tables of 13_faults_and_fencing.md. -/
def rowsFc : List RegRow := [
  ⟨false, 0x120000, 0x4, 1, 0x1000000, 1, 0x0, 0x0, 0x0, 0x1, 0x0, 0x0⟩, -- FC_CTRL
  ⟨false, 0x120004, 0x4, 1, 0x1000000, 1, 0x0, 0x0, 0x0, 0x0, 0x0, 0x0⟩, -- FC_STATUS
  ⟨false, 0x120010, 0x4, 4, 0x1000000, 1, 0x20, 0x3f3f, 0x0, 0x0, 0x0, 0x0⟩, -- FC_REACT
  ⟨false, 0x120020, 0x4, 1, 0x1000000, 1, 0x0, 0x3f, 0x0, 0x0, 0x0, 0x0⟩, -- FC_SEL
  ⟨false, 0x120024, 0x4, 8, 0x1000000, 1, 0x0, 0x0, 0x0, 0x0, 0x0, 0x0⟩, -- FC_REC
  ⟨false, 0x120044, 0x4, 1, 0x1000000, 1, 0x0, 0x0, 0x0, 0x3f, 0x0, 0x0⟩, -- FC_ACK
  ⟨false, 0x120050, 0x4, 1, 0x1000000, 1, 0x0, 0x3f3f, 0x0, 0x0, 0x0, 0x0⟩, -- FC_AGE_SEL
  ⟨false, 0x120054, 0x4, 1, 0x1000000, 1, 0x0, 0x0, 0x0, 0x0, 0x0, 0x0⟩, -- FC_AGE_DATA
  ⟨false, 0x120058, 0x4, 1, 0x1000000, 1, 0x1428, 0xffff, 0x0, 0x0, 0x0, 0x0⟩, -- FC_AGE_LIMITS
  ⟨false, 0x12005c, 0x4, 1, 0x1000000, 1, 0x0, 0x0, 0x0, 0x0, 0x0, 0x0⟩, -- FC_RESET_CAUSE
  ⟨false, 0x120100, 0x4, 7, 0x20, 5, 0x0, 0x0, 0x0, 0x0, 0x0, 0x0⟩, -- FC_CNT
  ⟨false, 0x120800, 0x4, 1, 0x1000000, 1, 0x0, 0x0, 0x0, 0x0, 0x0, 0x0⟩, -- FC_AGG_STATUS
  ⟨false, 0x120804, 0x4, 1, 0x1000000, 1, 0x0, 0x0, 0x0, 0x0, 0x0, 0x0⟩, -- FC_AGG_OVF
  ⟨false, 0x120c00, 0x4, 1, 0x1000000, 1, 0x0, 0x0, 0x0, 0xffffffff, 0x0, 0x0⟩, -- FC_INJ_UNLOCK
  ⟨false, 0x120c04, 0x4, 1, 0x1000000, 1, 0x0, 0x1ff77ff, 0x0, 0x0, 0x0, 0x0⟩, -- FC_INJ_CTRL
  ⟨false, 0x120c08, 0x4, 1, 0x1000000, 1, 0x0, 0xffffffff, 0x0, 0x0, 0x0, 0x0⟩, -- FC_INJ_ADDR_LO
  ⟨false, 0x120c0c, 0x4, 1, 0x1000000, 1, 0x0, 0xffff, 0x0, 0x0, 0x0, 0x0⟩ -- FC_INJ_ADDR_HI
  ]

/-- Rows of the FW tables of 14_firmware_and_security.md. -/
def rowsFw : List RegRow := [
  ⟨false, 0x130000, 0x4, 1, 0x1000000, 1, 0x0, 0x0, 0x0, 0x0, 0x0, 0x0⟩, -- FW_STATUS
  ⟨false, 0x130004, 0x4, 1, 0x1000000, 1, 0x0, 0x0, 0x0, 0x0, 0x0, 0x0⟩, -- FW_RESTARTS
  ⟨false, 0x130008, 0x4, 1, 0x1000000, 1, 0x640032, 0xff00ff, 0x1000000, 0x0, 0x0, 0x0⟩, -- FW_WDT_CFG
  ⟨false, 0x13000c, 0x4, 1, 0x1000000, 1, 0x0, 0x0, 0x0, 0x0, 0x0, 0x0⟩, -- FW_IMAGE
  ⟨false, 0x130010, 0x4, 1, 0x1000000, 1, 0x0, 0x0, 0x0, 0x0, 0x0, 0x0⟩, -- FW_SVN
  ⟨false, 0x130014, 0x4, 1, 0x1000000, 1, 0x0, 0x0, 0x0, 0x0, 0x0, 0x0⟩, -- FW_UPDATE
  ⟨false, 0x130020, 0x4, 4, 0x1000000, 1, 0x0, 0x1f, 0x0, 0x0, 0x0, 0x0⟩ -- FW_TRACE
  ]

/-- Rows of the SEC tables of 14_firmware_and_security.md. -/
def rowsSec : List RegRow := [
  ⟨false, 0x140000, 0x4, 1, 0x1000000, 1, 0x0, 0x0, 0x10, 0x0, 0x0, 0x0⟩, -- SEC_STATUS
  ⟨false, 0x140004, 0x4, 1, 0x1000000, 1, 0x0, 0x3, 0x0, 0x0, 0x0, 0x0⟩, -- SEC_DEBUG
  ⟨false, 0x140008, 0x4, 1, 0x1000000, 1, 0x0, 0x0, 0x0, 0x0, 0x0, 0x0⟩, -- SEC_NONCE
  ⟨false, 0x140010, 0x4, 1, 0x1000000, 1, 0x0, 0x3ff, 0x0, 0x0, 0x0, 0x0⟩, -- SEC_BLOCK0
  ⟨false, 0x140014, 0x4, 1, 0x1000000, 1, 0x0, 0xffff, 0x0, 0x0, 0x0, 0x0⟩, -- SEC_BLOCK1
  ⟨false, 0x140100, 0x8, 64, 0x1000000, 1, 0x0, 0xffffffff, 0x0, 0x0, 0x0, 0x0⟩, -- SEC_RGN_A
  ⟨false, 0x140104, 0x8, 64, 0x1000000, 1, 0x70, 0x3f7f, 0x0, 0x0, 0x0, 0x0⟩, -- SEC_RGN_B
  ⟨false, 0x140400, 0x4, 256, 0x1000000, 1, 0x0, 0x0, 0x0, 0xffffffff, 0x0, 0x0⟩ -- SEC_DBG_TOKEN
  ]

/-- Rows of the CR tables of 14_firmware_and_security.md. -/
def rowsCr : List RegRow := [
  ⟨false, 0x150000, 0x4, 1, 0x1000000, 1, 0x0, 0x0, 0x0, 0x0, 0x0, 0x0⟩, -- CR_STATUS
  ⟨false, 0x150004, 0x4, 1, 0x1000000, 1, 0x0, 0x0, 0x0, 0x0, 0x0, 0x0⟩, -- CR_LIFE
  ⟨false, 0x150008, 0x4, 1, 0x1000000, 1, 0x0, 0x0, 0x0, 0x0, 0x0, 0x0⟩, -- CR_MAX_ERASE
  ⟨false, 0x15000c, 0x4, 1, 0x1000000, 1, 0x0, 0x0, 0x0, 0x0, 0x0, 0x0⟩, -- CR_CKPT
  ⟨false, 0x150010, 0x4, 8, 0x1000000, 1, 0x0, 0x0, 0x0, 0x0, 0x0, 0x0⟩, -- CR_CKPT_LEN
  ⟨false, 0x150030, 0x4, 1, 0x1000000, 1, 0x0, 0x0, 0x0, 0x0, 0x0, 0x0⟩, -- CR_AUTH_FAIL
  ⟨false, 0x150034, 0x4, 1, 0x1000000, 1, 0x0, 0x0, 0x0, 0x0, 0x0, 0x0⟩, -- CR_WRITE_FAIL
  ⟨false, 0x150038, 0x4, 1, 0x1000000, 1, 0x0, 0x0, 0x0, 0x0, 0x0, 0x0⟩, -- CR_ERASES_LO
  ⟨false, 0x15003c, 0x4, 1, 0x1000000, 1, 0x0, 0x0, 0x0, 0x0, 0x0, 0x0⟩ -- CR_ERASES_HI
  ]

/-- Rows of the CK tables of 15_clocks_power_reset.md. -/
def rowsCk : List RegRow := [
  ⟨false, 0x160000, 0x4, 1, 0x1000000, 1, 0x400000, 0x0, 0x0, 0x0, 0x0, 0x0⟩, -- CK_STATUS
  ⟨false, 0x160004, 0x4, 1, 0x1000000, 1, 0x0, 0x3f003f, 0x0, 0x3f00, 0x0, 0x0⟩, -- CK_SEL
  ⟨false, 0x160008, 0x4, 1, 0x1000000, 1, 0x0, 0x3f, 0x0, 0x0, 0x0, 0x0⟩, -- CK_PLL_EN
  ⟨false, 0x160010, 0x4, 6, 0x1000000, 1, 0x640064, 0x0, 0x0, 0x0, 0x0, 0x0⟩, -- CK_FREQ
  ⟨false, 0x160030, 0x4, 1, 0x1000000, 1, 0x0, 0x0, 0x7f, 0x0, 0x0, 0x0⟩, -- CK_HANG
  ⟨false, 0x160034, 0x4, 1, 0x1000000, 1, 0x0, 0x0, 0x0, 0x0, 0x0, 0x0⟩ -- CK_UNLOCK_CNT
  ]

/-- Rows of the PM tables of 15_clocks_power_reset.md. -/
def rowsPm : List RegRow := [
  ⟨false, 0x170000, 0x4, 1, 0x1000000, 1, 0x0, 0x0, 0x66, 0x0, 0x0, 0x0⟩, -- PM_STATUS
  ⟨false, 0x170004, 0x4, 1, 0x1000000, 1, 0x0, 0x7ff, 0x0, 0x0, 0x0, 0x0⟩, -- PM_LIMIT
  ⟨false, 0x170008, 0x4, 1, 0x1000000, 1, 0x0, 0x0, 0x0, 0x0, 0x0, 0x0⟩, -- PM_POWER
  ⟨false, 0x17000c, 0x4, 1, 0x1000000, 1, 0x0, 0x0, 0x0, 0x0, 0x0, 0x0⟩, -- PM_TEMP
  ⟨false, 0x170010, 0x4, 1, 0x1000000, 1, 0x564, 0xffff, 0x0, 0x0, 0x0, 0x0⟩, -- PM_THERM
  ⟨false, 0x170014, 0x4, 1, 0x1000000, 1, 0x0, 0x0, 0x0, 0x0, 0x0, 0x0⟩, -- PM_VGUARD
  ⟨false, 0x170018, 0x4, 1, 0x1000000, 1, 0x7, 0x7, 0x0, 0x0, 0x0, 0x0⟩, -- PM_EMERG_FLOOR
  ⟨false, 0x17001c, 0x4, 1, 0x1000000, 1, 0x0, 0x0, 0x0, 0x1f, 0x0, 0x0⟩, -- PM_PAD_RELEASE
  ⟨false, 0x170020, 0x4, 1, 0x1000000, 1, 0x0, 0x0, 0x0, 0xffff001f, 0x0, 0x0⟩, -- PM_RESET_REQ
  ⟨false, 0x170024, 0x4, 1, 0x1000000, 1, 0x0, 0x0, 0x0, 0x0, 0x0, 0x0⟩, -- PM_EMERG_CNT
  ⟨false, 0x170028, 0x4, 1, 0x1000000, 1, 0x0, 0x0, 0x0, 0x0, 0x0, 0x0⟩, -- PM_OPP_CHANGES
  ⟨false, 0x170040, 0x10, 8, 0x1000000, 1, 0x0, 0x0, 0x0, 0x0, 0x0, 0x0⟩, -- PM_OPP_A
  ⟨false, 0x170044, 0x10, 8, 0x1000000, 1, 0x0, 0x0, 0x0, 0x0, 0x0, 0x0⟩, -- PM_OPP_B
  ⟨false, 0x170048, 0x10, 8, 0x1000000, 1, 0x0, 0x0, 0x0, 0x0, 0x0, 0x0⟩ -- PM_OPP_C
  ]

/-- Rows of the XR tables of 16_package_and_pins.md. -/
def rowsXr : List RegRow := [
  ⟨false, 0x180000, 0x4, 1, 0x1000000, 1, 0x5e, 0xff, 0x0, 0x100, 0x0, 0x0⟩, -- XR_CTRL
  ⟨false, 0x180004, 0x4, 1, 0x1000000, 1, 0x0, 0x0, 0x6, 0x0, 0x0, 0x0⟩, -- XR_STATUS
  ⟨false, 0x180008, 0x4, 1, 0x1000000, 1, 0xfa0, 0xfff, 0x0, 0x0, 0x0, 0x0⟩, -- XR_TCSM
  ⟨false, 0x18000c, 0x4, 1, 0x1000000, 1, 0x0, 0x0, 0x0, 0x100, 0x0, 0x0⟩, -- XR_CAL
  ⟨false, 0x180010, 0x4, 1, 0x1000000, 1, 0x0, 0x0, 0x0, 0x0, 0x0, 0x0⟩, -- XR_RD_LO
  ⟨false, 0x180014, 0x4, 1, 0x1000000, 1, 0x0, 0x0, 0x0, 0x0, 0x0, 0x0⟩, -- XR_RD_HI
  ⟨false, 0x180018, 0x4, 1, 0x1000000, 1, 0x0, 0x0, 0x0, 0x0, 0x0, 0x0⟩, -- XR_WR_LO
  ⟨false, 0x18001c, 0x4, 1, 0x1000000, 1, 0x0, 0x0, 0x0, 0x0, 0x0, 0x0⟩, -- XR_WR_HI
  ⟨false, 0x180020, 0x4, 1, 0x1000000, 1, 0x0, 0x0, 0x0, 0x0, 0x0, 0x0⟩, -- XR_RMW
  ⟨false, 0x180024, 0x4, 1, 0x1000000, 1, 0x0, 0x0, 0x0, 0x0, 0x0, 0x0⟩ -- XR_CRC_ERR
  ]

/-- Every register row. -/
def regRows : List RegRow :=
  rowsTb ++ rowsCmp ++ rowsCap ++ rowsTg ++ rowsTo ++ rowsNc ++ rowsNcB ++ rowsEf ++ rowsQm ++ rowsChn ++ rowsPail ++ rowsSn ++ rowsVat ++ rowsSp ++ rowsFr ++ rowsHp ++ rowsBu ++ rowsFc ++ rowsFw ++ rowsSec ++ rowsCr ++ rowsCk ++ rowsPm ++ rowsXr

/-- The row of a register, none where no table lists its offset (R11). -/
def regRow (r : Reg) : Option RegRow := regRows.find? (fun x => x.covers r.core r.off)

/-- The reset value of a register, 0 where no table lists it (R11). -/
def regReset (r : Reg) : Word :=
  match regRow r with
  | some x => BitVec.ofNat 32 x.reset
  | none => 0

/-- TB_NOW_LO of 02_ticks_and_time.md. -/
def TB_NOW_LO (d : Nat) : Reg := dieReg d (0x10000)
/-- TB_NOW_HI of 02_ticks_and_time.md. -/
def TB_NOW_HI (d : Nat) : Reg := dieReg d (0x10004)
/-- TB_CTRL of 02_ticks_and_time.md. -/
def TB_CTRL (d : Nat) : Reg := dieReg d (0x10008)
/-- TB_ALIGN of 02_ticks_and_time.md. -/
def TB_ALIGN (d : Nat) : Reg := dieReg d (0x1000c)
/-- TB_ALIGN_LOSS of 02_ticks_and_time.md. -/
def TB_ALIGN_LOSS (d : Nat) : Reg := dieReg d (0x10010)
/-- CMP_CTRL of 02_ticks_and_time.md. -/
def CMP_CTRL (d c : Nat) : Reg := dieReg d (0x20000 + 0x10 * c)
/-- CMP_PERIOD of 02_ticks_and_time.md. -/
def CMP_PERIOD (d c : Nat) : Reg := dieReg d (0x20004 + 0x10 * c)
/-- CMP_MATCH_LO of 02_ticks_and_time.md. -/
def CMP_MATCH_LO (d c : Nat) : Reg := dieReg d (0x20008 + 0x10 * c)
/-- CMP_MATCH_HI of 02_ticks_and_time.md. -/
def CMP_MATCH_HI (d c : Nat) : Reg := dieReg d (0x2000c + 0x10 * c)
/-- CAP_CTRL of 02_ticks_and_time.md. -/
def CAP_CTRL (d k : Nat) : Reg := dieReg d (0x20400 + 0x10 * k)
/-- CAP_STATUS of 02_ticks_and_time.md. -/
def CAP_STATUS (d k : Nat) : Reg := dieReg d (0x20404 + 0x10 * k)
/-- CAP_VALUE_LO of 02_ticks_and_time.md. -/
def CAP_VALUE_LO (d k : Nat) : Reg := dieReg d (0x20408 + 0x10 * k)
/-- CAP_VALUE_HI of 02_ticks_and_time.md. -/
def CAP_VALUE_HI (d k : Nat) : Reg := dieReg d (0x2040c + 0x10 * k)
/-- TG_CTRL of 02_ticks_and_time.md. -/
def TG_CTRL (d g : Nat) : Reg := dieReg d (0x20800 + 0x100 * g)
/-- TG_PERIOD of 02_ticks_and_time.md. -/
def TG_PERIOD (d g : Nat) : Reg := dieReg d (0x20804 + 0x100 * g)
/-- TG_CLOSE of 02_ticks_and_time.md. -/
def TG_CLOSE (d g : Nat) : Reg := dieReg d (0x20808 + 0x100 * g)
/-- TG_PAIL of 02_ticks_and_time.md. -/
def TG_PAIL (d g : Nat) : Reg := dieReg d (0x2080c + 0x100 * g)
/-- TG_ACTION of 02_ticks_and_time.md. -/
def TG_ACTION (d g : Nat) : Reg := dieReg d (0x20810 + 0x100 * g)
/-- TG_SLAVE of 02_ticks_and_time.md. -/
def TG_SLAVE (d g : Nat) : Reg := dieReg d (0x20814 + 0x100 * g)
/-- TG_REACT of 02_ticks_and_time.md. -/
def TG_REACT (d g : Nat) : Reg := dieReg d (0x20818 + 0x100 * g)
/-- TG_STATUS of 02_ticks_and_time.md. -/
def TG_STATUS (d g : Nat) : Reg := dieReg d (0x2081c + 0x100 * g)
/-- TG_START_AT_LO of 02_ticks_and_time.md. -/
def TG_START_AT_LO (d g : Nat) : Reg := dieReg d (0x20820 + 0x100 * g)
/-- TG_START_AT_HI of 02_ticks_and_time.md. -/
def TG_START_AT_HI (d g : Nat) : Reg := dieReg d (0x20824 + 0x100 * g)
/-- TG_TICK_LO of 02_ticks_and_time.md. -/
def TG_TICK_LO (d g : Nat) : Reg := dieReg d (0x20828 + 0x100 * g)
/-- TG_TICK_HI of 02_ticks_and_time.md. -/
def TG_TICK_HI (d g : Nat) : Reg := dieReg d (0x2082c + 0x100 * g)
/-- TG_CUR_START_LO of 02_ticks_and_time.md. -/
def TG_CUR_START_LO (d g : Nat) : Reg := dieReg d (0x20830 + 0x100 * g)
/-- TG_CUR_START_HI of 02_ticks_and_time.md. -/
def TG_CUR_START_HI (d g : Nat) : Reg := dieReg d (0x20834 + 0x100 * g)
/-- TG_LATE_LO of 02_ticks_and_time.md. -/
def TG_LATE_LO (d g : Nat) : Reg := dieReg d (0x20838 + 0x100 * g)
/-- TG_LATE_HI of 02_ticks_and_time.md. -/
def TG_LATE_HI (d g : Nat) : Reg := dieReg d (0x2083c + 0x100 * g)
/-- TG_STALE_LO of 02_ticks_and_time.md. -/
def TG_STALE_LO (d g : Nat) : Reg := dieReg d (0x20840 + 0x100 * g)
/-- TG_STALE_HI of 02_ticks_and_time.md. -/
def TG_STALE_HI (d g : Nat) : Reg := dieReg d (0x20844 + 0x100 * g)
/-- TG_LATE_SPIKES of 02_ticks_and_time.md. -/
def TG_LATE_SPIKES (d g : Nat) : Reg := dieReg d (0x20848 + 0x100 * g)
/-- TG_OVR_TICKS of 02_ticks_and_time.md. -/
def TG_OVR_TICKS (d g : Nat) : Reg := dieReg d (0x2084c + 0x100 * g)
/-- TG_FRAME_MISS of 02_ticks_and_time.md. -/
def TG_FRAME_MISS (d g : Nat) : Reg := dieReg d (0x20850 + 0x100 * g)
/-- TG_TT_ABANDON of 02_ticks_and_time.md. -/
def TG_TT_ABANDON (d g : Nat) : Reg := dieReg d (0x20854 + 0x100 * g)
/-- TG_EDGE_EARLY of 02_ticks_and_time.md. -/
def TG_EDGE_EARLY (d g : Nat) : Reg := dieReg d (0x20858 + 0x100 * g)
/-- TG_EDGE_MISS of 02_ticks_and_time.md. -/
def TG_EDGE_MISS (d g : Nat) : Reg := dieReg d (0x2085c + 0x100 * g)
/-- TO_CTRL of 02_ticks_and_time.md. -/
def TO_CTRL (d k : Nat) : Reg := dieReg d (0x20c00 + 0x4 * k)
/-- TO_OWNER of 02_ticks_and_time.md. -/
def TO_OWNER (d : Nat) : Reg := dieReg d (0x20c10)
/-- NC_CTRL of 03_neuron_cores.md. -/
def NC_CTRL (p : Nat) : Reg := coreReg p (0x0)
/-- NC_STATUS of 03_neuron_cores.md. -/
def NC_STATUS (p : Nat) : Reg := coreReg p (0x4)
/-- NC_STATE_CFG of 03_neuron_cores.md. -/
def NC_STATE_CFG (p : Nat) : Reg := coreReg p (0x10)
/-- NC_AXON_CFG of 03_neuron_cores.md. -/
def NC_AXON_CFG (p : Nat) : Reg := coreReg p (0x14)
/-- NC_ROW_CFG of 03_neuron_cores.md. -/
def NC_ROW_CFG (p : Nat) : Reg := coreReg p (0x18)
/-- NC_FANOUT_CFG of 03_neuron_cores.md. -/
def NC_FANOUT_CFG (p : Nat) : Reg := coreReg p (0x1c)
/-- NC_DRING_CFG of 03_neuron_cores.md. -/
def NC_DRING_CFG (p : Nat) : Reg := coreReg p (0x20)
/-- NC_GROUP_A of 03_neuron_cores.md. -/
def NC_GROUP_A (p k : Nat) : Reg := coreReg p (0x40 + 0x8 * k)
/-- NC_GROUP_B of 03_neuron_cores.md. -/
def NC_GROUP_B (p k : Nat) : Reg := coreReg p (0x44 + 0x8 * k)
/-- NC_THRESH of 03_neuron_cores.md. -/
def NC_THRESH (p i : Nat) : Reg := coreReg p (0x80 + 0x4 * i)
/-- NC_UCODE_ID of 03_neuron_cores.md. -/
def NC_UCODE_ID (p : Nat) : Reg := coreReg p (0xc0)
/-- NC_UCODE_STATUS of 03_neuron_cores.md. -/
def NC_UCODE_STATUS (p : Nat) : Reg := coreReg p (0xc4)
/-- NC_EVENTS_IN_LO of 03_neuron_cores.md. -/
def NC_EVENTS_IN_LO (p : Nat) : Reg := coreReg p (0x100)
/-- NC_EVENTS_IN_HI of 03_neuron_cores.md. -/
def NC_EVENTS_IN_HI (p : Nat) : Reg := coreReg p (0x104)
/-- NC_SYNOPS_LO of 03_neuron_cores.md. -/
def NC_SYNOPS_LO (p : Nat) : Reg := coreReg p (0x108)
/-- NC_SYNOPS_HI of 03_neuron_cores.md. -/
def NC_SYNOPS_HI (p : Nat) : Reg := coreReg p (0x10c)
/-- NC_FIRES_LO of 03_neuron_cores.md. -/
def NC_FIRES_LO (p : Nat) : Reg := coreReg p (0x110)
/-- NC_FIRES_HI of 03_neuron_cores.md. -/
def NC_FIRES_HI (p : Nat) : Reg := coreReg p (0x114)
/-- NC_LATE of 03_neuron_cores.md. -/
def NC_LATE (p : Nat) : Reg := coreReg p (0x118)
/-- NC_STALE of 03_neuron_cores.md. -/
def NC_STALE (p : Nat) : Reg := coreReg p (0x11c)
/-- NC_OVERDRIVE of 03_neuron_cores.md. -/
def NC_OVERDRIVE (p : Nat) : Reg := coreReg p (0x120)
/-- NC_FANIN_CAP of 03_neuron_cores.md. -/
def NC_FANIN_CAP (p : Nat) : Reg := coreReg p (0x124)
/-- NC_BAD_AXON of 03_neuron_cores.md. -/
def NC_BAD_AXON (p : Nat) : Reg := coreReg p (0x128)
/-- NC_STRUCT_ERR of 03_neuron_cores.md. -/
def NC_STRUCT_ERR (p : Nat) : Reg := coreReg p (0x12c)
/-- NC_DRING_DROP of 03_neuron_cores.md. -/
def NC_DRING_DROP (p : Nat) : Reg := coreReg p (0x130)
/-- NC_OVERRUN of 03_neuron_cores.md. -/
def NC_OVERRUN (p : Nat) : Reg := coreReg p (0x134)
/-- NC_IDLE_TICKS of 03_neuron_cores.md. -/
def NC_IDLE_TICKS (p : Nat) : Reg := coreReg p (0x138)
/-- NC_FIRE_CYCLES of 03_neuron_cores.md. -/
def NC_FIRE_CYCLES (p : Nat) : Reg := coreReg p (0x13c)
/-- NC_MEM_CE of 03_neuron_cores.md. -/
def NC_MEM_CE (p : Nat) : Reg := coreReg p (0x140)
/-- NC_DIE_UCODE of 03_neuron_cores.md. -/
def NC_DIE_UCODE (d : Nat) : Reg := dieReg d (0x30000)
/-- NC_DIE_UCODE_FAIL of 03_neuron_cores.md. -/
def NC_DIE_UCODE_FAIL (d : Nat) : Reg := dieReg d (0x30004)
/-- NC_DIE_CORES of 03_neuron_cores.md. -/
def NC_DIE_CORES (d : Nat) : Reg := dieReg d (0x30008)
/-- NC_PL_CTRL of 04_plasticity.md. -/
def NC_PL_CTRL (p : Nat) : Reg := coreReg p (0x200)
/-- NC_PL_STATUS of 04_plasticity.md. -/
def NC_PL_STATUS (p : Nat) : Reg := coreReg p (0x204)
/-- NC_PL_REGION of 04_plasticity.md. -/
def NC_PL_REGION (p : Nat) : Reg := coreReg p (0x208)
/-- NC_PL_LIST of 04_plasticity.md. -/
def NC_PL_LIST (p : Nat) : Reg := coreReg p (0x20c)
/-- NC_PL_RULE of 04_plasticity.md. -/
def NC_PL_RULE (p : Nat) : Reg := coreReg p (0x210)
/-- NC_PL_INC of 04_plasticity.md. -/
def NC_PL_INC (p : Nat) : Reg := coreReg p (0x214)
/-- NC_PL_EPOCH of 04_plasticity.md. -/
def NC_PL_EPOCH (p : Nat) : Reg := coreReg p (0x218)
/-- NC_PL_ETA of 04_plasticity.md. -/
def NC_PL_ETA (p : Nat) : Reg := coreReg p (0x21c)
/-- NC_PL_EPOCHS of 04_plasticity.md. -/
def NC_PL_EPOCHS (p : Nat) : Reg := coreReg p (0x220)
/-- NC_PL_POTS of 04_plasticity.md. -/
def NC_PL_POTS (p : Nat) : Reg := coreReg p (0x224)
/-- NC_PL_DEPS of 04_plasticity.md. -/
def NC_PL_DEPS (p : Nat) : Reg := coreReg p (0x228)
/-- NC_PL_DSAT of 04_plasticity.md. -/
def NC_PL_DSAT (p : Nat) : Reg := coreReg p (0x22c)
/-- NC_PL_CLAMPS of 04_plasticity.md. -/
def NC_PL_CLAMPS (p : Nat) : Reg := coreReg p (0x230)
/-- NC_PL_UNREC of 04_plasticity.md. -/
def NC_PL_UNREC (p : Nat) : Reg := coreReg p (0x234)
/-- NC_PL_BAD_TOKEN of 04_plasticity.md. -/
def NC_PL_BAD_TOKEN (p : Nat) : Reg := coreReg p (0x238)
/-- NC_PL_APPLY_CYCLES of 04_plasticity.md. -/
def NC_PL_APPLY_CYCLES (p : Nat) : Reg := coreReg p (0x23c)
/-- EF_CTRL of 05_event_fabric.md. -/
def EF_CTRL (d : Nat) : Reg := dieReg d (0x40000)
/-- EF_STATUS of 05_event_fabric.md. -/
def EF_STATUS (d : Nat) : Reg := dieReg d (0x40004)
/-- EF_EPOCH of 05_event_fabric.md. -/
def EF_EPOCH (d : Nat) : Reg := dieReg d (0x40008)
/-- EF_INFLIGHT of 05_event_fabric.md. -/
def EF_INFLIGHT (d g : Nat) : Reg := dieReg d (0x40010 + 0x4 * g)
/-- EF_EMIT_LIMIT of 05_event_fabric.md. -/
def EF_EMIT_LIMIT (d : Nat) : Reg := dieReg d (0x40020)
/-- EF_DRAIN_LIMIT of 05_event_fabric.md. -/
def EF_DRAIN_LIMIT (d : Nat) : Reg := dieReg d (0x40024)
/-- EF_DROUTE of 05_event_fabric.md. -/
def EF_DROUTE (d e : Nat) : Reg := dieReg d (0x40040 + 0x4 * e)
/-- EF_CPL_STATUS of 05_event_fabric.md. -/
def EF_CPL_STATUS (d k : Nat) : Reg := dieReg d (0x40060 + 0x4 * k)
/-- EF_RT_SEL of 05_event_fabric.md. -/
def EF_RT_SEL (d : Nat) : Reg := dieReg d (0x40080)
/-- EF_RT_DATA_LO of 05_event_fabric.md. -/
def EF_RT_DATA_LO (d : Nat) : Reg := dieReg d (0x40084)
/-- EF_RT_DATA_HI of 05_event_fabric.md. -/
def EF_RT_DATA_HI (d : Nat) : Reg := dieReg d (0x40088)
/-- EF_LINK_SEL of 05_event_fabric.md. -/
def EF_LINK_SEL (d : Nat) : Reg := dieReg d (0x40090)
/-- EF_INJ_PKTS_LO of 05_event_fabric.md. -/
def EF_INJ_PKTS_LO (d : Nat) : Reg := dieReg d (0x40100)
/-- EF_INJ_PKTS_HI of 05_event_fabric.md. -/
def EF_INJ_PKTS_HI (d : Nat) : Reg := dieReg d (0x40104)
/-- EF_EJ_PKTS_LO of 05_event_fabric.md. -/
def EF_EJ_PKTS_LO (d : Nat) : Reg := dieReg d (0x40108)
/-- EF_EJ_PKTS_HI of 05_event_fabric.md. -/
def EF_EJ_PKTS_HI (d : Nat) : Reg := dieReg d (0x4010c)
/-- EF_NOROUTE of 05_event_fabric.md. -/
def EF_NOROUTE (d : Nat) : Reg := dieReg d (0x40110)
/-- EF_XCOACH_DROP of 05_event_fabric.md. -/
def EF_XCOACH_DROP (d : Nat) : Reg := dieReg d (0x40114)
/-- EF_FENCED_DROP of 05_event_fabric.md. -/
def EF_FENCED_DROP (d : Nat) : Reg := dieReg d (0x40118)
/-- EF_RESET_DROP of 05_event_fabric.md. -/
def EF_RESET_DROP (d : Nat) : Reg := dieReg d (0x4011c)
/-- EF_MISROUTE of 05_event_fabric.md. -/
def EF_MISROUTE (d : Nat) : Reg := dieReg d (0x40120)
/-- EF_BAD_VER of 05_event_fabric.md. -/
def EF_BAD_VER (d : Nat) : Reg := dieReg d (0x40124)
/-- EF_EMIT_DROP of 05_event_fabric.md. -/
def EF_EMIT_DROP (d : Nat) : Reg := dieReg d (0x40128)
/-- EF_CPL_DOWN_DROP of 05_event_fabric.md. -/
def EF_CPL_DOWN_DROP (d : Nat) : Reg := dieReg d (0x4012c)
/-- EF_FLIT_CE of 05_event_fabric.md. -/
def EF_FLIT_CE (d : Nat) : Reg := dieReg d (0x40130)
/-- EF_FLIT_UE of 05_event_fabric.md. -/
def EF_FLIT_UE (d : Nat) : Reg := dieReg d (0x40134)
/-- EF_CPL_REPLAY of 05_event_fabric.md. -/
def EF_CPL_REPLAY (d : Nat) : Reg := dieReg d (0x40138)
/-- EF_LINK_BUSY_LO of 05_event_fabric.md. -/
def EF_LINK_BUSY_LO (d : Nat) : Reg := dieReg d (0x40140)
/-- EF_LINK_BUSY_HI of 05_event_fabric.md. -/
def EF_LINK_BUSY_HI (d : Nat) : Reg := dieReg d (0x40144)
/-- EF_LINK_WAIT_LO of 05_event_fabric.md. -/
def EF_LINK_WAIT_LO (d : Nat) : Reg := dieReg d (0x40148)
/-- EF_LINK_WAIT_HI of 05_event_fabric.md. -/
def EF_LINK_WAIT_HI (d : Nat) : Reg := dieReg d (0x4014c)
/-- QM_CTRL of 06_queues.md. -/
def QM_CTRL (p : Nat) : Reg := coreReg p (0x400)
/-- QM_STATUS of 06_queues.md. -/
def QM_STATUS (p : Nat) : Reg := coreReg p (0x404)
/-- QM_STALL_LIMIT of 06_queues.md. -/
def QM_STALL_LIMIT (p : Nat) : Reg := coreReg p (0x408)
/-- QM_REPLY_LIMIT of 06_queues.md. -/
def QM_REPLY_LIMIT (p : Nat) : Reg := coreReg p (0x40c)
/-- QM_RX_MSGS_LO of 06_queues.md. -/
def QM_RX_MSGS_LO (p : Nat) : Reg := coreReg p (0x420)
/-- QM_RX_MSGS_HI of 06_queues.md. -/
def QM_RX_MSGS_HI (p : Nat) : Reg := coreReg p (0x424)
/-- QM_TX_MSGS_LO of 06_queues.md. -/
def QM_TX_MSGS_LO (p : Nat) : Reg := coreReg p (0x428)
/-- QM_TX_MSGS_HI of 06_queues.md. -/
def QM_TX_MSGS_HI (p : Nat) : Reg := coreReg p (0x42c)
/-- QM_CLOSED_DROP of 06_queues.md. -/
def QM_CLOSED_DROP (p : Nat) : Reg := coreReg p (0x430)
/-- QM_FULL_REPLY of 06_queues.md. -/
def QM_FULL_REPLY (p : Nat) : Reg := coreReg p (0x434)
/-- QM_STALLED_OUT of 06_queues.md. -/
def QM_STALLED_OUT (p : Nat) : Reg := coreReg p (0x438)
/-- QM_TIMEOUT of 06_queues.md. -/
def QM_TIMEOUT (p : Nat) : Reg := coreReg p (0x43c)
/-- QM_BAD_MSG of 06_queues.md. -/
def QM_BAD_MSG (p : Nat) : Reg := coreReg p (0x440)
/-- QM_MC_DROP of 06_queues.md. -/
def QM_MC_DROP (p : Nat) : Reg := coreReg p (0x444)
/-- QM_COMB_SAT of 06_queues.md. -/
def QM_COMB_SAT (p : Nat) : Reg := coreReg p (0x448)
/-- QM_COMB_PARTIAL of 06_queues.md. -/
def QM_COMB_PARTIAL (p : Nat) : Reg := coreReg p (0x44c)
/-- QM_RELAY_DROP of 06_queues.md. -/
def QM_RELAY_DROP (p : Nat) : Reg := coreReg p (0x450)
/-- QM_SKIP of 06_queues.md. -/
def QM_SKIP (p : Nat) : Reg := coreReg p (0x454)
/-- QM_STALE_REPLY of 06_queues.md. -/
def QM_STALE_REPLY (p : Nat) : Reg := coreReg p (0x458)
/-- QM_DBG_LO of 06_queues.md. -/
def QM_DBG_LO (p k : Nat) : Reg := coreReg p (0x480 + 0x8 * k)
/-- QM_DBG_HI of 06_queues.md. -/
def QM_DBG_HI (p k : Nat) : Reg := coreReg p (0x484 + 0x8 * k)
/-- QM_Q_CTRL of 06_queues.md. -/
def QM_Q_CTRL (p q : Nat) : Reg := coreReg p (0x500 + 0x10 * q)
/-- QM_Q_REGION of 06_queues.md. -/
def QM_Q_REGION (p q : Nat) : Reg := coreReg p (0x504 + 0x10 * q)
/-- QM_Q_COMB of 06_queues.md. -/
def QM_Q_COMB (p q : Nat) : Reg := coreReg p (0x508 + 0x10 * q)
/-- QM_C_CTRL of 06_queues.md. -/
def QM_C_CTRL (p k : Nat) : Reg := coreReg p (0x600 + 0x20 * k)
/-- QM_C_DEST of 06_queues.md. -/
def QM_C_DEST (p k : Nat) : Reg := coreReg p (0x604 + 0x20 * k)
/-- QM_C_SRC of 06_queues.md. -/
def QM_C_SRC (p k : Nat) : Reg := coreReg p (0x608 + 0x20 * k)
/-- QM_C_TAG of 06_queues.md. -/
def QM_C_TAG (p k : Nat) : Reg := coreReg p (0x60c + 0x20 * k)
/-- QM_C_STATUS of 06_queues.md. -/
def QM_C_STATUS (p k : Nat) : Reg := coreReg p (0x610 + 0x20 * k)
/-- QM_C_SENDNO of 06_queues.md. -/
def QM_C_SENDNO (p k : Nat) : Reg := coreReg p (0x614 + 0x20 * k)
/-- QM_INJ_CTRL of 06_queues.md. -/
def QM_INJ_CTRL (p : Nat) : Reg := coreReg p (0x800)
/-- QM_INJ_STATUS of 06_queues.md. -/
def QM_INJ_STATUS (p : Nat) : Reg := coreReg p (0x804)
/-- QM_INJ_OFFSET of 06_queues.md. -/
def QM_INJ_OFFSET (p : Nat) : Reg := coreReg p (0x808)
/-- QM_INJ_DATA of 06_queues.md. -/
def QM_INJ_DATA (p i : Nat) : Reg := coreReg p (0xa00 + 0x4 * i)
/-- QM_DIE_OPEN of 06_queues.md. -/
def QM_DIE_OPEN (d : Nat) : Reg := dieReg d (0x50000)
/-- QM_DIE_CLOSED_DROP of 06_queues.md. -/
def QM_DIE_CLOSED_DROP (d : Nat) : Reg := dieReg d (0x50004)
/-- QM_DIE_STALLED_OUT of 06_queues.md. -/
def QM_DIE_STALLED_OUT (d : Nat) : Reg := dieReg d (0x50008)
/-- QM_DIE_TIMEOUT of 06_queues.md. -/
def QM_DIE_TIMEOUT (d : Nat) : Reg := dieReg d (0x5000c)
/-- CHN_CTRL of 07_churns.md. -/
def CHN_CTRL (d c : Nat) : Reg := dieReg d (0x60000 + 0x10000 * c)
/-- CHN_STATUS of 07_churns.md. -/
def CHN_STATUS (d c : Nat) : Reg := dieReg d (0x60004 + 0x10000 * c)
/-- CHN_REPAIR of 07_churns.md. -/
def CHN_REPAIR (d c : Nat) : Reg := dieReg d (0x60008 + 0x10000 * c)
/-- CHN_MSE_WIN of 07_churns.md. -/
def CHN_MSE_WIN (d c : Nat) : Reg := dieReg d (0x6000c + 0x10000 * c)
/-- PAIL_CTRL of 07_churns.md. -/
def PAIL_CTRL (d c : Nat) : Reg := dieReg d (0x60040 + 0x10000 * c)
/-- PAIL_STATUS of 07_churns.md. -/
def PAIL_STATUS (d c : Nat) : Reg := dieReg d (0x60044 + 0x10000 * c)
/-- CHN_PASSES_LO of 07_churns.md. -/
def CHN_PASSES_LO (d c : Nat) : Reg := dieReg d (0x60080 + 0x10000 * c)
/-- CHN_PASSES_HI of 07_churns.md. -/
def CHN_PASSES_HI (d c : Nat) : Reg := dieReg d (0x60084 + 0x10000 * c)
/-- CHN_VECTORS_LO of 07_churns.md. -/
def CHN_VECTORS_LO (d c : Nat) : Reg := dieReg d (0x60088 + 0x10000 * c)
/-- CHN_VECTORS_HI of 07_churns.md. -/
def CHN_VECTORS_HI (d c : Nat) : Reg := dieReg d (0x6008c + 0x10000 * c)
/-- CHN_EVENTS_LO of 07_churns.md. -/
def CHN_EVENTS_LO (d c : Nat) : Reg := dieReg d (0x60090 + 0x10000 * c)
/-- CHN_EVENTS_HI of 07_churns.md. -/
def CHN_EVENTS_HI (d c : Nat) : Reg := dieReg d (0x60094 + 0x10000 * c)
/-- CHN_ZERO_MASKS_LO of 07_churns.md. -/
def CHN_ZERO_MASKS_LO (d c : Nat) : Reg := dieReg d (0x60098 + 0x10000 * c)
/-- CHN_ZERO_MASKS_HI of 07_churns.md. -/
def CHN_ZERO_MASKS_HI (d c : Nat) : Reg := dieReg d (0x6009c + 0x10000 * c)
/-- CHN_ACC_SAT of 07_churns.md. -/
def CHN_ACC_SAT (d c : Nat) : Reg := dieReg d (0x600a0 + 0x10000 * c)
/-- CHN_OUT_SAT of 07_churns.md. -/
def CHN_OUT_SAT (d c : Nat) : Reg := dieReg d (0x600a4 + 0x10000 * c)
/-- CHN_PASS_ABANDON of 07_churns.md. -/
def CHN_PASS_ABANDON (d c : Nat) : Reg := dieReg d (0x600a8 + 0x10000 * c)
/-- CHN_EV_AXON_DROP of 07_churns.md. -/
def CHN_EV_AXON_DROP (d c : Nat) : Reg := dieReg d (0x600ac + 0x10000 * c)
/-- CHN_EMIT_WAIT of 07_churns.md. -/
def CHN_EMIT_WAIT (d c : Nat) : Reg := dieReg d (0x600b0 + 0x10000 * c)
/-- CHN_RESIDUE_ERR of 07_churns.md. -/
def CHN_RESIDUE_ERR (d c : Nat) : Reg := dieReg d (0x600b4 + 0x10000 * c)
/-- CHN_MEM_CE of 07_churns.md. -/
def CHN_MEM_CE (d c : Nat) : Reg := dieReg d (0x600b8 + 0x10000 * c)
/-- PAIL_SPIKES_LO of 07_churns.md. -/
def PAIL_SPIKES_LO (d c : Nat) : Reg := dieReg d (0x600c0 + 0x10000 * c)
/-- PAIL_SPIKES_HI of 07_churns.md. -/
def PAIL_SPIKES_HI (d c : Nat) : Reg := dieReg d (0x600c4 + 0x10000 * c)
/-- PAIL_LATE of 07_churns.md. -/
def PAIL_LATE (d c : Nat) : Reg := dieReg d (0x600c8 + 0x10000 * c)
/-- PAIL_STALE of 07_churns.md. -/
def PAIL_STALE (d c : Nat) : Reg := dieReg d (0x600cc + 0x10000 * c)
/-- PAIL_XCOACH of 07_churns.md. -/
def PAIL_XCOACH (d c : Nat) : Reg := dieReg d (0x600d0 + 0x10000 * c)
/-- CHN_SEED of 07_churns.md. -/
def CHN_SEED (d c q : Nat) : Reg := dieReg d (0x60100 + 0x10000 * c + 0x4 * q)
/-- CHN_MSE_SUM_LO of 07_churns.md. -/
def CHN_MSE_SUM_LO (d c q : Nat) : Reg := dieReg d (0x60200 + 0x10000 * c + 0x10 * q)
/-- CHN_MSE_SUM_HI of 07_churns.md. -/
def CHN_MSE_SUM_HI (d c q : Nat) : Reg := dieReg d (0x60204 + 0x10000 * c + 0x10 * q)
/-- CHN_MSE_CNT of 07_churns.md. -/
def CHN_MSE_CNT (d c q : Nat) : Reg := dieReg d (0x60208 + 0x10000 * c + 0x10 * q)
/-- CHN_EMIT of 07_churns.md. -/
def CHN_EMIT (d c i : Nat) : Reg := dieReg d (0x62000 + 0x10000 * c + 0x4 * i)
/-- CHN_GATHER of 07_churns.md. -/
def CHN_GATHER (d c i : Nat) : Reg := dieReg d (0x64000 + 0x10000 * c + 0x4 * i)
/-- CHN_REQUANT of 07_churns.md. -/
def CHN_REQUANT (d c i : Nat) : Reg := dieReg d (0x68000 + 0x10000 * c + 0x4 * i)
/-- SN_CTRL of 08_vats_and_timetable.md. -/
def SN_CTRL (d : Nat) : Reg := dieReg d (0xa0000)
/-- SN_STATUS of 08_vats_and_timetable.md. -/
def SN_STATUS (d : Nat) : Reg := dieReg d (0xa0004)
/-- SN_OWN_VR of 08_vats_and_timetable.md. -/
def SN_OWN_VR (d : Nat) : Reg := dieReg d (0xa0010)
/-- SN_OWN_VWJ of 08_vats_and_timetable.md. -/
def SN_OWN_VWJ (d : Nat) : Reg := dieReg d (0xa0014)
/-- SN_OWN_SP of 08_vats_and_timetable.md. -/
def SN_OWN_SP (d : Nat) : Reg := dieReg d (0xa0018)
/-- SN_OWN_CPL of 08_vats_and_timetable.md. -/
def SN_OWN_CPL (d k : Nat) : Reg := dieReg d (0xa0020 + 0x4 * k)
/-- SN_FRAME of 08_vats_and_timetable.md. -/
def SN_FRAME (d g : Nat) : Reg := dieReg d (0xa0030 + 0x4 * g)
/-- SN_WORDS_LO of 08_vats_and_timetable.md. -/
def SN_WORDS_LO (d : Nat) : Reg := dieReg d (0xa0040)
/-- SN_WORDS_HI of 08_vats_and_timetable.md. -/
def SN_WORDS_HI (d : Nat) : Reg := dieReg d (0xa0044)
/-- SN_EMPTY of 08_vats_and_timetable.md. -/
def SN_EMPTY (d : Nat) : Reg := dieReg d (0xa0048)
/-- SN_XCOACH of 08_vats_and_timetable.md. -/
def SN_XCOACH (d : Nat) : Reg := dieReg d (0xa004c)
/-- SN_JOIN_SAT of 08_vats_and_timetable.md. -/
def SN_JOIN_SAT (d : Nat) : Reg := dieReg d (0xa0050)
/-- SN_JOIN_MISMATCH of 08_vats_and_timetable.md. -/
def SN_JOIN_MISMATCH (d : Nat) : Reg := dieReg d (0xa0054)
/-- SN_GUARD_MISS of 08_vats_and_timetable.md. -/
def SN_GUARD_MISS (d : Nat) : Reg := dieReg d (0xa0058)
/-- SN_CPL_EMPTY of 08_vats_and_timetable.md. -/
def SN_CPL_EMPTY (d : Nat) : Reg := dieReg d (0xa005c)
/-- SN_CPL_OVF of 08_vats_and_timetable.md. -/
def SN_CPL_OVF (d : Nat) : Reg := dieReg d (0xa0060)
/-- SN_ABANDON of 08_vats_and_timetable.md. -/
def SN_ABANDON (d : Nat) : Reg := dieReg d (0xa0064)
/-- SN_LANE_CE of 08_vats_and_timetable.md. -/
def SN_LANE_CE (d : Nat) : Reg := dieReg d (0xa0068)
/-- SN_LANE_UE of 08_vats_and_timetable.md. -/
def SN_LANE_UE (d : Nat) : Reg := dieReg d (0xa006c)
/-- SN_FLAGS of 08_vats_and_timetable.md. -/
def SN_FLAGS (d i : Nat) : Reg := dieReg d (0xa0400 + 0x4 * i)
/-- SN_BAR of 08_vats_and_timetable.md. -/
def SN_BAR (d b : Nat) : Reg := dieReg d (0xa0800 + 0x4 * b)
/-- VAT_CTRL of 08_vats_and_timetable.md. -/
def VAT_CTRL (d : Nat) : Reg := dieReg d (0xb0000)
/-- VAT_STATUS of 08_vats_and_timetable.md. -/
def VAT_STATUS (d : Nat) : Reg := dieReg d (0xb0004)
/-- VAT_SET of 08_vats_and_timetable.md. -/
def VAT_SET (d k : Nat) : Reg := dieReg d (0xb0010 + 0x4 * k)
/-- VAT_SPARE of 08_vats_and_timetable.md. -/
def VAT_SPARE (d : Nat) : Reg := dieReg d (0xb0050)
/-- VAT_BANK_SEL of 08_vats_and_timetable.md. -/
def VAT_BANK_SEL (d : Nat) : Reg := dieReg d (0xb0060)
/-- VAT_BANK_SCHED_LO of 08_vats_and_timetable.md. -/
def VAT_BANK_SCHED_LO (d : Nat) : Reg := dieReg d (0xb0068)
/-- VAT_BANK_SCHED_HI of 08_vats_and_timetable.md. -/
def VAT_BANK_SCHED_HI (d : Nat) : Reg := dieReg d (0xb006c)
/-- VAT_BANK_UNSCHED_LO of 08_vats_and_timetable.md. -/
def VAT_BANK_UNSCHED_LO (d : Nat) : Reg := dieReg d (0xb0070)
/-- VAT_BANK_UNSCHED_HI of 08_vats_and_timetable.md. -/
def VAT_BANK_UNSCHED_HI (d : Nat) : Reg := dieReg d (0xb0074)
/-- VAT_BANK_WAIT_LO of 08_vats_and_timetable.md. -/
def VAT_BANK_WAIT_LO (d : Nat) : Reg := dieReg d (0xb0078)
/-- VAT_BANK_WAIT_HI of 08_vats_and_timetable.md. -/
def VAT_BANK_WAIT_HI (d : Nat) : Reg := dieReg d (0xb007c)
/-- VAT_CE of 08_vats_and_timetable.md. -/
def VAT_CE (d : Nat) : Reg := dieReg d (0xb0080)
/-- VAT_UE of 08_vats_and_timetable.md. -/
def VAT_UE (d : Nat) : Reg := dieReg d (0xb0084)
/-- VAT_WW_COLLIDE of 08_vats_and_timetable.md. -/
def VAT_WW_COLLIDE (d : Nat) : Reg := dieReg d (0xb0088)
/-- VAT_ROWS_USED of 08_vats_and_timetable.md. -/
def VAT_ROWS_USED (d : Nat) : Reg := dieReg d (0xb008c)
/-- SP_CTRL of 09_separators.md. -/
def SP_CTRL (d s : Nat) : Reg := dieReg d (0xc0000 + 0x4000 * s)
/-- SP_SHAPE of 09_separators.md. -/
def SP_SHAPE (d s : Nat) : Reg := dieReg d (0xc0004 + 0x4000 * s)
/-- SP_STATUS of 09_separators.md. -/
def SP_STATUS (d s : Nat) : Reg := dieReg d (0xc0008 + 0x4000 * s)
/-- SP_SEED of 09_separators.md. -/
def SP_SEED (d s : Nat) : Reg := dieReg d (0xc000c + 0x4000 * s)
/-- SP_ELEMS_LO of 09_separators.md. -/
def SP_ELEMS_LO (d s : Nat) : Reg := dieReg d (0xc0010 + 0x4000 * s)
/-- SP_ELEMS_HI of 09_separators.md. -/
def SP_ELEMS_HI (d s : Nat) : Reg := dieReg d (0xc0014 + 0x4000 * s)
/-- SP_EVENTS_LO of 09_separators.md. -/
def SP_EVENTS_LO (d s : Nat) : Reg := dieReg d (0xc0018 + 0x4000 * s)
/-- SP_EVENTS_HI of 09_separators.md. -/
def SP_EVENTS_HI (d s : Nat) : Reg := dieReg d (0xc001c + 0x4000 * s)
/-- SP_MISSING of 09_separators.md. -/
def SP_MISSING (d s : Nat) : Reg := dieReg d (0xc0020 + 0x4000 * s)
/-- SP_DUP of 09_separators.md. -/
def SP_DUP (d s : Nat) : Reg := dieReg d (0xc0024 + 0x4000 * s)
/-- SP_BAD_WORD of 09_separators.md. -/
def SP_BAD_WORD (d s : Nat) : Reg := dieReg d (0xc0028 + 0x4000 * s)
/-- SP_IN_SAT of 09_separators.md. -/
def SP_IN_SAT (d s : Nat) : Reg := dieReg d (0xc002c + 0x4000 * s)
/-- SP_OUT_SAT of 09_separators.md. -/
def SP_OUT_SAT (d s : Nat) : Reg := dieReg d (0xc0030 + 0x4000 * s)
/-- SP_ELEM_SAFE of 09_separators.md. -/
def SP_ELEM_SAFE (d s : Nat) : Reg := dieReg d (0xc0034 + 0x4000 * s)
/-- SP_REC_LATE of 09_separators.md. -/
def SP_REC_LATE (d s : Nat) : Reg := dieReg d (0xc0038 + 0x4000 * s)
/-- SP_REC_STALE of 09_separators.md. -/
def SP_REC_STALE (d s : Nat) : Reg := dieReg d (0xc003c + 0x4000 * s)
/-- SP_XCOACH of 09_separators.md. -/
def SP_XCOACH (d s : Nat) : Reg := dieReg d (0xc0040 + 0x4000 * s)
/-- SP_EMIT_WAIT of 09_separators.md. -/
def SP_EMIT_WAIT (d s : Nat) : Reg := dieReg d (0xc0044 + 0x4000 * s)
/-- SP_MEM_CE of 09_separators.md. -/
def SP_MEM_CE (d s : Nat) : Reg := dieReg d (0xc0048 + 0x4000 * s)
/-- SP_CHAN of 09_separators.md. -/
def SP_CHAN (d s i : Nat) : Reg := dieReg d (0xc0800 + 0x4000 * s + 0x4 * i)
/-- SP_EMIT of 09_separators.md. -/
def SP_EMIT (d s i : Nat) : Reg := dieReg d (0xc1000 + 0x4000 * s + 0x4 * i)
/-- SP_GATHER of 09_separators.md. -/
def SP_GATHER (d s i : Nat) : Reg := dieReg d (0xc2000 + 0x4000 * s + 0x4 * i)
/-- FR_CTRL of 09_separators.md. -/
def FR_CTRL (d u : Nat) : Reg := dieReg d (0x100000 + 0x100 * u)
/-- FR_STATUS of 09_separators.md. -/
def FR_STATUS (d u : Nat) : Reg := dieReg d (0x100004 + 0x100 * u)
/-- FR_OBS_BASE of 09_separators.md. -/
def FR_OBS_BASE (d u : Nat) : Reg := dieReg d (0x100008 + 0x100 * u)
/-- FR_OBS_SIZE of 09_separators.md. -/
def FR_OBS_SIZE (d u : Nat) : Reg := dieReg d (0x10000c + 0x100 * u)
/-- FR_ACT_BASE of 09_separators.md. -/
def FR_ACT_BASE (d u : Nat) : Reg := dieReg d (0x100010 + 0x100 * u)
/-- FR_ACT_SIZE of 09_separators.md. -/
def FR_ACT_SIZE (d u : Nat) : Reg := dieReg d (0x100014 + 0x100 * u)
/-- FR_SAFE_BASE of 09_separators.md. -/
def FR_SAFE_BASE (d u : Nat) : Reg := dieReg d (0x100018 + 0x100 * u)
/-- FR_PUB of 09_separators.md. -/
def FR_PUB (d u : Nat) : Reg := dieReg d (0x100020 + 0x100 * u)
/-- FR_SUB_SAFE of 09_separators.md. -/
def FR_SUB_SAFE (d u : Nat) : Reg := dieReg d (0x100024 + 0x100 * u)
/-- FR_SUB_STALE of 09_separators.md. -/
def FR_SUB_STALE (d u : Nat) : Reg := dieReg d (0x100028 + 0x100 * u)
/-- FR_OBS_LATE of 09_separators.md. -/
def FR_OBS_LATE (d u : Nat) : Reg := dieReg d (0x10002c + 0x100 * u)
/-- FR_DROP_WR of 09_separators.md. -/
def FR_DROP_WR (d u : Nat) : Reg := dieReg d (0x100030 + 0x100 * u)
/-- HP_ID of 10_host_ports.md. -/
def HP_ID (d u : Nat) : Reg := dieReg d (0x110000 + 0x1000 * u)
/-- HP_CTRL of 10_host_ports.md. -/
def HP_CTRL (d u : Nat) : Reg := dieReg d (0x110004 + 0x1000 * u)
/-- HP_STATUS of 10_host_ports.md. -/
def HP_STATUS (d u : Nat) : Reg := dieReg d (0x110008 + 0x1000 * u)
/-- HP_ALERT_EN of 10_host_ports.md. -/
def HP_ALERT_EN (d u : Nat) : Reg := dieReg d (0x11000c + 0x1000 * u)
/-- HP_ALERT_STAT of 10_host_ports.md. -/
def HP_ALERT_STAT (d u : Nat) : Reg := dieReg d (0x110010 + 0x1000 * u)
/-- HP_LOSS_TIMEOUT of 10_host_ports.md. -/
def HP_LOSS_TIMEOUT (d u : Nat) : Reg := dieReg d (0x110014 + 0x1000 * u)
/-- HP_HEARTBEAT of 10_host_ports.md. -/
def HP_HEARTBEAT (d u : Nat) : Reg := dieReg d (0x110018 + 0x1000 * u)
/-- HP_FETCH_ADDR of 10_host_ports.md. -/
def HP_FETCH_ADDR (d u : Nat) : Reg := dieReg d (0x110020 + 0x1000 * u)
/-- HP_FETCH_DONE of 10_host_ports.md. -/
def HP_FETCH_DONE (d u : Nat) : Reg := dieReg d (0x110024 + 0x1000 * u)
/-- HP_FETCH_DATA of 10_host_ports.md. -/
def HP_FETCH_DATA (d u : Nat) : Reg := dieReg d (0x110028 + 0x1000 * u)
/-- HP_WRITE_SEQ of 10_host_ports.md. -/
def HP_WRITE_SEQ (d u : Nat) : Reg := dieReg d (0x11002c + 0x1000 * u)
/-- HP_RD_BURSTS_LO of 10_host_ports.md. -/
def HP_RD_BURSTS_LO (d u : Nat) : Reg := dieReg d (0x110100 + 0x1000 * u)
/-- HP_RD_BURSTS_HI of 10_host_ports.md. -/
def HP_RD_BURSTS_HI (d u : Nat) : Reg := dieReg d (0x110104 + 0x1000 * u)
/-- HP_WR_BURSTS_LO of 10_host_ports.md. -/
def HP_WR_BURSTS_LO (d u : Nat) : Reg := dieReg d (0x110108 + 0x1000 * u)
/-- HP_WR_BURSTS_HI of 10_host_ports.md. -/
def HP_WR_BURSTS_HI (d u : Nat) : Reg := dieReg d (0x11010c + 0x1000 * u)
/-- HP_RSV_ACCESS of 10_host_ports.md. -/
def HP_RSV_ACCESS (d u : Nat) : Reg := dieReg d (0x110110 + 0x1000 * u)
/-- HP_DENIED_RD of 10_host_ports.md. -/
def HP_DENIED_RD (d u : Nat) : Reg := dieReg d (0x110114 + 0x1000 * u)
/-- HP_DENIED_WR of 10_host_ports.md. -/
def HP_DENIED_WR (d u : Nat) : Reg := dieReg d (0x110118 + 0x1000 * u)
/-- HP_WQ_DROP of 10_host_ports.md. -/
def HP_WQ_DROP (d u : Nat) : Reg := dieReg d (0x11011c + 0x1000 * u)
/-- HP_PARTIAL_WR of 10_host_ports.md. -/
def HP_PARTIAL_WR (d u : Nat) : Reg := dieReg d (0x110120 + 0x1000 * u)
/-- HP_UNSUP of 10_host_ports.md. -/
def HP_UNSUP (d u : Nat) : Reg := dieReg d (0x110124 + 0x1000 * u)
/-- HP_FETCHES of 10_host_ports.md. -/
def HP_FETCHES (d u : Nat) : Reg := dieReg d (0x110128 + 0x1000 * u)
/-- HP_LOSS of 10_host_ports.md. -/
def HP_LOSS (d u : Nat) : Reg := dieReg d (0x11012c + 0x1000 * u)
/-- BU_STEP of 12_bring_up.md. -/
def BU_STEP (d : Nat) : Reg := dieReg d (0x0)
/-- BU_STATUS of 12_bring_up.md. -/
def BU_STATUS (d : Nat) : Reg := dieReg d (0x4)
/-- BU_CTRL of 12_bring_up.md. -/
def BU_CTRL (d : Nat) : Reg := dieReg d (0x8)
/-- BU_ARG of 12_bring_up.md. -/
def BU_ARG (d : Nat) : Reg := dieReg d (0xc)
/-- BU_FW_OFF of 12_bring_up.md. -/
def BU_FW_OFF (d : Nat) : Reg := dieReg d (0x10)
/-- BU_FW_LEN of 12_bring_up.md. -/
def BU_FW_LEN (d : Nat) : Reg := dieReg d (0x14)
/-- BU_DETAIL of 12_bring_up.md. -/
def BU_DETAIL (d : Nat) : Reg := dieReg d (0x18)
/-- BU_ELAPSED of 12_bring_up.md. -/
def BU_ELAPSED (d : Nat) : Reg := dieReg d (0x1c)
/-- BU_TIME of 12_bring_up.md. -/
def BU_TIME (d k : Nat) : Reg := dieReg d (0x20 + 4 * (k - 1))
/-- BU_KIND_SEL of 12_bring_up.md. -/
def BU_KIND_SEL (d : Nat) : Reg := dieReg d (0x60)
/-- BU_KIND_TESTED of 12_bring_up.md. -/
def BU_KIND_TESTED (d : Nat) : Reg := dieReg d (0x64)
/-- BU_KIND_FAILED of 12_bring_up.md. -/
def BU_KIND_FAILED (d : Nat) : Reg := dieReg d (0x68)
/-- BU_KIND_COV of 12_bring_up.md. -/
def BU_KIND_COV (d : Nat) : Reg := dieReg d (0x6c)
/-- BU_KIND_KA_TIME of 12_bring_up.md. -/
def BU_KIND_KA_TIME (d : Nat) : Reg := dieReg d (0x70)
/-- BU_KIND_BIST_TIME of 12_bring_up.md. -/
def BU_KIND_BIST_TIME (d : Nat) : Reg := dieReg d (0x74)
/-- BU_DEFECTS of 12_bring_up.md. -/
def BU_DEFECTS (d : Nat) : Reg := dieReg d (0x80)
/-- BU_DIE_STATE of 12_bring_up.md. -/
def BU_DIE_STATE (d : Nat) : Reg := dieReg d (0x84)
/-- BU_PADS of 12_bring_up.md. -/
def BU_PADS (d : Nat) : Reg := dieReg d (0x88)
/-- FC_CTRL of 13_faults_and_fencing.md. -/
def FC_CTRL (d : Nat) : Reg := dieReg d (0x120000)
/-- FC_STATUS of 13_faults_and_fencing.md. -/
def FC_STATUS (d : Nat) : Reg := dieReg d (0x120004)
/-- FC_REACT of 13_faults_and_fencing.md. -/
def FC_REACT (d g : Nat) : Reg := dieReg d (0x120010 + 0x4 * g)
/-- FC_SEL of 13_faults_and_fencing.md. -/
def FC_SEL (d : Nat) : Reg := dieReg d (0x120020)
/-- FC_REC of 13_faults_and_fencing.md. -/
def FC_REC (d i : Nat) : Reg := dieReg d (0x120024 + 0x4 * i)
/-- FC_ACK of 13_faults_and_fencing.md. -/
def FC_ACK (d : Nat) : Reg := dieReg d (0x120044)
/-- FC_AGE_SEL of 13_faults_and_fencing.md. -/
def FC_AGE_SEL (d : Nat) : Reg := dieReg d (0x120050)
/-- FC_AGE_DATA of 13_faults_and_fencing.md. -/
def FC_AGE_DATA (d : Nat) : Reg := dieReg d (0x120054)
/-- FC_AGE_LIMITS of 13_faults_and_fencing.md. -/
def FC_AGE_LIMITS (d : Nat) : Reg := dieReg d (0x120058)
/-- FC_RESET_CAUSE of 13_faults_and_fencing.md. -/
def FC_RESET_CAUSE (d : Nat) : Reg := dieReg d (0x12005c)
/-- FC_CNT of 13_faults_and_fencing.md. -/
def FC_CNT (d o c : Nat) : Reg := dieReg d (0x120100 + 0x20 * o + 0x4 * c)
/-- FC_AGG_STATUS of 13_faults_and_fencing.md. -/
def FC_AGG_STATUS (d : Nat) : Reg := dieReg d (0x120800)
/-- FC_AGG_OVF of 13_faults_and_fencing.md. -/
def FC_AGG_OVF (d : Nat) : Reg := dieReg d (0x120804)
/-- FC_INJ_UNLOCK of 13_faults_and_fencing.md. -/
def FC_INJ_UNLOCK (d : Nat) : Reg := dieReg d (0x120c00)
/-- FC_INJ_CTRL of 13_faults_and_fencing.md. -/
def FC_INJ_CTRL (d : Nat) : Reg := dieReg d (0x120c04)
/-- FC_INJ_ADDR_LO of 13_faults_and_fencing.md. -/
def FC_INJ_ADDR_LO (d : Nat) : Reg := dieReg d (0x120c08)
/-- FC_INJ_ADDR_HI of 13_faults_and_fencing.md. -/
def FC_INJ_ADDR_HI (d : Nat) : Reg := dieReg d (0x120c0c)
/-- FW_STATUS of 14_firmware_and_security.md. -/
def FW_STATUS (d : Nat) : Reg := dieReg d (0x130000)
/-- FW_RESTARTS of 14_firmware_and_security.md. -/
def FW_RESTARTS (d : Nat) : Reg := dieReg d (0x130004)
/-- FW_WDT_CFG of 14_firmware_and_security.md. -/
def FW_WDT_CFG (d : Nat) : Reg := dieReg d (0x130008)
/-- FW_IMAGE of 14_firmware_and_security.md. -/
def FW_IMAGE (d : Nat) : Reg := dieReg d (0x13000c)
/-- FW_SVN of 14_firmware_and_security.md. -/
def FW_SVN (d : Nat) : Reg := dieReg d (0x130010)
/-- FW_UPDATE of 14_firmware_and_security.md. -/
def FW_UPDATE (d : Nat) : Reg := dieReg d (0x130014)
/-- FW_TRACE of 14_firmware_and_security.md. -/
def FW_TRACE (d g : Nat) : Reg := dieReg d (0x130020 + 0x4 * g)
/-- SEC_STATUS of 14_firmware_and_security.md. -/
def SEC_STATUS (d : Nat) : Reg := dieReg d (0x140000)
/-- SEC_DEBUG of 14_firmware_and_security.md. -/
def SEC_DEBUG (d : Nat) : Reg := dieReg d (0x140004)
/-- SEC_NONCE of 14_firmware_and_security.md. -/
def SEC_NONCE (d : Nat) : Reg := dieReg d (0x140008)
/-- SEC_BLOCK0 of 14_firmware_and_security.md. -/
def SEC_BLOCK0 (d : Nat) : Reg := dieReg d (0x140010)
/-- SEC_BLOCK1 of 14_firmware_and_security.md. -/
def SEC_BLOCK1 (d : Nat) : Reg := dieReg d (0x140014)
/-- SEC_RGN_A of 14_firmware_and_security.md. -/
def SEC_RGN_A (d r : Nat) : Reg := dieReg d (0x140100 + 0x8 * r)
/-- SEC_RGN_B of 14_firmware_and_security.md. -/
def SEC_RGN_B (d r : Nat) : Reg := dieReg d (0x140104 + 0x8 * r)
/-- SEC_DBG_TOKEN of 14_firmware_and_security.md. -/
def SEC_DBG_TOKEN (d i : Nat) : Reg := dieReg d (0x140400 + 0x4 * i)
/-- CR_STATUS of 14_firmware_and_security.md. -/
def CR_STATUS (d : Nat) : Reg := dieReg d (0x150000)
/-- CR_LIFE of 14_firmware_and_security.md. -/
def CR_LIFE (d : Nat) : Reg := dieReg d (0x150004)
/-- CR_MAX_ERASE of 14_firmware_and_security.md. -/
def CR_MAX_ERASE (d : Nat) : Reg := dieReg d (0x150008)
/-- CR_CKPT of 14_firmware_and_security.md. -/
def CR_CKPT (d : Nat) : Reg := dieReg d (0x15000c)
/-- CR_CKPT_LEN of 14_firmware_and_security.md. -/
def CR_CKPT_LEN (d k : Nat) : Reg := dieReg d (0x150010 + 0x4 * k)
/-- CR_AUTH_FAIL of 14_firmware_and_security.md. -/
def CR_AUTH_FAIL (d : Nat) : Reg := dieReg d (0x150030)
/-- CR_WRITE_FAIL of 14_firmware_and_security.md. -/
def CR_WRITE_FAIL (d : Nat) : Reg := dieReg d (0x150034)
/-- CR_ERASES_LO of 14_firmware_and_security.md. -/
def CR_ERASES_LO (d : Nat) : Reg := dieReg d (0x150038)
/-- CR_ERASES_HI of 14_firmware_and_security.md. -/
def CR_ERASES_HI (d : Nat) : Reg := dieReg d (0x15003c)
/-- CK_STATUS of 15_clocks_power_reset.md. -/
def CK_STATUS (d : Nat) : Reg := dieReg d (0x160000)
/-- CK_SEL of 15_clocks_power_reset.md. -/
def CK_SEL (d : Nat) : Reg := dieReg d (0x160004)
/-- CK_PLL_EN of 15_clocks_power_reset.md. -/
def CK_PLL_EN (d : Nat) : Reg := dieReg d (0x160008)
/-- CK_FREQ of 15_clocks_power_reset.md. -/
def CK_FREQ (d p : Nat) : Reg := dieReg d (0x160010 + 0x4 * p)
/-- CK_HANG of 15_clocks_power_reset.md. -/
def CK_HANG (d : Nat) : Reg := dieReg d (0x160030)
/-- CK_UNLOCK_CNT of 15_clocks_power_reset.md. -/
def CK_UNLOCK_CNT (d : Nat) : Reg := dieReg d (0x160034)
/-- PM_STATUS of 15_clocks_power_reset.md. -/
def PM_STATUS (d : Nat) : Reg := dieReg d (0x170000)
/-- PM_LIMIT of 15_clocks_power_reset.md. -/
def PM_LIMIT (d : Nat) : Reg := dieReg d (0x170004)
/-- PM_POWER of 15_clocks_power_reset.md. -/
def PM_POWER (d : Nat) : Reg := dieReg d (0x170008)
/-- PM_TEMP of 15_clocks_power_reset.md. -/
def PM_TEMP (d : Nat) : Reg := dieReg d (0x17000c)
/-- PM_THERM of 15_clocks_power_reset.md. -/
def PM_THERM (d : Nat) : Reg := dieReg d (0x170010)
/-- PM_VGUARD of 15_clocks_power_reset.md. -/
def PM_VGUARD (d : Nat) : Reg := dieReg d (0x170014)
/-- PM_EMERG_FLOOR of 15_clocks_power_reset.md. -/
def PM_EMERG_FLOOR (d : Nat) : Reg := dieReg d (0x170018)
/-- PM_PAD_RELEASE of 15_clocks_power_reset.md. -/
def PM_PAD_RELEASE (d : Nat) : Reg := dieReg d (0x17001c)
/-- PM_RESET_REQ of 15_clocks_power_reset.md. -/
def PM_RESET_REQ (d : Nat) : Reg := dieReg d (0x170020)
/-- PM_EMERG_CNT of 15_clocks_power_reset.md. -/
def PM_EMERG_CNT (d : Nat) : Reg := dieReg d (0x170024)
/-- PM_OPP_CHANGES of 15_clocks_power_reset.md. -/
def PM_OPP_CHANGES (d : Nat) : Reg := dieReg d (0x170028)
/-- PM_OPP_A of 15_clocks_power_reset.md. -/
def PM_OPP_A (d e : Nat) : Reg := dieReg d (0x170040 + 0x10 * e)
/-- PM_OPP_B of 15_clocks_power_reset.md. -/
def PM_OPP_B (d e : Nat) : Reg := dieReg d (0x170044 + 0x10 * e)
/-- PM_OPP_C of 15_clocks_power_reset.md. -/
def PM_OPP_C (d e : Nat) : Reg := dieReg d (0x170048 + 0x10 * e)
/-- XR_CTRL of 16_package_and_pins.md. -/
def XR_CTRL (d : Nat) : Reg := dieReg d (0x180000)
/-- XR_STATUS of 16_package_and_pins.md. -/
def XR_STATUS (d : Nat) : Reg := dieReg d (0x180004)
/-- XR_TCSM of 16_package_and_pins.md. -/
def XR_TCSM (d : Nat) : Reg := dieReg d (0x180008)
/-- XR_CAL of 16_package_and_pins.md. -/
def XR_CAL (d : Nat) : Reg := dieReg d (0x18000c)
/-- XR_RD_LO of 16_package_and_pins.md. -/
def XR_RD_LO (d : Nat) : Reg := dieReg d (0x180010)
/-- XR_RD_HI of 16_package_and_pins.md. -/
def XR_RD_HI (d : Nat) : Reg := dieReg d (0x180014)
/-- XR_WR_LO of 16_package_and_pins.md. -/
def XR_WR_LO (d : Nat) : Reg := dieReg d (0x180018)
/-- XR_WR_HI of 16_package_and_pins.md. -/
def XR_WR_HI (d : Nat) : Reg := dieReg d (0x18001c)
/-- XR_RMW of 16_package_and_pins.md. -/
def XR_RMW (d : Nat) : Reg := dieReg d (0x180020)
/-- XR_CRC_ERR of 16_package_and_pins.md. -/
def XR_CRC_ERR (d : Nat) : Reg := dieReg d (0x180024)
/-- FR_SAFEN of 09_separators.md. -/
def FR_SAFEN (d : Nat) : Reg := dieReg d (0x100200)

end Sys2Proof.Machine
end

