-- ==== Sys2Proof/Machine/State.lean ====
section
/-! DEFINITION. The state of a Virnor 2 package as plain data, chapter by chapter, and the state at power-on reset. INVENTORY.md lists
every piece with the rule that names it. Physical cores are numbered die × 2,112 + tile × 33 + slot. -/
namespace Sys2Proof.Machine

/-! ## Parts, straps and the time base (R2, R15, R31, R466) -/

/-- The lands a power-on reset samples, and the part itself (R2, R15, R398, R466, R480). -/
structure Straps where
  part : Part
  /-- The master-select strap as sampled: D1 is the master die (R15). -/
  msel : Bool
  /-- TESTMODE as sampled (R398). -/
  testmode : Bool
  /-- SMB_ADDR as sampled (R480). -/
  smbAddr : Nat
  deriving DecidableEq, Repr

/-- The time-base copies (R31, R32). -/
structure Clock where
  /-- The copy of each die. -/
  tb : SMap DWord
  /-- Dies that withhold their next increment (R32). -/
  withhold : List Nat
  deriving DecidableEq, Repr

/-! ## Tick generators (R36 to R56) -/

/-- The settings a tick runs with: a copy of TG_PERIOD, TG_CLOSE, TG_PAIL, TG_ACTION and TG_SLAVE, and the source (R38, R40, R45). -/
structure TickSet where
  period : Nat
  close : Nat
  pail : Nat
  action : Nat
  lead : Nat
  tol : Nat
  stall : Bool
  slaved : Bool
  deriving DecidableEq, Repr

/-- A distributed tick start (R39, R40). -/
structure NextTick where
  n : Nat
  start : Nat
  set : TickSet
  /-- The tick starts without an edge (R43). -/
  free : Bool
  deriving DecidableEq, Repr

/-- The tick in progress and which of its instants have passed (R48). -/
structure CurTick where
  n : Nat
  start : Nat
  set : TickSet
  /-- It is the first tick of its run (R49), or it started without an edge (R43). -/
  first : Bool
  free : Bool
  /-- Dies that have begun it, closed it and passed its pail instant, each by its own copy of the time base (R39, R48). -/
  begun : List Nat
  closedOn : List Nat
  pailedOn : List Nat
  acted : Bool
  /-- The action frame is published: on time (`true`) or as a substitute. -/
  published : Option Bool
  /-- The strongest reaction of this tick (R56). -/
  react : Nat
  /-- The frame missed S + TG_ACTION (R54). -/
  missed : Bool
  /-- TG_LATE as the tick started, for its late events, and whether it overran (R346, R408). -/
  late0 : Nat
  overran : Bool
  deriving DecidableEq, Repr

/-- One tick generator (R36). Its visible settings and status lie in the TG registers. -/
structure TickGen where
  /-- Ticks distributed and not started, in order (R39): with a LEAD above the interval more than one. -/
  next : List NextTick
  cur : Option CurTick
  /-- Setting writes held under R45: register offset and value, oldest first. -/
  pend : List (Nat × Word)
  /-- The settings in force, the reset values until a start latches them. -/
  inForce : TickSet
  /-- The previous accepted edge (R42). -/
  prevEdge : Option Nat
  /-- Stop at the next boundary (R47). -/
  stopReq : Bool
  /-- A STEP runs: no tick follows (R47). -/
  stepping : Bool
  /-- A reaction owed to the next tick (R387). -/
  reactNext : Nat
  /-- The last tick that ended, for STOP_RUN's result and the snapshot stream (R346, R349); none until one has. -/
  lastTick : Option Nat
  /-- TG_START_AT_LO as written, until TG_START_AT_HI commits it (R46). -/
  startBuf : Nat
  deriving DecidableEq, Repr

/-- The settings at their reset values (R38). -/
def TickSet.init : TickSet :=
  { period := 1000000, close := 500000, pail := 510000, action := 900000, lead := 2000, tol := 8, stall := false, slaved := false }

def TickGen.init : TickGen :=
  { next := [], cur := none, pend := [], inForce := TickSet.init, prevEdge := none, stopReq := false, stepping := false,
    reactNext := 0, lastTick := none, startBuf := 0 }

/-- A compare channel beyond its registers (R59 to R63). -/
structure CmpChan where
  /-- The committed 64-bit next-match value. -/
  next : Nat
  /-- The last match since the channel was armed. -/
  last : Option Nat
  /-- CMP_MATCH_LO as last written (R59). -/
  buf : Nat
  /-- The time of a write after which the channel matches at the next increment, with LATE (R60, R61). -/
  lateAt : Option Nat
  /-- The time at which the bound processor was halted (R63). -/
  haltAt : Option Nat
  deriving DecidableEq, Repr

def CmpChan.init : CmpChan := ⟨0, none, 0, none, none⟩

/-- What a capture replaced: when it was made, the value before it, and OVERRUN before it (R65). -/
structure CapPast where
  at' : Nat
  value : Nat
  overrun : Bool
  deriving DecidableEq, Repr

/-- Ticks and timers (02_ticks_and_time.md). -/
structure TickState where
  gens : SMap TickGen
  /-- Follower state per die: consecutive sync words beyond ±8 ns (R34). -/
  badSync : SMap Nat
  /-- Consecutive sync words within ±2 ns (R34). -/
  goodSync : SMap Nat
  /-- Local time of the last sync word (R34). -/
  lastSync : SMap Nat
  /-- Local time of the last slew (R32). -/
  lastSlew : SMap Nat
  /-- Compare channels, die × 64 + c. -/
  cmp : SMap CmpChan
  /-- Captured values, die × 8 + k (R65). -/
  cap : SMap Nat
  /-- What the latest capture of a channel replaced (R65). -/
  capPast : SMap (Option CapPast)
  /-- Processors halted by a debugger: die × 8 + CMP_CTRL.BIND (R63). -/
  halted : List Nat
  /-- When a debugger halted the processor, and how long it has been halted since its firmware started, by the same number (R403). -/
  haltAt : SMap Nat
  paused : SMap Nat
  /-- End of the pulse on TICK_OUT k, while it is high (R66). -/
  pulse : SMap (Option Nat)
  /-- Interrupts raised to a processor by a match: die × 8 + BIND, counted (R59). -/
  irq : SMap Nat
  deriving DecidableEq, Repr

/-! ## Neuron cores (R68 to R126) and their queues (R161 to R197) -/

/-- How an event's age classes it (R49). -/
inductive EvClass where
  | onTime | late | stale | early
  deriving DecidableEq, Repr

/-- An event at a core: its axon, payload and the DELAY and TRACE bits of its word, and the tick it targets (R85). -/
structure Ev where
  axon : Nat
  payload : Nat
  flags : Nat
  tick : Nat
  deriving DecidableEq, Repr

/-- An event the network interface has accepted: class and target tick are fixed (R50, R85). -/
structure Arrival where
  ev : Ev
  cls : EvClass
  deriving DecidableEq, Repr

/-- An event a fire has yet to hand to the network interface (R92). `dkind` is the fan-out entry's KIND. -/
structure OutEv where
  dkind : Nat
  dest : Nat
  axon : Nat
  payload : Nat
  delay : Nat
  tag : Nat
  deriving DecidableEq, Repr

/-- A pail record (R212): the die whose pail bus carries it, core number, neuron, payload, tag of the fire's tick and coach. -/
structure SpikeRec where
  die : Nat
  /-- The physical core that sent it: its tile's hub holds the record (R212). -/
  src : Nat
  core : Nat
  neuron : Nat
  payload : Nat
  tag : Nat
  coach : Nat
  /-- A folded membrane for the separators instead of a spike (R92, R272). -/
  membrane : Option Int
  deriving DecidableEq, Repr

/-- A fold and fire in progress (R89 to R92). -/
structure Fire where
  tick : Nat
  /-- Cycles of the fold and the potentiation pass: ⌈N / 4⌉ + P (R95, R125). -/
  cycles : Nat
  /-- Events not yet handed to the interface, and how many have been (R92, R95). -/
  out : List OutEv
  sent : Nat
  /-- Since when the fire has not been able to hand an event (R146). -/
  stallAt : Option Nat
  /-- The fold was skipped (R96). -/
  quiet : Bool
  /-- Neurons of each group that fired (R183). -/
  groups : SMap Nat
  /-- The core overran in this tick (R52). -/
  overran : Bool
  /-- Pail records and membranes that wait for room in the tile's hub (R212, R214). -/
  recs : List SpikeRec
  /-- The fold has ended, so writes to the state region are no longer held (R72). -/
  folded : Bool
  deriving DecidableEq, Repr

/-- An apply in progress (R116, R117). -/
structure Apply where
  eta : Nat
  /-- Axons of plastic rows still to be written back, in list order. -/
  rows : List Nat
  /-- S of each neuron (R117). -/
  sums : SMap Nat
  /-- Cycles that the passes and write-backs take (R125). -/
  cost : Nat
  deriving DecidableEq, Repr

/-- A combining slot's header; its elements lie in local memory (R171, R172). -/
structure CombSlot where
  tag : Nat
  count : Nat
  openTick : Nat
  complete : Bool
  /-- It is emitted as a partial entry (R175). -/
  partialE : Bool
  deriving DecidableEq, Repr

/-- A send in progress (R183 to R187). -/
structure Send where
  sendno : Nat
  typ : Nat
  dkind : Nat
  dest : Nat
  queue : Nat
  offset : Nat
  seqTag : Nat
  lenM1 : Nat
  data : List Byte
  /-- Time of the first injection and of the latest attempt. -/
  first : Nat
  attempt : Nat
  attempts : Nat
  /-- The limits latched when the send started (R190). -/
  stallLimit : Nat
  replyLimit : Nat
  /-- The back-off ends here (R187). -/
  retryAt : Option Nat
  /-- The packet waits to leave the interface: the channel is held or it has not been injected. -/
  waiting : Bool
  /-- Time at which the coach was held (R191). -/
  heldAt : Option Nat
  /-- Entry size of a relayed entry (R189). -/
  relay : Option Nat
  /-- Relayed queue (R189). -/
  relayQ : Nat
  deriving DecidableEq, Repr

/-- A packet: the head flit's fields (R130) and the data of its body flits as 32-bit words. -/
structure Packet where
  version : Nat
  typ : Nat
  epoch : Bool
  vc : Bool
  coach : Nat
  dkind : Nat
  dest : Nat
  src : Nat
  srcBlock : Bool
  tag : Nat
  lenM1 : Nat
  lastM1 : Nat
  info : Nat
  words : List Word
  /-- Body flits with an uncorrectable error (R157). -/
  badFlits : List Nat
  /-- The sender's channel, which the reply names (R176; log entry 11). -/
  chan : Nat
  deriving DecidableEq, Repr

/-- A trigger of a channel that its send has not yet answered (R182): the tick and the group counts of the fire that triggered it. -/
structure Trig where
  tick : Nat
  counts : List Nat
  relay : Bool
  deriving DecidableEq, Repr

/-- What a core holds outside its local memory and its registers (R68, R161). -/
structure Core where
  /-- Accumulators and contribution counts of the open tick (R82). -/
  acc : SMap Int
  cnt : SMap Nat
  /-- The input buffer (R85). -/
  inbuf : List Arrival
  /-- Events accepted by the interface and not yet taken (R85). -/
  arrivals : List Arrival
  /-- Fill counts of the delay-ring slots (R87). -/
  ring : SMap Nat
  /-- The IF record of R88 was made in this tick. -/
  ringRec : Bool
  /-- A delay-ring entry was released into the open tick (R96). -/
  released : Bool
  /-- The open tick (R49). -/
  openTick : Nat
  /-- The core takes part in its coach's ticks (R101). -/
  joined : Bool
  /-- The tick it joins at, once one has been distributed after the restart (R101). -/
  joinAt : Option Nat
  /-- Excluded from the overrun check until its first fire completes (R100). -/
  fresh : Bool
  fire : Option Fire
  /-- Closes that passed while an earlier fire ran (R52). -/
  closes : List Nat
  /-- Late and stale events not yet reported to the coach totals (R57). -/
  lateN : Nat
  staleN : Nat
  /-- State-region writes that wait for the fold to end: byte address and eight bytes (R72). -/
  held : List (Nat × Nat)
  /-- The learning epoch length in force, and whether a write of 0 disarmed learning (R115). -/
  epochLen : Nat
  disarmed : Bool
  apply : Option Apply
  /-- Combining slots: queue × 64 + slot (R172). -/
  slots : SMap (Option CombSlot)
  /-- Complete slots that wait for ring space, oldest first: queue × 64 + slot (R174). -/
  pendEmit : List Nat
  /-- Send channels with a send outstanding (R183). -/
  sends : SMap (Option Send)
  /-- Channels' next SENDNO is QM_C_SENDNO + 1; stall counts per channel (R187). -/
  stalls : SMap Nat
  /-- Queue messages and replies that have passed ejection and are not yet handled (R180), and triggers not yet answered (R182). -/
  msgs : List Packet
  replies : List Packet
  trigs : SMap (Option Trig)
  deriving DecidableEq, Repr

def Core.init : Core :=
  { acc := [], cnt := [], inbuf := [], arrivals := [], ring := [], ringRec := false, released := false, openTick := 0,
    joined := true, joinAt := none, fresh := false, fire := none, closes := [], lateN := 0, staleN := 0, held := [],
    epochLen := 0, disarmed := false, apply := none, slots := [], pendEmit := [], sends := [], stalls := [],
    msgs := [], replies := [], trigs := [] }

/-! ## The event fabric (R127 to R160) -/

/-- A packet that a source interface has closed and not yet injected: DEST still as the source named it (`rank` for KIND 1). -/
structure Closed where
  pkt : Packet
  rank : Bool
  /-- The send channel it belongs to, for its outcome (R185). -/
  chan : Option Nat
  deriving DecidableEq, Repr

/-- A source interface (R133, R135): the open packet's destination form and the packets that have closed. -/
structure Iface where
  opened : Option Closed
  closed : List Closed
  /-- The IF record of R133 was made in this tick. -/
  noCoachRec : Bool
  deriving DecidableEq, Repr

def Iface.init : Iface := ⟨none, [], false⟩

/-- A packet in flight (R138): the router where its head is, the input port by which it came (0 North, 1 East, 2 South, 3 West, 5 local,
6 a loopback that uses no router), and whether it is a copy in the router's replication buffer (R143). `slot` is set once its head waits at
a destination interface; `members` are the physical cores a multicast copy still serves (R142). -/
structure Flight where
  pid : Nat
  pkt : Packet
  die : Nat
  tile : Nat
  slot : Option Nat
  members : List Nat
  inp : Nat
  copy : Bool
  deriving DecidableEq, Repr

/-- A multicast group of one version (R142): owner, member core numbers and the physical cores they were placed on. -/
structure Group where
  owner : Nat
  members : List Nat
  places : List Nat
  deriving DecidableEq, Repr

/-- The event fabric (05_event_fabric.md). -/
structure Fabric where
  /-- Route entries, version × 2^18 + core number: the physical core + 1, 0 invalid (R136). -/
  routes : SMap Nat
  /-- Group entries, version × 4,096 + group (R136, R142). -/
  groups : SMap (Option Group)
  /-- Source interfaces: physical cores, then 2^20 + block (R133). -/
  ifaces : SMap Iface
  /-- Packets in flight; those of one input buffer of a router stand in the order in which they came (R138, R140). -/
  flights : List Flight
  nextPid : Nat
  /-- Committed die routes, die × 8 + destination: NEXT + 8 × VCSW + 1, 0 for the default of R138 (R137, R155). -/
  droute : SMap Nat
  /-- The staging copy of the die routes in the same form (R153). -/
  staged : SMap Nat
  /-- The requester that an output port served last, + 1, by (die × 64 + tile) × 8 + output port (R141). -/
  rr : SMap Nat
  /-- The interface that a tile hub served last, + 1, by die × 64 + tile (R127). -/
  hubs : SMap Nat
  /-- Coaches for which a US record of a coupling in discard was made in their tick (R154). -/
  cplRec : List Nat
  deriving DecidableEq, Repr

/-! ## Placement (R21, R347, R368) -/

/-- The placement table (R20): where each core number lies, what COMMIT_DEFECTS found, and what later changes did. -/
structure Placement where
  /-- COMMIT_DEFECTS has built the table (R368). -/
  built : Bool
  /-- Core number to physical core + 1, 0 for none. -/
  place : SMap Nat
  /-- Physical core to core number + 1, 0 for none. -/
  number : SMap Nat
  /-- Physical cores marked FENCED (R389). -/
  fenced : List Nat
  /-- The spare of each tile (die × 64 + tile) as a physical core + 1, 0 for none (R368), and the tiles whose spare is in use or
  lost (R352). -/
  spare : SMap Nat
  spareUsed : List Nat
  /-- Last place of a core number that lies nowhere, physical core + 1 (R347). -/
  last : SMap Nat
  deriving DecidableEq, Repr

/-! ## Faults (R377 to R399) -/

/-- A fault record (R379). -/
structure FaultRec where
  cls : Nat
  merged : Bool
  held : Bool
  die : Nat
  owner : Nat
  source : Nat
  master : Nat
  access : Nat
  addr : Nat
  count : Nat
  time : Nat
  info : Nat
  /-- Copied to the aggregator (R384). -/
  copied : Bool
  deriving DecidableEq, Repr

/-- Fault collectors and the aggregator (13_faults_and_fencing.md). -/
structure FaultState where
  /-- Record slots, die × 64 + owner × 8 + class (R382). -/
  slots : SMap (Option FaultRec)
  /-- The aggregator queue: slot and record, oldest first (R384). -/
  agg : List (Nat × FaultRec)
  /-- Slots whose record waits for a place, oldest first (R384). -/
  heldQ : List Nat
  /-- FC_SEL copies, die × 64 + requester (R399). -/
  sel : SMap Word
  /-- Factory test mode is unlocked (R398). -/
  factory : Bool
  /-- Churns, separators and join units that are fenced, by MASTER (R226, R394). -/
  blocks : List Nat
  /-- Time of a block's latest US record of source SHARED_MEM_UE or RESIDUE, by MASTER (R394). -/
  usSeen : SMap (Option Nat)
  /-- Margins that the ageing sensors gave last, in ps: (die × 64 + tile) × 64 + sensor (R396). -/
  margins : SMap Nat
  /-- Cores that a UC error has fenced and whose defect entry firmware still owes, with the slot of the error's record (R390). -/
  ucDue : List (Nat × Nat)
  deriving DecidableEq, Repr

/-! ## Churns, pails and quantised arithmetic (R199 to R229) -/

/-- A pass descriptor (R202). -/
structure Pass where
  mode : Nat
  wfmt : Bool
  afmt : Bool
  seed : Nat
  final : Bool
  stats : Bool
  zpIn : Nat
  outfmt : Nat
  odest : Bool
  rnd : Bool
  evpay : Bool
  msrc : Bool
  outlEn : Bool
  vcount : Nat
  arow : Nat
  abank : Nat
  rqBase : Nat
  zpOut : Nat
  evThresh : Nat
  evDelay : Nat
  axonBase : Nat
  emitBase : Nat
  mword : Nat
  mstride : Nat
  outlMask : Nat
  deriving DecidableEq, Repr

/-- An output stage that waits or runs: the pass that filled the bank, the tick whose frame ran it and its statistic window,
CORR as that pass left it, and the frame cycle in which the stage begins (R216, R219, R220). -/
structure OutStage where
  pass : Pass
  index : Nat
  tick : Nat
  win : Nat
  corr : List Int
  cycle : Nat
  deriving DecidableEq, Repr

/-- A word at a churn's output port: the frame cycle in which it leaves the output stage, and the cycles until the next one may (R222, R241). -/
structure OutWord where
  cycle : Nat
  hold : Nat
  data : Nat
  deriving DecidableEq, Repr

/-- A word of the timetable network: 1,024 bits, and the bits that travel with it (R257). -/
structure TWord where
  data : Nat
  valid : Bool
  tag : Nat
  coach : Nat
  deriving DecidableEq, Repr

/-- A churn with its pail (R199, R210), outside its registers and tables. -/
structure Churn where
  /-- Words of the weight block arriving at the weight port (R206). -/
  wport : List TWord
  /-- The shadow and the active block, 128 words each when full, and Σw of each column of the shadow block. -/
  shadow : List Nat
  sumw : List Int
  active : List Nat
  /-- Words delivered to the data port and not yet consumed (R487). -/
  dport : List TWord
  /-- Words of an abandoned pass still to be discarded as they arrive (R223). -/
  skip : Nat
  /-- Accumulators: bank × 2^18 + row × 256 + column (R215); CORR: bank × 256 + column (R206). -/
  acc : SMap Int
  corr : SMap Int
  /-- Passes: the active and inactive list and the next pass of the frame (R201). -/
  list : List Pass
  listNext : List Pass
  pos : Nat
  /-- The tick whose frame the passes belong to, once one has started (R201). -/
  frameOf : Option Nat
  /-- Output stages due, oldest first, and the one running for each bank (R216). -/
  due : List OutStage
  running : List OutStage
  /-- CHK time at which the pass that runs, or ran last, ends (R222, R229). -/
  passEnd : Nat
  /-- Events of output stages that the interface has not taken, each with its bank; since which CHK time the first has waited; and the cycles
  that the bank's stage has waited (R221). -/
  eout : List (Nat × OutEv)
  waitAt : Option Nat
  waited : SMap Nat
  /-- Words that left for the output port in this frame (R241). -/
  oport : List OutWord
  /-- Generators of the requantisers (R218). -/
  gen : SMap Nat
  /-- Statistic totals, window × 16 + q (R219). -/
  mseSum : SMap Nat
  mseCnt : SMap Nat
  /-- Number of the present window, ticks counted in it, the window of the current tick and that of the running frame, and a window that
  ended and has not closed. -/
  win : Nat
  winTicks : Nat
  winTick : Nat
  winFrame : Nat
  winEnded : Option Nat
  mseOff : Bool
  /-- Pail images (R210): image × 2^16 + byte; the collecting tick, the tick handed over, the record buffer. -/
  image : SMap Byte
  collTick : Nat
  handed : Option Nat
  buffer : List SpikeRec
  seRec : Bool
  deriving DecidableEq, Repr

def Churn.init : Churn :=
  { wport := [], shadow := [], sumw := [], active := [], dport := [], skip := 0, acc := [], corr := [], list := [],
    listNext := [], pos := 0, frameOf := none, due := [], running := [], passEnd := 0, eout := [], waitAt := none,
    waited := [], oport := [], gen := [], mseSum := [], mseCnt := [], win := 0,
    winTicks := 0, winTick := 0, winFrame := 0, winEnded := none, mseOff := false, image := [], collTick := 0, handed := none,
    buffer := [], seRec := false }

/-! ## Vats and the timetable network (R230 to R261) -/

/-- A timetable entry (R245). -/
structure TEntry where
  src : Nat
  srcPort : Nat
  snk : Nat
  snkPort : Nat
  guard : Bool
  signal : Bool
  start : Nat
  lenM1 : Nat
  firstRound : Nat
  lastRound : Nat
  srcAddr : Nat
  srcStep : Nat
  srcRstep : Nat
  snkAddr : Nat
  snkStep : Nat
  snkRstep : Nat
  tag : Nat
  waitFlag : Nat
  sigIndex : Nat
  sigBarrier : Bool
  sigDie : Nat
  deriving DecidableEq, Repr

/-- A die table (R243, R244): header, barrier table and entries. -/
structure DieTable where
  slots : Nat
  roundsM1 : Nat
  offset : Nat
  imageId : Nat
  barriers : List Nat
  entries : List TEntry
  deriving DecidableEq, Repr

/-- A signal on its way, and when it arrives, in CHK time of its die (R256). -/
structure Signal where
  due : Nat
  coach : Nat
  die : Nat
  index : Nat
  barrier : Bool
  deriving DecidableEq, Repr

/-- A coach's running frame (R247). -/
structure Frame where
  tick : Nat
  start : Nat
  /-- Words delivered of each round instance: (die × 1,024 + entry) × 65,536 + round. -/
  done : SMap Nat
  /-- Round instances whose guard failed, and those with an invalid word (R256). -/
  guarded : List Nat
  invalid : List Nat
  /-- DL records made in this frame: die × 8 + kind (R252, R254, R256). -/
  dlMade : List Nat
  deriving DecidableEq, Repr

/-- From a value of a die's copy of the time base on, its CHK domain runs at a frequency; `units` is the CHK time there, in thousandths of a
cycle (R439, R442). -/
structure ChkSeg where
  since : Nat
  units : Nat
  mhz : Nat
  deriving DecidableEq, Repr

/-- A request to a vat that waits for a gap slot (R235). -/
structure VatReq where
  /-- Priority: dispatchers 0–3, coachman 4, ostlers 5–8, debug port 9. -/
  who : Nat
  bank : Nat
  /-- The CHK cycle up to which its wait has been counted. -/
  upto : Nat
  deriving DecidableEq, Repr

/-- What a command still has to copy, word by word, between a port and a vat (R235, R346): from byte `off` of the vat on, `len` bytes, which
are `data` where it writes the vat, and go to offset `dst` of port SRAM where it reads. -/
structure VatCopy where
  die : Nat
  off : Nat
  len : Nat
  data : Option (List Byte)
  dst : Nat
  deriving DecidableEq, Repr

/-- A write to a vat or to port SRAM: model address of its first byte, CHK cycle, its place among the writes of one cycle (ports P0 and P1 of
a bank, the internal port of port SRAM as 0, a host as 2), the bytes, and the bytes they replaced (R234, R237, R241). -/
structure RecentWrite where
  addr : Nat
  cyc : Nat
  rank : Nat
  data : List Byte
  old : List Byte
  deriving DecidableEq, Repr

/-- A scheduled vat read: model address of the word, its bank cycle, bank port (R234). -/
structure RecentRead where
  addr : Nat
  cyc : Nat
  port : Nat
  deriving DecidableEq, Repr

/-- A word that a coach's entries took from a source end of a die in a slot, by its CHK time (R242). -/
structure RecentTake where
  die : Nat
  coach : Nat
  src : Nat
  at' : Nat
  word : TWord
  deriving DecidableEq, Repr

/-- Vats and timetable nodes (08_vats_and_timetable.md). -/
structure NetState where
  /-- Die tables, die × 4 + coach: active and inactive (R243). -/
  active : SMap (Option DieTable)
  inactive : SMap (Option DieTable)
  /-- Coaches with a swap armed, and the first tick whose start was distributed after it (R248). -/
  armed : SMap (Option (Option Nat))
  frames : SMap (Option Frame)
  signals : List Signal
  /-- When a flag that signals set was set, die × 4,096 + flag, in CHK time (R256). -/
  flagTimes : SMap Nat
  /-- Join inputs and outputs: (die × 8 + input or join) × 2^32 + frame slot (R253). -/
  joinIn : SMap (Option TWord)
  joinOut : SMap (Option TWord)
  /-- Egress and ingress buffers, (die × 4 + edge) × 4 + coach: slot of entry or arrival and word (R251). -/
  egress : SMap (List (Nat × TWord))
  ingress : SMap (List (Nat × TWord))
  /-- Slots of the releases of a channel, latest first (R251). -/
  released : SMap (List Nat)
  /-- Vat and port SRAM writes of the last 32 cycles, latest first, and the scheduled reads of the latest bank cycle (R234, R241). -/
  recentWr : List RecentWrite
  recentRd : List RecentRead
  /-- Words taken from churn outputs, separators, couplings and joins in the latest slot, for the other sinks they feed (R242). -/
  recentTake : List RecentTake
  /-- When a retrained timetable module resumed, die × 4 + edge (R251, R252). -/
  resumed : SMap Nat
  /-- Unscheduled requests of a die that wait for a gap slot (R235), and the vat word each requester last read. -/
  vatWait : SMap (List VatReq)
  /-- The CHK cycle after the one in which an unscheduled access last used a bank port, (die × 64 + bank) × 2 + port; 0 for none (R235). -/
  vatServed : SMap Nat
  vatRead : SMap Nat
  /-- Banks fenced with no spare left, die × 64 + bank, and spare rows in use per bank (R238). -/
  fencedBanks : List Nat
  rowsUsed : SMap Nat
  /-- Timetable modules of couplings that are down, and those that retrain, die × 4 + edge (R252). -/
  downMods : List Nat
  pausedMods : List Nat
  /-- Repairs made on timetable modules, die × 4 + edge (R158). -/
  ttRepairs : SMap Nat
  deriving DecidableEq, Repr

/-! ## Separators and frame units (R262 to R289) -/

/-- A separator outside its registers and tables (R262). -/
structure Sep where
  /-- Element state: σ, ρ, c, a, f by mode, and the held r of COUNT, READOUT and FIRST (R269, R273). -/
  st : SMap Int
  held : SMap Int
  gen : Nat
  /-- Elements that a valid word has delivered in this frame (R266). -/
  taken : List Nat
  /-- Words delivered and not yet converted (R267): the frame's tick, word index and word. -/
  inq : List (Nat × Nat × TWord)
  /-- Events of converted elements that the interface has not taken; since which CHK time the first has waited; the cycles waited since the last
  word was converted; and the last event packet of the frame closes with the last of them (R135, R267). -/
  eout : List OutEv
  waitAt : Option Nat
  waited : Nat
  closeDue : Bool
  /-- Input words delivered in this frame, valid or not: frame slot + 1 (R275). -/
  arrived : SMap Nat
  /-- Pail-bus input of the collecting tick and of the tick after it: parity × 2^20 + element (R272). -/
  spikes : SMap Nat
  membr : SMap (Option Int)
  collTick : Nat
  handed : Option Nat
  seRec : Bool
  /-- Output values and elements in doubt (R274, R276). -/
  out : SMap Nat
  doubt : List Nat
  /-- The IF record of R270 was made in this frame. -/
  ifRec : Bool
  /-- The tick whose frame it works on (R270). -/
  tick : Nat
  /-- The tick whose elements it has computed from the pail bus since it was enabled (R275). -/
  computed : Option Nat
  deriving DecidableEq, Repr

def Sep.init : Sep :=
  { st := [], held := [], gen := 1, taken := [], inq := [], eout := [], waitAt := none, waited := 0, closeDue := false, arrived := [], spikes := [], membr := [], collTick := 0, handed := none,
    seRec := false, out := [], doubt := [], ifRec := false, tick := 0, computed := none }

/-- A substitute whose copy runs (R282, R283): the tick, OBS_LATE and MISSED of its header, and the slot and SRC_SEQ it repeats, none
for SAFE. -/
structure Copy where
  tick : Nat
  obsLate : Bool
  missed : Bool
  src : Option (Nat × Nat)
  deriving DecidableEq, Repr

/-- A frame unit outside its registers (R277). -/
structure FrameUnit where
  /-- The coach that holds it (R339). -/
  holder : Option Nat
  /-- VERSION and SEQ latched from each observation slot's header (R279). -/
  hdrVer : SMap Nat
  hdrSeq : SMap Nat
  /-- The frame's tick, whether it is in doubt and late under R279, and whether it is published. -/
  tick : Nat
  doubt : Bool
  obsLate : Bool
  published : Bool
  /-- Most recently published slot and its SRC_SEQ since START_RUN (R282). -/
  last : Option (Nat × Nat)
  /-- Substitutes that have begun: the first is being copied (R281, R283). -/
  copies : List Copy
  deriving DecidableEq, Repr

def FrameUnit.init : FrameUnit :=
  { holder := none, hdrVer := [], hdrSeq := [], tick := 0, doubt := false, obsLate := false, published := true, last := none,
    copies := [] }

/-! ## Host ports, rings and coaches (R290 to R353) -/

/-- The LPDDR5 interface of a port (R291, R316, R317). -/
structure Lpddr where
  /-- It accepts initialisation and training (R354). -/
  available : Bool
  powerDown : Bool
  selfRefresh : Bool
  deepSleep : Bool
  /-- RESET_n is low (R317). -/
  resetLow : Bool
  /-- The frequency set point in force, and mode-register fields: (set point × 256 + mode register) (R293). -/
  fsp : Nat
  mr : SMap Nat
  /-- Bursts that write training has put in the FIFOs, oldest first, at most 8 (R291). -/
  fifo : List (List Byte)
  deriving DecidableEq, Repr

/-- A command the dispatcher has taken (R329, R335). -/
structure Taken where
  seq : Nat
  bytes : List Byte
  /-- When it was taken (R335). -/
  time : Nat
  deriving DecidableEq, Repr

/-- A command that has started and completes later. -/
structure Running where
  op : Nat
  coach : Nat
  coachByte : Nat
  tag : Nat
  seq : Nat
  /-- When it started, and a number its completion needs. -/
  time : Nat
  aux : Nat
  /-- Copies that are still to be made, and the STATUS and DETAIL with which the command completes after the last. -/
  copies : List VatCopy := []
  st : Nat := 0
  detail : Nat := 0
  deriving DecidableEq, Repr

/-- A host port (10_host_ports.md) and its rings (11_commands_and_coaches.md). -/
structure Port where
  lp : Lpddr
  /-- Port loss in force since (R318); its timeout has passed (R319). -/
  loss : Option Nat
  lossDone : Bool
  /-- Reference of the heartbeat timer (R318). -/
  hbRef : Nat
  /-- The write queue: window address and value, oldest first (R312). -/
  wq : List (Nat × Word)
  /-- A fetch in progress: its window address (R307). -/
  fetch : Option Nat
  /-- Shadow store: die × 2^23 + offset (R300), 0 where nothing was captured, and dies whose shadow froze and was not recaptured since
  (R303). -/
  shadow : SMap Word
  frozen : List Nat
  /-- Shadow holding registers per LO offset (R301). -/
  shHold : SMap Word
  /-- Rings in force: CMD, CPL and LOG bases and log sizes (R322). -/
  bases : List Nat
  logs : List Nat
  openSeq : Nat
  ifState : Nat
  ifMajor : Nat
  openResult : Nat
  cmdCons : Nat
  cplProd : Nat
  cplCons : Nat
  logProd : Nat
  logCons : Nat
  logLost : Nat
  cmdDiscard : Nat
  updateSeq : Nat
  /-- Commands taken and not started: lane 0–3 coach, 4 device (R335). -/
  lanes : SMap (List Taken)
  running : List Running
  /-- The data the port last drove on its bus. -/
  rdata : List Byte
  /-- A loss has lasted HP_LOSS_TIMEOUT and the device is not yet reopened (R319). -/
  lossStop : Bool
  /-- CMD_PROD as it stood when the host asked for a device open that is not yet made (R324). -/
  openProd : Nat
  /-- OPEN_SEQ was changed since the last device open (R324). -/
  openAsked : Bool
  deriving DecidableEq, Repr

def Port.init : Port :=
  { lp := { available := false, powerDown := false, selfRefresh := false, deepSleep := false, resetLow := false, fsp := 0, mr := [], fifo := [] },
    loss := none, lossDone := false, hbRef := 0, wq := [], fetch := none, shadow := [], frozen := [], shHold := [], bases := [],
    logs := [], openSeq := 0, ifState := 0, ifMajor := 0, openResult := 0, cmdCons := 0, cplProd := 0, cplCons := 0, logProd := 0,
    logCons := 0, logLost := 0, cmdDiscard := 0, updateSeq := 0, lanes := [], running := [], rdata := [], lossStop := false,
    openProd := 0, openAsked := false }

/-- Coach states (R341). -/
inductive CoachState where
  | none | opened | running | stopping | stopped | stepping | closing
  deriving DecidableEq, Repr

/-- A coach (R339 to R344). -/
structure Coach where
  state : CoachState
  port : Nat
  rankBase : Nat
  rankLimit : Nat
  rankCount : Nat
  /-- Rank table: core number + 1, 0 for an entry not yet written (R22). -/
  ranks : SMap Nat
  loss : Bool
  snapGen : Nat
  imageId : Nat
  /-- A SWAP_EPOCH has been made (R346, START_RUN). -/
  swapped : Bool
  /-- CLOSE_COACH waits for its drain since (R343). -/
  closeAt : Option Nat
  deriving DecidableEq, Repr

def Coach.init : Coach :=
  { state := .none, port := 0, rankBase := 0, rankLimit := 0, rankCount := 0, ranks := [], loss := false, snapGen := 0, imageId := 0,
    swapped := false, closeAt := none }
/-! ## Firmware, the log and the crock (R400 to R431) -/

/-- A log record (R331, R408): package-wide sequence, KIND, time, body, and the coach it concerns, 4 for the device. -/
structure LogRec where
  seq : Nat
  kind : Nat
  time : Nat
  body : List Byte
  coach : Nat
  deriving DecidableEq, Repr

/-- What a firmware image's header says (R418), and the hash of the image: the digest that every die latches (R406). -/
structure Image where
  svn : Nat
  ver : Nat
  ifMin : Nat
  ifMax : Nat
  hash : Nat
  /-- Bytes of the image. -/
  len : Nat
  deriving DecidableEq, Repr

/-- An activation that runs (R429): the slot on trial, when the last firmware restart ended, and the port of the FW_ACTIVATE that it
completes, none for one that was deferred (R430). -/
structure Activation where
  slot : Nat
  last : Option Nat
  port : Option Nat
  /-- Dies whose firmware has still to restart from the image, in order. -/
  due : List Nat
  /-- The image in force before, whether it came from the host, and its bytes. -/
  old : Image
  oldHost : Bool
  oldBytes : List Byte
  /-- The trial has failed, and the dies that are due restart from the image that was in force before. -/
  back : Bool
  deriving DecidableEq, Repr

/-- Firmware (14_firmware_and_security.md), beyond the FW and SEC registers. -/
structure FwState where
  /-- The firmware log: the latest 16,384 records, oldest first (R409), and the next sequence number. -/
  log : List LogRec
  nextSeq : Nat
  /-- Records on their way to a port's log ring, oldest first (R331). -/
  queued : SMap (List LogRec)
  /-- Trace records forwarded for a coach: millisecond and count in it (R410). -/
  fwd : SMap (Nat × Nat)
  /-- Times of the restarts of a processor in the last 10 minutes, latest first: die × 5 + 0 for the coachman, 1–4 for the ostlers. -/
  restarts : SMap (List Nat)
  /-- What a restart in progress came from, by die × 5 + processor: 0 trap, 1 watchdog, 2 CRC, 3 command (R408). -/
  cause : SMap Nat
  /-- When the firmware of a processor started, by die × 5 + processor: its watchdog was serviced no earlier (R403). -/
  served : SMap Nat
  /-- Components that are down: die × 2 + 0 for the fault handler, 1 for the log component (R405). -/
  compDown : List Nat
  /-- Dies whose image copy is corrupt (R402, R406). -/
  badCopy : List Nat
  /-- The image in force (R360), none before START_FW. -/
  image : Option Image
  /-- The slot or host image that VERIFY_FW chose: 0 A, 1 B, 2 host (R360, R364). -/
  chosen : Option (Nat × Image)
  act : Option Activation
  /-- When the last emergency ended, while none is in force (R430). -/
  quiet : Nat
  /-- Dies that the master die's firmware owes a die warm reset (R395, R407). -/
  resetDue : List Nat
  /-- The debug level was above 0 since reset (R420). -/
  debugged : Bool
  deriving DecidableEq, Repr

def FwState.init : FwState :=
  { log := [], nextSeq := 0, queued := [], fwd := [], restarts := [], cause := [], served := [], compDown := [], badCopy := [], image := none, chosen := none,
    act := none, quiet := 0, resetDue := [], debugged := false }

/-- What the crock keeps across every reset, beside its slots' and checkpoints' bytes (R366, R422, R460). -/
structure Crock where
  /-- The defect list: entries of R366, oldest first. -/
  defects : List Nat
  /-- Slot states A and B (R428), and the slot in force. -/
  slotA : Nat
  slotB : Nat
  active : Nat
  /-- Accepted images of the slots. -/
  imageA : Option Image
  imageB : Option Image
  /-- The anti-rollback counter (R421). -/
  arc : Nat
  /-- Bytes of the identity certificate, 0 for none. -/
  certLen : Nat
  /-- The crock is blank; the identity it is enrolled for (R419, R427). -/
  blank : Bool
  enrol : Nat
  /-- What the wear record and the checkpoint directory hold for the CR registers, by offset: kept over resets until READ_CROCK. -/
  saved : List (Nat × Nat)
  /-- The wear record: erases of each sector (R422). -/
  erases : SMap Nat
  /-- The spare sector that stands for one that failed to erase or program, plus 1 (R422). -/
  spareMap : SMap Nat
  /-- The sectors of the checkpoint area that each checkpoint slot's stream lies in, in order (R424). -/
  ckpt : SMap (List Nat)
  deriving DecidableEq, Repr

def Crock.init : Crock :=
  { defects := [], slotA := 0, slotB := 0, active := 0, imageA := none, imageB := none, arc := 0, certLen := 0, blank := true,
    enrol := 0, saved := [], erases := [], spareMap := [], ckpt := [] }

/-! ## Bring-up (R354 to R376) -/

/-- Figures of a block kind (R365). -/
structure KindFig where
  tested : Nat
  failed : Nat
  ka : Nat
  bist : Nat
  kaTime : Nat
  bistTime : Nat
  deriving DecidableEq, Repr

/-- The durations of the seven stages of a die's last re-bring in µs, and the known-answer coverage of kinds 0 to 4 in 0.01 % (R375). -/
structure Rebring where
  stages : List Nat
  coverage : List Nat
  deriving DecidableEq, Repr

/-- The bring-up controller, beyond the BU registers. -/
structure BringUp where
  /-- PERST_N is high, and when it rose, or when WAKE_N fell. -/
  perst : Bool
  since : Nat
  /-- When PERST_N rose (R480). -/
  perstAt : Nat
  /-- When the running step started, whether what it runs has been started; its result so far, cause and die (R358, R359). -/
  start : Nat
  begun : Bool
  result : Nat
  cause : Nat
  causeDie : Nat
  /-- Physical cores that are isolated (R363, R368). -/
  isolated : List Nat
  /-- Entries found in this start (R366). -/
  found : List Nat
  /-- TEST_MEMORY has completed (R356). -/
  tested : Bool
  /-- Figures of the block kinds (R365). -/
  kinds : SMap (Option KindFig)
  /-- Each die's last re-bring (R375). -/
  rebrung : SMap (Option Rebring)
  /-- SAFE_RELEASE waits for firmware (R373). -/
  safeDue : Bool
  deriving DecidableEq, Repr

def BringUp.init : BringUp :=
  { perst := false, since := 0, perstAt := 0, start := 0, begun := false, result := 0, cause := 0, causeDie := 0, isolated := [], found := [], tested := false,
    kinds := [], rebrung := [], safeDue := false }

/-! ## Power states and pins (R439 to R483) -/

/-- Where the package stands on the way into HOLD (R450). -/
inductive HoldPhase where
  | run | entering | hold
  deriving DecidableEq, Repr

structure Power where
  phase : HoldPhase
  /-- When ENTER_HOLD completed. -/
  since : Nat
  /-- The retention selection: banks (die × 64 + bank), core numbers, and the physical cores that hold them (R449). -/
  banks : List Nat
  cores : List (Nat × Nat)
  /-- WAKE_N went low during entry (R453). -/
  wakeDue : Bool
  /-- Memories held for the bring-up port: physical cores and banks (R454). -/
  heldCores : List Nat
  heldBanks : List Nat
  /-- When the entry in force last moved, and when the conditions of R444 last failed. -/
  lastStep : Nat
  overAt : Nat
  /-- An emergency has ended and the entry in force is on its way back to the ceiling (R445). -/
  recovering : Bool
  /-- When the pending switch of a clock domain began, die × 8 + domain (R436). -/
  switches : SMap Nat
  /-- The CHK clock of each die, latest change first; none while its frequency has not changed since reset (R435, R441, R442). -/
  chk : SMap (List ChkSeg)
  /-- A step of R441 is due: when it is applied, and whether it goes to a lower index. -/
  step : Option (Nat × Bool)
  /-- The voltage in mV that the AVSBus link last asked the VCORE regulator for; none until the first step (R470). -/
  vcore : Option Nat
  /-- The reset of R447 holds until the supplies are removed. -/
  thermtrip : Bool
  deriving DecidableEq, Repr

def Power.init : Power :=
  { phase := .run, since := 0, banks := [], cores := [], wakeDue := false, heldCores := [], heldBanks := [], lastStep := 0, overAt := 0,
    recovering := false, switches := [], chk := [], step := none, vcore := none, thermtrip := false }

/-- Pins and sideband targets (R465, R469, R480 to R483). -/
structure Pins where
  vcoreEn : Bool
  smbAlert : Bool
  /-- What the SMBus target last answered; none for no acknowledge. -/
  smbAnswer : Option (List Byte)
  /-- CROCK_DET_N is low. -/
  crockDet : Bool
  /-- The TAP's instruction register, and the boundary register as last captured or preloaded (R482). -/
  ir : Nat
  /-- The data register as the instruction last captured it: identification or bypass. -/
  tdr : Nat
  boundary : List Bool
  /-- The pins as SAMPLE last captured them, in the order of the boundary register (R482). -/
  sampled : List Bool
  /-- Instruction and data register of the TAPs of the other dies, chained behind the master die's (R482). -/
  chain : SMap (Nat × Nat)
  /-- Dies whose PSRAM has its reset HRd_RESET_N released, and CR_RESET_N released (R465). -/
  hrReset : List Nat
  crReset : Bool
  deriving DecidableEq, Repr

def Pins.init : Pins :=
  { vcoreEn := false, smbAlert := false, smbAnswer := none, crockDet := true, ir := 1, tdr := 0, boundary := [], sampled := [], chain := [],
    hrReset := [], crReset := false }


/-! ## The whole package -/

/-- A trace record in a die's FIFO (R410): the coach, the KIND of R408, its body and when it was made. -/
structure TraceRec where
  coach : Nat
  kind : Nat
  body : List Byte
  time : Nat
  deriving DecidableEq, Repr

/-- Everything the spec gives the package but its straps and time-base copies. -/
structure Dev where
  /-- Registers by `Reg.key`; an unlisted register holds its reset value. -/
  regs : SMap Word
  /-- Holding registers of LO/HI pairs, by requester and pair (R35). -/
  latch : SMap Word
  /-- The value each requester last read (log entry 2). -/
  rdata : SMap Word
  /-- Memory by the model's address (Ops.lean); an unlisted byte reads 0 (log entry 4). -/
  mem : SMap Byte
  /-- The model's own: free values taken so far (log entry 5). -/
  freeCtr : Nat
  tick : TickState
  /-- Records on the pail buses, oldest first (R212). -/
  bus : List SpikeRec
  cores : SMap Core
  fab : Fabric
  place : Placement
  flt : FaultState
  churns : SMap Churn
  net : NetState
  seps : SMap Sep
  fus : SMap FrameUnit
  ports : SMap Port
  coaches : SMap Coach
  /-- Trace FIFOs by die (R410). -/
  traces : SMap (List TraceRec)
  fw : FwState
  crock : Crock
  bu : BringUp
  pw : Power
  pins : Pins
  /-- Dies in a die warm reset or its re-bring (R375, R457). -/
  dieDown : List Nat
  deriving DecidableEq, Repr

/-- The machine: straps, time base, the rest of the package, and the commands that wait, first in, first out. -/
structure State where
  hw : Straps
  clk : Clock
  dev : Dev
  pending : List Instr
  deriving DecidableEq, Repr

/-- What stops the machine. -/
inductive Fault where
  /-- Raised by a meaning whose operands no bus, pin or command entry could carry (WellFormed.lean): safe, the machine stops where
  the hardware has nothing to do. -/
  | illFormed
  deriving DecidableEq, Repr

/-- What the model refuses. -/
inductive Refusal where
  /-- Raised by Dispatch.lean for a command without a meaning: safe. -/
  | notModelled (mnemonic : String)
  deriving DecidableEq, Repr

/-! ## Reset -/

/-- The power limit of a part (R18). -/
def partTdp : Part → Nat
  | .vn2_8 => 1100
  | .vn2_4 => 560
  | .vn2_2 => 290

/-- PM_LIMIT of die `m`, as a register. -/
def limitReg (m : Nat) : Reg := dieReg m 0x170004

/-- Everything at its reset value (R11, R456, R460): every register but PM_LIMIT of the master die `m` at the value of its table, and
every other piece empty or idle. -/
def Dev.init (part : Part) (m : Nat) : Dev :=
  { regs := SMap.set 0 [] ((limitReg m).off + 0x1000000 * (2 * (limitReg m).idx)) (w32 (partTdp part)), latch := [], rdata := [], mem := [], freeCtr := 0,
    tick := { gens := [], badSync := [], goodSync := [], lastSync := [], lastSlew := [], cmp := [], cap := [], capPast := [], halted := [], haltAt := [], paused := [], pulse := [], irq := [] },
    bus := [], cores := [],
    fab := { routes := [], groups := [], ifaces := [], flights := [], nextPid := 0, droute := [], staged := [], rr := [], hubs := [], cplRec := [] },
    place := { built := false, place := [], number := [], fenced := [], spare := [], spareUsed := [], last := [] },
    flt := { slots := [], agg := [], heldQ := [], sel := [], factory := false, blocks := [], usSeen := [], margins := [], ucDue := [] },
    churns := [],
    net := { active := [], inactive := [], armed := [], frames := [], signals := [], flagTimes := [], joinIn := [], joinOut := [], egress := [],
             ingress := [], released := [], recentWr := [], recentRd := [], recentTake := [], resumed := [], vatWait := [], vatServed := [], vatRead := [],
             fencedBanks := [], rowsUsed := [], downMods := [], pausedMods := [], ttRepairs := [] },
    seps := [], fus := [], ports := [], coaches := [], traces := [], fw := FwState.init, crock := Crock.init, bu := BringUp.init,
    pw := Power.init, pins := Pins.init, dieDown := [] }

/-- The machine right after a power-on reset, with its straps low: a VN2-8 (log entry 2). Every value the spec states for reset is in
the register table; the queue is empty. -/
def State.reset : State :=
  { hw := ⟨.vn2_8, false, false, 0⟩, clk := ⟨[], []⟩, dev := Dev.init .vn2_8 0, pending := [] }

end Sys2Proof.Machine
end

