-- ==== Sys2Proof/Machine/Ops.lean ====
section
/-! DEFINITION. The named operations over the state: the environment a meaning reads, registers, counters, memory, the parts of `Dev`,
placement and ownership. Every meaning is written over these. -/
namespace Sys2Proof.Machine

open Sys2Proof

/-! ## The environment -/

/-- What a meaning reads and only four rows write: the straps and the time base. -/
structure Env where
  hw : Straps
  clk : Clock
  deriving DecidableEq, Repr

def State.env (s : State) : Env := ⟨s.hw, s.clk⟩

/-- The state with the rest of the package changed: the shape of every meaning that leaves straps and time base alone. -/
def State.onDev (s : State) (f : Env → Dev → Dev) : State := { s with dev := f s.env s.dev }

/-- Dies of the part (R2, R13). -/
def Env.dies (e : Env) : Nat := e.hw.part.dies

/-- The master die (R15). -/
def Env.master (e : Env) : Nat := if e.hw.msel then 1 else 0

/-- The die is one of the part's. -/
def Env.has (e : Env) (d : Nat) : Bool := decide (d < e.dies)

/-- A die's copy of the time base (R31, R32). -/
def Clock.now (c : Clock) (d : Nat) : DWord := SMap.get 0 c.tb d

def Env.nowOf (e : Env) (d : Nat) : Nat := (e.clk.now d).toNat

/-- The master time base. -/
def Env.now (e : Env) : Nat := e.nowOf e.master

/-- The die is a follower of the part. -/
def Env.follower (e : Env) (d : Nat) : Bool := e.has d && decide (d ≠ e.master)

/-- The dies of the part, in order. -/
def Env.dieList (e : Env) : List Nat := List.range e.dies

/-- Usable core numbers of the part: 2,048 for each die (R16, R131). -/
def Env.cores (e : Env) : Nat := e.dies * 2048

/-- The die, tile and slot of a physical core's number. -/
def pDie (p : Nat) : Nat := p / 2112
def pLocal (p : Nat) : Nat := p % 2112
def pTile (p : Nat) : Nat := p % 2112 / 33
def pSlot (p : Nat) : Nat := p % 33
def pMake (d t s : Nat) : Nat := d * 2112 + t * 33 + s

/-- The die and unit of a host port: HP0 and HP1 on D0, HP2 and HP3 on D1 (R15). -/
def portDie (p : Nat) : Nat := p / 2
def portUnit (p : Nat) : Nat := p % 2

/-- Combinators for conditions of events: an event whose condition does not hold leaves the state as it is (log entry 7). -/
def onlyIf (c : Bool) (f : Dev → Dev) (v : Dev) : Dev := if c then f v else v

/-! ## Registers -/

/-- One number for each register. -/
def Reg.key (r : Reg) : Nat := r.off + 0x1000000 * (2 * r.idx + b2n r.core)

/-- The value a register holds; a register nothing has written holds its reset value. -/
def Dev.rd (v : Dev) (r : Reg) : Word := SMap.get (regReset r) v.regs r.key

def Dev.wr (v : Dev) (r : Reg) (x : Word) : Dev := { v with regs := SMap.set (regReset r) v.regs r.key x }

def Dev.rdN (v : Dev) (r : Reg) : Nat := (v.rd r).toNat
def Dev.wrN (v : Dev) (r : Reg) (n : Nat) : Dev := v.wr r (w32 n)
def Dev.fd (v : Dev) (r : Reg) (lo len : Nat) : Nat := fld (v.rd r) lo len
def Dev.fb (v : Dev) (r : Reg) (i : Nat) : Bool := bit (v.rd r) i
def Dev.setF (v : Dev) (r : Reg) (lo len x : Nat) : Dev := v.wr r (setFld (v.rd r) lo len x)
def Dev.setB (v : Dev) (r : Reg) (i : Nat) (b : Bool) : Dev := v.wr r (setBit (v.rd r) i b)

/-- A 32-bit counter after `k` more: it saturates (R57, R102). -/
def Dev.inc (v : Dev) (r : Reg) (k : Nat) : Dev := v.wr r (satAdd32 (v.rd r) k)

/-- A LO/HI pair as one number. -/
def Dev.rd64 (v : Dev) (lo hi : Reg) : Nat := v.rdN lo + 0x100000000 * v.rdN hi
def Dev.wr64 (v : Dev) (lo hi : Reg) (n : Nat) : Dev := (v.wrN lo n).wrN hi (n / 0x100000000)

/-- A 64-bit saturating counter. -/
def Dev.inc64 (v : Dev) (lo hi : Reg) (k : Nat) : Dev := v.wr64 lo hi (min (v.rd64 lo hi + k) 0xFFFFFFFFFFFFFFFF)

/-- The register at its reset value. -/
def Dev.resetReg (v : Dev) (r : Reg) : Dev := { v with regs := SMap.erase v.regs r.key }

/-- The counters of a list cleared. -/
def Dev.clearRegs (v : Dev) (l : List Reg) : Dev := l.foldl (fun v r => v.wr r 0) v

/-! ## Free values -/

/-- The next free value (Config.free), and the state with the counter advanced (log entry 5). -/
def Dev.takeFree (v : Dev) : Nat × Dev := (Config.free v.freeCtr, { v with freeCtr := v.freeCtr + 1 })

/-! ## Memory -/

/-- The model's address of a byte of a physical core's local memory: above the map of R23, because core space is indexed by core
number and reached through the placement table (R24). -/
def coreMem (p off : Nat) : Nat := 0x1000000000000 + p * 0x40000 + off

/-- The model's address of a byte of a core's program store. -/
def progMem (p off : Nat) : Nat := 0x4000000000000 + p * 0x4000 + off

/-- Internal addresses of R23. -/
def dieSpace (d : Nat) : Nat := 0x100000000000 + d * 0x10000000000
def vatMem (d off : Nat) : Nat := dieSpace d + off
def sramMem (p off : Nat) : Nat := dieSpace (portDie p) + 0x1000000000 + portUnit p * 0x2000000 + off
def psramMem (d off : Nat) : Nat := dieSpace d + 0x2000000000 + off
/-- The model's address of a byte of the crock, by its offset in the module (R422). -/
def crockRaw (off : Nat) : Nat := 0x3000000000000 + off
/-- A byte of sector `s` of the crock's checkpoint area. -/
def crockMem (s off : Nat) : Nat := crockRaw (0x6000000 + s * 0x10000 + off)

def Dev.ld (v : Dev) (a : Nat) : Byte := SMap.get 0 v.mem a

/-- `n` bytes from `a`. -/
def Dev.ldBytes (v : Dev) (a n : Nat) : List Byte := (List.range n).map (fun i => v.ld (a + i))

/-- The little-endian number in `n` bytes from `a`. -/
def Dev.ldN (v : Dev) (a n : Nat) : Nat := ofLeBytes (v.ldBytes a n)

/-- Bytes stored from `a` upward. -/
def Dev.st (v : Dev) (a : Nat) : List Byte → Dev
  | [] => v
  | b :: bs => Dev.st { v with mem := SMap.set 0 v.mem a b } (a + 1) bs

/-- A number stored in `n` little-endian bytes. -/
def Dev.stN (v : Dev) (a n x : Nat) : Dev := v.st a (leBytes n x)

/-- The memory without any entry of a range: every byte of it reads as a byte that nothing has written. -/
def Dev.clearMem (v : Dev) (a n : Nat) : Dev :=
  { v with mem := v.mem.filter (fun e => decide (e.1 < a) || decide (a + n ≤ e.1)) }

/-- The canonical form of the memory. -/
abbrev Memory.wf (m : SMap Byte) : Prop := SMap.sorted m = true ∧ SMap.noDefault (fun _ => 0) m = true

/-! ## Parts of the package -/

def Dev.gen (v : Dev) (g : Nat) : TickGen := SMap.get TickGen.init v.tick.gens g
def Dev.modGen (v : Dev) (g : Nat) (f : TickGen → TickGen) : Dev :=
  { v with tick := { v.tick with gens := SMap.set TickGen.init v.tick.gens g (f (v.gen g)) } }

def Dev.core (v : Dev) (p : Nat) : Core := SMap.get Core.init v.cores p
def Dev.modCore (v : Dev) (p : Nat) (f : Core → Core) : Dev :=
  { v with cores := SMap.set Core.init v.cores p (f (v.core p)) }

def Dev.churn (v : Dev) (d c : Nat) : Churn := SMap.get Churn.init v.churns (d * 4 + c)
def Dev.modChurn (v : Dev) (d c : Nat) (f : Churn → Churn) : Dev :=
  { v with churns := SMap.set Churn.init v.churns (d * 4 + c) (f (v.churn d c)) }

def Dev.sep (v : Dev) (d k : Nat) : Sep := SMap.get Sep.init v.seps (d * 16 + k)
def Dev.modSep (v : Dev) (d k : Nat) (f : Sep → Sep) : Dev :=
  { v with seps := SMap.set Sep.init v.seps (d * 16 + k) (f (v.sep d k)) }

def Dev.fu (v : Dev) (p : Nat) : FrameUnit := SMap.get FrameUnit.init v.fus p
def Dev.modFu (v : Dev) (p : Nat) (f : FrameUnit → FrameUnit) : Dev :=
  { v with fus := SMap.set FrameUnit.init v.fus p (f (v.fu p)) }

def Dev.port (v : Dev) (p : Nat) : Port := SMap.get Port.init v.ports p
def Dev.modPort (v : Dev) (p : Nat) (f : Port → Port) : Dev :=
  { v with ports := SMap.set Port.init v.ports p (f (v.port p)) }

def Dev.coach (v : Dev) (g : Nat) : Coach := SMap.get Coach.init v.coaches g
def Dev.modCoach (v : Dev) (g : Nat) (f : Coach → Coach) : Dev :=
  { v with coaches := SMap.set Coach.init v.coaches g (f (v.coach g)) }

def Dev.iface (v : Dev) (k : Nat) : Iface := SMap.get Iface.init v.fab.ifaces k
def Dev.modIface (v : Dev) (k : Nat) (f : Iface → Iface) : Dev :=
  { v with fab := { v.fab with ifaces := SMap.set Iface.init v.fab.ifaces k (f (v.iface k)) } }

def Dev.frame (v : Dev) (g : Nat) : Option Frame := SMap.get none v.net.frames g
def Dev.setFrame (v : Dev) (g : Nat) (f : Option Frame) : Dev :=
  { v with net := { v.net with frames := SMap.set none v.net.frames g f } }

def Dev.table (v : Dev) (d g : Nat) : Option DieTable := SMap.get none v.net.active (d * 4 + g)

def Dev.modNet (v : Dev) (f : NetState → NetState) : Dev := { v with net := f v.net }
def Dev.modFab (v : Dev) (f : Fabric → Fabric) : Dev := { v with fab := f v.fab }
def Dev.modTick (v : Dev) (f : TickState → TickState) : Dev := { v with tick := f v.tick }
def Dev.modPlace (v : Dev) (f : Placement → Placement) : Dev := { v with place := f v.place }
def Dev.modFlt (v : Dev) (f : FaultState → FaultState) : Dev := { v with flt := f v.flt }

/-! ## Holding registers (R35) -/

/-- The number of a requester: ports 0–3, coachmen 8–15, ostlers 16–47, debug port 48, monitors 64–71, engines 80–83. -/
def partyNum : Party → Nat
  | .port p => p.val
  | .coachman d => 8 + d.val
  | .ostler d k => 16 + 4 * d.val + k.val
  | .debug => 48
  | .monitor d => 64 + d.val
  | .engine p => 80 + p.val

/-- Key of the holding register of a requester for the pair whose LO register is `lo`. -/
def latchKey (who : Party) (lo : Reg) : Nat := lo.key * 128 + partyNum who

def Dev.setLatch (v : Dev) (who : Party) (lo : Reg) (x : Word) : Dev :=
  { v with latch := SMap.set 0 v.latch (latchKey who lo) x }
def Dev.getLatch (v : Dev) (who : Party) (lo : Reg) : Word := SMap.get 0 v.latch (latchKey who lo)

/-- Work on a die ends its IDLE state (R448). -/
def Dev.awake (v : Dev) (d : Nat) : Dev := if v.fb (PM_STATUS d) 0 then v.setB (PM_STATUS d) 0 false else v

/-- A source of a domain runs: REFCLK, or its PLL while it is enabled. -/
def sourceRuns (v : Dev) (d p : Nat) (pll : Bool) : Bool := !pll || v.fb (CK_PLL_EN d) p

/-- Domain `p` of die `d` stands still: it is held in reset, or gets no clock, because its source has stopped or because a switch is pending
to a source that does not run (R435, R436). -/
def Dev.still (v : Dev) (d p : Nat) : Bool :=
  v.fb (CK_SEL d) (16 + p) || !sourceRuns v d p (v.fb (CK_STATUS d) (8 + p))
    || (v.fb (CK_STATUS d) (16 + p) && !sourceRuns v d p (v.fb (CK_SEL d) p))

/-- The work of a block of domain `p` of die `d`: nothing while the domain stands still (R436). Domains are numbered as in CK_SEL: CHK 0, NCK 1,
FCK 2, MCK 3, TBK 4, PER 5. -/
def State.onClk (s : State) (d p : Nat) (f : Env → Dev → Dev) : State := s.onDev (fun env v => if v.still d p then v else f env v)

/-- Dies that run: those of the part that are not in a die warm reset (R457). -/
def Dev.liveDies (v : Dev) (env : Env) : List Nat := env.dieList.filter (fun d => !v.dieDown.contains d)

/-- Every die that runs has closed the tick, or passed its pail instant (R48). -/
def CurTick.closed (c : CurTick) (env : Env) (v : Dev) : Bool := (v.liveDies env).all (fun d => c.closedOn.contains d)
def CurTick.pailed (c : CurTick) (env : Env) (v : Dev) : Bool := (v.liveDies env).all (fun d => c.pailedOn.contains d)

def Dev.cmpCh (v : Dev) (d c : Nat) : CmpChan := SMap.get CmpChan.init v.tick.cmp (d * 64 + c)
def Dev.modCmp (v : Dev) (d c : Nat) (f : CmpChan → CmpChan) : Dev :=
  v.modTick (fun t => { t with cmp := SMap.set CmpChan.init t.cmp (d * 64 + c) (f (v.cmpCh d c)) })

/-! ## Placement and ownership -/

/-- The physical core that holds a core number, fenced or not. -/
def Dev.placeOf (v : Dev) (n : Nat) : Option Nat :=
  match SMap.get 0 v.place.place n with
  | 0 => none
  | k + 1 => some k

/-- The physical core on which a core number of the part's range is placed, fenced or not (R213). -/
def Dev.placedOn (v : Dev) (env : Env) (n : Nat) : Option Nat := if n < env.cores then v.placeOf n else none

/-- The core number that a physical core holds. -/
def Dev.numberOf (v : Dev) (p : Nat) : Option Nat :=
  match SMap.get 0 v.place.number p with
  | 0 => none
  | k + 1 => some k

def Dev.isFenced (v : Dev) (p : Nat) : Bool := v.place.fenced.contains p

/-- The core an access by core number reaches (R24): none outside the part's range, unplaced or fenced. -/
def Dev.reach (v : Dev) (env : Env) (n : Nat) : Option Nat :=
  match v.placeOf n with
  | some p => if n < env.cores && !v.isFenced p then some p else none
  | none => none

def Dev.isOpen (v : Dev) (g : Nat) : Bool := decide ((v.coach g).state ≠ CoachState.none)

/-- The core number lies in the coach's range (R339). -/
def Dev.inRange (v : Dev) (g n : Nat) : Bool :=
  v.isOpen g && decide ((v.coach g).rankBase ≤ n) && decide (n ≤ (v.coach g).rankLimit)

/-- The coach whose range holds a core number. -/
def Dev.coachOfNumber (v : Dev) (n : Nat) : Option Nat := (List.range 4).find? (fun g => v.inRange g n)

/-- Core numbers of a coach that are placed, with their physical cores. -/
def Dev.coachCores (v : Dev) (g : Nat) : List (Nat × Nat) :=
  (v.place.place.filter (fun e => v.inRange g e.1)).map (fun e => (e.1, e.2 - 1))

/-- Owner field of a register word with COACH in [9:8] and OWNED in [10]: 4 for none (NC_CTRL, CHN_CTRL, SP_CTRL). -/
def ownerField (w : Word) : Nat := if bit w 10 then fld w 8 2 else 4

/-- The register word with its owner set, or none for 4. -/
def setOwnerField (w : Word) (g : Nat) : Word :=
  if g < 4 then setBit (setFld w 8 2 g) 10 true else setBit (setFld w 8 2 0) 10 false

def Dev.coreOwner (v : Dev) (p : Nat) : Nat := ownerField (v.rd (NC_CTRL p))
def Dev.churnOwner (v : Dev) (d c : Nat) : Nat := ownerField (v.rd (CHN_CTRL d c))
def Dev.sepOwner (v : Dev) (d k : Nat) : Nat := ownerField (v.rd (SP_CTRL d k))

def Dev.enabled (v : Dev) (p : Nat) : Bool := v.fb (NC_CTRL p) 0

/-- The coach owns a three-bit owner field of a word, some field of the list of bit positions. -/
def ownsField (w : Word) (g : Nat) (lows : List Nat) : Bool := lows.any (fun lo => fld w lo 3 == g)

/-- The coach owns resources on the die (R34, R157, R395): cores, churns, separators, vat ports, timetable ends or quarters,
join units, or the frame unit of a port of the die (R339). -/
def Dev.ownsOnDie (v : Dev) (g d : Nat) : Bool :=
  v.isOpen g && ((v.coachCores g).any (fun e => pDie e.2 == d)
    || (List.range 4).any (fun c => v.churnOwner d c == g)
    || (List.range 16).any (fun k => v.sepOwner d k == g)
    || (List.range 16).any (fun k => v.fb (VAT_SET d k) 31 && ownsField (v.rd (VAT_SET d k)) g [12, 16])
    || ownsField (v.rd (SN_OWN_VR d)) g [0, 3, 6, 9, 12, 15, 18, 21]
    || ownsField (v.rd (SN_OWN_VWJ d)) g [0, 3, 6, 9, 12, 15, 18, 21]
    || ownsField (v.rd (SN_OWN_SP d)) g [0, 3, 6, 9, 12, 15, 18, 21]
    || (List.range 4).any (fun k => ownsField (v.rd (SN_OWN_CPL d k)) g [0, 3, 6, 9])
    || (List.range 4).any (fun p => portDie p == d && (v.fu p).holder == some g))

/-- The coaches that own resources on a die; the device (4) when there is none (R378). -/
def Dev.ownersOn (v : Dev) (d : Nat) : List Nat :=
  match (List.range 4).filter (fun g => v.ownsOnDie g d) with
  | [] => [4]
  | l => l

/-! ## Vat and port SRAM by CHK cycle (R234, R237, R241) -/

/-- The CHK frequencies that a die has had since reset, latest first. -/
def Dev.chkSegs (v : Dev) (d : Nat) : List ChkSeg := match SMap.get [] v.pw.chk d with
  | [] => [⟨0, 0, v.fd (dieReg d 0x160010) 0 16⟩]
  | l => l

/-- The CHK time of die `d` at a value of its copy of the time base, in thousandths of a cycle (R442). -/
def Dev.chkAt (v : Dev) (d t : Nat) : Nat := match (v.chkSegs d).find? (fun s => decide (s.since ≤ t)) with
  | some s => s.units + (t - s.since) * s.mhz
  | none => 0

/-- The CHK cycle of a CHK time. -/
def chkCycle (u : Nat) : Nat := u / 1000

/-- The CHK cycle that runs on a die. -/
def Dev.cycle (env : Env) (v : Dev) (d : Nat) : Nat := chkCycle (v.chkAt d (env.nowOf d))

/-- Domain `p` of a die runs at a frequency in MHz from now on: CK_FREQ, and for CHK the CHK time (R435, R441, R442). -/
def setFreq (env : Env) (d p mhz : Nat) (v : Dev) : Dev :=
  let v := if p = 0 then
      { v with pw := { v.pw with chk := SMap.set [] v.pw.chk d (⟨env.nowOf d, v.chkAt d (env.nowOf d), mhz⟩ :: v.chkSegs d) } }
    else v
  v.wrN (dieReg d (0x160010 + 4 * p)) (mhz * 0x10001)

/-- The clock of a domain glides to a frequency: CK_FREQ shows it as its target (R441). -/
def setTarget (d p mhz : Nat) (v : Dev) : Dev := v.setF (dieReg d (0x160010 + 4 * p)) 16 16 mhz

/-- The die of a model address of a vat or of port SRAM. -/
def memDie (a : Nat) : Nat := (a - dieSpace 0) / 0x10000000000

/-- Bytes from `a` with those that a write replaced put back. -/
def undoWrite (a : Nat) (bs : List Byte) (w : RecentWrite) : List Byte :=
  (List.range bs.length).map (fun i =>
    if w.addr ≤ a + i ∧ a + i < w.addr + w.old.length then w.old.getD (a + i - w.addr) 0 else bs.getD i 0)

/-- `n` bytes of a vat or of port SRAM as they stand at the start of a CHK cycle: writes of that cycle and of later ones are put back. -/
def Dev.ldCycle (v : Dev) (cyc a n : Nat) : List Byte :=
  (v.net.recentWr.filter (fun w => decide (cyc ≤ w.cyc))).foldl (undoWrite a) (v.ldBytes a n)

/-- A write made again over the memory as it stands. -/
def redoWrite (v : Dev) (w : RecentWrite) : Dev :=
  let v' := v.st w.addr w.data
  v'.modNet (fun n => { n with recentWr := { w with old := v.ldBytes w.addr w.data.length } :: n.recentWr })

/-- A write to a vat or to port SRAM in a CHK cycle, in the place `rank` among the writes of that cycle: writes that come after it in that
order stand over it, whichever was made first here. -/
def Dev.stCycle (cyc rank a : Nat) (bs : List Byte) (v : Dev) : Dev :=
  let after (w : RecentWrite) : Bool := memDie w.addr == memDie a && decide (4 * cyc + rank < 4 * w.cyc + w.rank)
  let later := v.net.recentWr.filter after
  let kept := v.net.recentWr.filter (fun w => !after w && (memDie w.addr != memDie a || decide (cyc ≤ w.cyc + 40)))
  let v := (later.foldl (fun v w => v.st w.addr w.old) v).modNet (fun n => { n with recentWr := kept })
  later.reverse.foldl redoWrite (redoWrite v ⟨a, cyc, rank, bs, []⟩)

/-- The device writes port SRAM through its internal port (R237). -/
def Dev.stSram (env : Env) (p off : Nat) (bs : List Byte) (v : Dev) : Dev := v.stCycle (v.cycle env (portDie p)) 0 (sramMem p off) bs

end Sys2Proof.Machine
end

