-- ==== Sys2Proof/Machine/CoreMem.lean ====
section
/-! DEFINITION. What lies in a core's local memory (R69, R73, R78, R93, R105, R164) and the core reset (R99, R123, R194). -/
namespace Sys2Proof.Machine

open Sys2Proof

/-- `n` bytes of a core's local memory as a number, 0 beyond its end. -/
def Dev.ldCore (v : Dev) (p off n : Nat) : Nat := if off + n ≤ 0x40000 then v.ldN (coreMem p off) n else 0

/-- A number stored in `n` bytes of a core's local memory; nothing beyond its end. -/
def Dev.stCore (v : Dev) (p off n x : Nat) : Dev := if off + n ≤ 0x40000 then v.stN (coreMem p off) n x else v

/-- A size rounded up to whole 256-byte units (R69). -/
def up256 (n : Nat) : Nat := (n + 255) / 256 * 256

/-! ## State words (R73), axon entries (R78), fan-out entries (R93) -/

def Dev.neurons (v : Dev) (p : Nat) : Nat := v.fd (NC_STATE_CFG p) 16 11
def Dev.stateOff (v : Dev) (p i : Nat) : Nat := v.fd (NC_STATE_CFG p) 0 10 * 256 + 8 * i
def Dev.stateWord (v : Dev) (p i : Nat) : Nat := v.ldCore p (v.stateOff p i) 8
def Dev.setStateWord (v : Dev) (p i w : Nat) : Dev := v.stCore p (v.stateOff p i) 8 w

def swV (w : Nat) : Int := toSigned 24 (fldN w 0 24)
def swRefr (w : Nat) : Nat := fldN w 24 4
def swThr (w : Nat) : Nat := fldN w 28 4
def swGroup (w : Nat) : Nat := fldN w 32 3
def swEn (w : Nat) : Bool := fldN w 35 1 == 1
def swPail (w : Nat) : Bool := fldN w 36 1 == 1
def swMemb (w : Nat) : Bool := fldN w 37 1 == 1
def swPost (w : Nat) : Nat := fldN w 40 8
def swFanout (w : Nat) : Nat := fldN w 48 16

/-- The state word with its V, REFR and POST_TRACE replaced. -/
def swUpdate (w : Nat) (v : Int) (refr post : Nat) : Nat :=
  setFldN (setFldN (setFldN w 0 24 (ofSigned 24 v)) 24 4 refr) 40 8 post

def Dev.axons (v : Dev) (p : Nat) : Nat := v.fd (NC_AXON_CFG p) 16 16
def Dev.axonOff (v : Dev) (p a : Nat) : Nat := v.fd (NC_AXON_CFG p) 0 10 * 256 + 8 * a
def Dev.axonEntry (v : Dev) (p a : Nat) : Nat := v.ldCore p (v.axonOff p a) 8
def Dev.setAxonEntry (v : Dev) (p a w : Nat) : Dev := v.stCore p (v.axonOff p a) 8 w

def axFmt (w : Nat) : Nat := fldN w 0 2
def axRow (w : Nat) : Nat := fldN w 2 16 * 4
def axLen (w : Nat) : Nat := fldN w 18 10 + 1
def axBase (w : Nat) : Nat := fldN w 28 10
def axPlastic (w : Nat) : Bool := fldN w 38 1 == 1
def axPre (w : Nat) : Nat := fldN w 40 8
def axDelta (w : Nat) : Nat := fldN w 48 14

/-- The row's bytes: one for each weight of a dense row, three for each entry of a sparse one (R79, R80). -/
def axBytes (w : Nat) : Nat := if axFmt w = 2 then 3 * axLen w else axLen w

/-- The row lies in the row region (R81). -/
def Dev.rowInside (v : Dev) (p w : Nat) : Bool :=
  let base := v.fd (NC_ROW_CFG p) 0 10 * 256
  decide (base ≤ axRow w) && decide (axRow w + axBytes w ≤ base + v.fd (NC_ROW_CFG p) 16 11 * 256)

/-! ## The plasticity region (R105) -/

def Dev.plBase (v : Dev) (p : Nat) : Nat := v.fd (NC_PL_REGION p) 0 10 * 256
def Dev.plSize (v : Dev) (p : Nat) : Nat := v.fd (NC_PL_REGION p) 16 8 * 256
def Dev.plCount (v : Dev) (p : Nat) : Nat := v.fd (NC_PL_LIST p) 0 11
def Dev.plListOff (v : Dev) (p : Nat) : Nat := v.plBase p + up256 (v.neurons p * 2)
def Dev.plDeltaOff (v : Dev) (p : Nat) : Nat := v.plListOff p + up256 (v.plCount p * 2)
/-- Deltas the delta buffer holds. -/
def Dev.plDeltas (v : Dev) (p : Nat) : Nat := (v.plBase p + v.plSize p - v.plDeltaOff p) / 2
/-- The plastic list. -/
def Dev.plAxons (v : Dev) (p : Nat) : List Nat := (List.range (v.plCount p)).map (fun k => v.ldCore p (v.plListOff p + 2 * k) 2)
def Dev.plTarget (v : Dev) (p i : Nat) : Nat := v.ldCore p (v.plBase p + 2 * i) 2
def Dev.delta (v : Dev) (p k : Nat) : Int := toSigned 16 (v.ldCore p (v.plDeltaOff p + 2 * k) 2)
def Dev.setDelta (v : Dev) (p k : Nat) (x : Int) : Dev := v.stCore p (v.plDeltaOff p + 2 * k) 2 (ofSigned 16 x)

/-! ## Queue headers (R162, R164) -/

def Dev.qBase (v : Dev) (p q : Nat) : Nat := v.fd (QM_Q_REGION p q) 0 10 * 256
def Dev.qRing (v : Dev) (p q : Nat) : Nat := 512 * 2 ^ v.fd (QM_Q_REGION p q) 16 3
def Dev.qMode (v : Dev) (p q : Nat) : Nat := v.fd (QM_Q_CTRL p q) 1 2
def Dev.qOpen (v : Dev) (p q : Nat) : Bool := v.fb (QM_Q_CTRL p q) 0
def Dev.qWr (v : Dev) (p q : Nat) : Nat := v.ldCore p (v.qBase p q) 4
def Dev.qStatus (v : Dev) (p q : Nat) : Nat := v.ldCore p (v.qBase p q + 4) 4
def Dev.qRd (v : Dev) (p q : Nat) : Nat := v.ldCore p (v.qBase p q + 8) 4

/-- A queue marked closed in its registers and its header; its ring stays (R163). -/
def closeQueue (p : Nat) (v : Dev) (q : Nat) : Dev :=
  if v.qOpen p q then
    let v := v.stCore p (v.qBase p q + 4) 4 (setFldN (v.qStatus p q) 16 1 0)
    (v.setB (QM_Q_CTRL p q) 0 false).setB (QM_STATUS p) q false
  else v

/-! ## Counters of a core -/

/-- The counters of R102. -/
def ncCounters (p : Nat) : List Reg :=
  [NC_EVENTS_IN_LO p, NC_EVENTS_IN_HI p, NC_SYNOPS_LO p, NC_SYNOPS_HI p, NC_FIRES_LO p, NC_FIRES_HI p, NC_LATE p, NC_STALE p,
   NC_OVERDRIVE p, NC_FANIN_CAP p, NC_BAD_AXON p, NC_STRUCT_ERR p, NC_DRING_DROP p, NC_OVERRUN p, NC_IDLE_TICKS p,
   NC_FIRE_CYCLES p, NC_MEM_CE p]

/-- The counters of R126. -/
def plCounters (p : Nat) : List Reg :=
  [NC_PL_EPOCHS p, NC_PL_POTS p, NC_PL_DEPS p, NC_PL_DSAT p, NC_PL_CLAMPS p, NC_PL_UNREC p, NC_PL_BAD_TOKEN p, NC_PL_APPLY_CYCLES p]

/-- The counters of R197. -/
def qmCounters (p : Nat) : List Reg :=
  [QM_RX_MSGS_LO p, QM_RX_MSGS_HI p, QM_TX_MSGS_LO p, QM_TX_MSGS_HI p, QM_CLOSED_DROP p, QM_FULL_REPLY p, QM_STALLED_OUT p,
   QM_TIMEOUT p, QM_BAD_MSG p, QM_MC_DROP p, QM_COMB_SAT p, QM_COMB_PARTIAL p, QM_RELAY_DROP p, QM_SKIP p, QM_STALE_REPLY p]

/-! ## Core reset -/

/-- The lengths of an EVENTS packet of `n` words (R130). -/
def sealEvents (c : Closed) : Closed :=
  let n := c.pkt.words.length
  { c with pkt := { c.pkt with lenM1 := (n - 1) / 8, lastM1 := (n - 1) % 8 } }

/-- The open packet of an interface closes (R135). -/
def closePacket (v : Dev) (k : Nat) : Dev :=
  v.modIface k (fun i => match i.opened with
    | some c => { i with opened := none, closed := i.closed ++ [sealEvents c] }
    | none => i)

/-- R99 items 3 to 5 and R123: the state words, axon entries and delta buffer of a core. -/
def resetCoreMemory (p : Nat) (v : Dev) : Dev :=
  let v := (List.range (v.neurons p)).foldl (fun v i => v.setStateWord p i (swUpdate (v.stateWord p i) 0 0 0)) v
  let v := (List.range (v.axons p)).foldl (fun v a => v.setAxonEntry p a (setFldN (v.axonEntry p a) 40 8 0)) v
  (List.range (v.plDeltas p)).foldl (fun v k => v.setDelta p k 0) v

/-- R194: the queues and channels of a core. A message that waits at the interface goes with its send. -/
def resetCoreQueues (p : Nat) (v : Dev) : Dev :=
  let k := v.core p
  let v := v.clearRegs (qmCounters p)
  let v := v.inc (QM_CLOSED_DROP p) ((k.slots.filter (fun e => e.2 != none)).length + k.msgs.length)
  let v := (List.range 16).foldl (closeQueue p) v
  (List.range 16).foldl (fun v c =>
    if SMap.get none k.sends c != none then
      (v.setF (QM_C_STATUS p c) 0 2 0).setB (QM_C_STATUS p c) 17 true
    else v) (v.modIface p (fun i => { i with closed := i.closed.filter (fun c => c.chan == none) }))

/-- A core reset (R99, R100, R102, R123, R126, R194): IN_RESET is set until CORE_RESET_DONE. The fold in progress is abandoned, so its end
never comes: writes to the state region that were held for that end are dropped with it (R72 says nothing of a reset: DESIGN CHOICE, log
entry 132). A delay-ring slot is cleared by its fill count, and its bytes stay (DESIGN CHOICE, log entry 170). A new learning epoch begins
(R123), with the LEN then held. -/
def coreReset (p : Nat) (v : Dev) : Dev :=
  let v := closePacket v p
  let v := resetCoreMemory p v
  let v := resetCoreQueues p v
  let v := v.clearRegs (ncCounters p ++ plCounters p)
  let v := v.setF (NC_PL_STATUS p) 1 2 0
  let v := v.setF (NC_PL_EPOCH p) 16 16 0
  let v := (v.setB (NC_STATUS p) 5 true).setB (NC_STATUS p) 6 false
  v.modCore p (fun k =>
    { Core.init with
      openTick := k.openTick, epochLen := v.fd (NC_PL_EPOCH p) 0 16, disarmed := k.disarmed, joined := false, fresh := true })

end Sys2Proof.Machine
end

