-- ==== Sys2Proof/Machine/Faults.lean ====
section
/-! DEFINITION. Raising an error: capture, merging, the hardware action, and the coach action (R377 to R390), and the reaction of a
coach's tick (R56, R387). -/
namespace Sys2Proof.Machine

open Sys2Proof

/-- Fault classes (R377). -/
abbrev clsCE : Nat := 0
abbrev clsUC : Nat := 1
abbrev clsUS : Nat := 2
abbrev clsDL : Nat := 3
abbrev clsIF : Nat := 4
abbrev clsSE : Nat := 5
abbrev clsFW : Nat := 6

/-- ACCESS values of R379. -/
abbrev accNone : Nat := 0
abbrev accRead : Nat := 1
abbrev accWrite : Nat := 2
abbrev accRmw : Nat := 3
abbrev accFetch : Nat := 4
abbrev accTransit : Nat := 5
abbrev accCheck : Nat := 6
abbrev accEvent : Nat := 7

/-- An error on its way to the collector of die `die`: the fields of R379 that the detecting rule gives. -/
structure Err where
  die : Nat
  cls : Nat
  owner : Nat
  source : Nat
  master : Nat
  access : Nat
  addr : Nat
  info : Nat
  deriving DecidableEq, Repr

/-- MASTER of a neuron core (R380). -/
def mCore (p : Nat) : Nat := pDie p * 0x2000 + pLocal p

/-- MASTER of another block (R380). -/
def mBlock (die kind inst : Nat) : Nat := die * 0x2000 + 0x1000 + kind * 0x100 + inst

/-- MASTER of a requester. -/
def mParty (env : Env) : Party → Nat
  | .port p => mBlock (portDie p.val) 9 (portUnit p.val)
  | .coachman d => mBlock d.val 7 0
  | .ostler d k => mBlock d.val 8 k.val
  | .debug => mBlock env.master 11 0
  | .monitor d => mBlock d.val 7 0
  | .engine p => mBlock (portDie p.val) 10 (portUnit p.val)

/-- The party is a host at its port (R26). -/
def isHost : Party → Bool
  | .port _ => true
  | _ => false

/-- The party is firmware (R10, R36). -/
def isFirmware : Party → Bool
  | .coachman _ => true
  | .ostler _ _ => true
  | .monitor _ => true
  | _ => false

/-- INFO of SE_WRITE: the port of a host's write (R381). -/
def seInfo : Party → Nat
  | .port p => p.val
  | .engine p => p.val
  | _ => 0

/-- The internal address of a register (R23); a core's registers lie at the number the core holds. -/
def regAddr (v : Dev) (r : Reg) : Nat :=
  if r.core then
    match v.numberOf r.idx with
    | some n => n * 0x80000 + 0x40000 + r.off
    | none => 0
  else dieSpace r.idx + 0x4000000000 + r.off

/-- The internal address of a core: its core number's base (R23). -/
def coreAddr (v : Dev) (p : Nat) : Nat :=
  match v.numberOf p with
  | some n => n * 0x80000
  | none => 0

/-! ## Reactions (R56, R387) -/

/-- A reaction of strength `act` taken for coach `g`: SAFE and HOLD at once; it applies to the coach's current tick, or to the next
one if that tick's frame is already published. STOP asks the generator to stop at the next boundary; taken after the frame was published
it stops the generator only after the next tick, to which it then applies (R56 names the next boundary, R387 the next tick: DEDUCED, log
entry 130). With the generator not running there is no tick to apply it to (log entry 8). -/
def react (env : Env) (g act : Nat) (v : Dev) : Dev :=
  if act = 0 then v else
  let m := env.master
  let v := v.setB (TG_STATUS m g) 2 true
  let v := if 2 ≤ act then v.setB (TG_STATUS m g) 3 true else v
  if v.fb (TG_CTRL m g) 0 then
    v.modGen g (fun t => match t.cur with
      | some c =>
        if c.published = none then
          { t with cur := some { c with react := max c.react act }, stopReq := t.stopReq || decide (act = 3) }
        else { t with reactNext := max t.reactNext act }
      | none => { t with reactNext := max t.reactNext act })
  else v

/-- FC_REACT field of a class; 0 for DL (R386). -/
def fcAction (w : Word) (cls : Nat) : Nat :=
  match cls with
  | 0 => fld w 0 2
  | 1 => fld w 2 2
  | 2 => fld w 4 2
  | 4 => fld w 8 2
  | 5 => fld w 10 2
  | 6 => fld w 12 2
  | _ => 0

/-! ## Fencing a core (R389) -/

/-- A fence of physical core `p`: reset, held in reset, marked FENCED, ENABLE cleared; no second fence of a fenced core (R393). -/
def fence (p : Nat) (v : Dev) : Dev :=
  if v.isFenced p then v else
  let v := coreReset p v
  let v := v.setB (NC_CTRL p) 0 false
  let v := v.setB (NC_STATUS p) 0 false
  v.modPlace (fun t => { t with fenced := t.fenced ++ [p], spareUsed := if SMap.get 0 t.spare (p / 33) = p + 1 then p / 33 :: t.spareUsed else t.spareUsed })

/-- A churn, separator or join unit is fenced (R226, R394); `m` is its MASTER. -/
def Dev.blockFenced (v : Dev) (m : Nat) : Bool := v.flt.blocks.contains m

/-! ## Capture (R382) -/

/-- The slot of a class and owner in a die's collector. -/
def slotKey (d owner cls : Nat) : Nat := d * 64 + owner * 8 + cls

def Dev.slot (v : Dev) (k : Nat) : Option FaultRec := SMap.get none v.flt.slots k
def Dev.setSlot (v : Dev) (k : Nat) (r : Option FaultRec) : Dev :=
  v.modFlt (fun f => { f with slots := SMap.set none f.slots k r })

/-- The record that captures a first error (R379). -/
def captured (env : Env) (e : Err) : FaultRec :=
  { cls := e.cls, merged := false, held := false, die := e.die, owner := e.owner, source := e.source, master := e.master,
    access := e.access, addr := e.addr, count := 1, time := env.nowOf e.die, info := e.info, copied := false }

/-- The record after a later error has been merged: COUNT saturates at 65,535 and MERGED is set. -/
def merged (r : FaultRec) : FaultRec := { r with count := min (r.count + 1) 65535, merged := true }

/-- Firmware owes a core that a UC error has fenced its defect entry (R390). -/
def oweEntry (k p : Nat) (v : Dev) : Dev :=
  if v.flt.ucDue.any (fun x => x.2 == p) then v else v.modFlt (fun f => { f with ucDue := f.ucDue ++ [(k, p)] })

/-- An error reaches its die's collector: captured or merged, counted, its hardware action and its coach action taken. -/
def raise (env : Env) (e : Err) (v : Dev) : Dev :=
  if env.has e.die && decide (e.cls < 7) && decide (e.owner < 5) then
    let k := slotKey e.die e.owner e.cls
    let v := match v.slot k with
      | some r => v.setSlot k (some (merged r))
      | none => v.setSlot k (some (captured env e))
    let v := v.inc (FC_CNT e.die e.owner e.cls) 1
    let v := if e.cls = clsUC ∧ e.master / 0x1000 % 2 = 0 then
        oweEntry k (pMake (e.master / 0x2000) 0 (e.master % 0x1000)) (fence (pMake (e.master / 0x2000) 0 (e.master % 0x1000)) v)
      else v
    if e.owner < 4 && v.isOpen e.owner then react env e.owner (fcAction (v.rd (FC_REACT e.die e.owner)) e.cls) v else v
  else v

/-- Owners of errors raised "for each coach": the device where no coach qualifies (R378). -/
def ownersOr (l : List Nat) : List Nat := if l = [] then [4] else l

/-- One error for each owner of a list (R378). -/
def raiseEach (env : Env) (owners : List Nat) (e : Err) (v : Dev) : Dev :=
  (ownersOr owners).foldl (fun v g => raise env { e with owner := g } v) v

/-! ## The errors rules name most -/

/-- A DL error of coach `g` at the tick engine (R381): INFO holds the tick number and what `hi` adds above it. -/
def raiseDL (env : Env) (g source tick hi : Nat) (v : Dev) : Dev :=
  raise env { die := env.master, cls := clsDL, owner := g, source := source, master := mBlock env.master 12 (1 + g),
              access := accEvent, addr := 0, info := tick % 0x100000000 + hi * 0x100000000 } v

/-- An IF error at a core, with ADDR the core and INFO the low bits given (R381). -/
def raiseCoreIF (env : Env) (p source info : Nat) (v : Dev) : Dev :=
  raise env { die := pDie p, cls := clsIF, owner := v.coreOwner p, source := source, master := mCore p, access := accCheck,
              addr := coreAddr v p, info := info } v

/-- IF_CONFIG at a register (R381). -/
def raiseConfig (env : Env) (die owner master : Nat) (r : Reg) (v : Dev) : Dev :=
  raise env { die := die, cls := clsIF, owner := owner, source := 0x20, master := master, access := accCheck, addr := regAddr v r,
              info := 0 } v

/-- IF_ACCESS: a write that a rule drops (R381). -/
def raiseAccess (env : Env) (die owner : Nat) (who : Party) (addr : Nat) (v : Dev) : Dev :=
  raise env { die := die, cls := clsIF, owner := owner, source := 0x24, master := mParty env who, access := accWrite, addr := addr,
              info := 0 } v

/-- The die on which a requester's access is checked. -/
def partyDie (env : Env) (who : Party) : Nat := mParty env who / 0x2000

/-- IF_ACCESS: an access that reaches nothing, a core number without a core or an address that no row of R23 maps (R24, R25;
DEDUCED, log entry 138). -/
def raiseMiss (env : Env) (who : Party) (owner access addr : Nat) (v : Dev) : Dev :=
  raise env { die := partyDie env who, cls := clsIF, owner := owner, source := 0x24, master := mParty env who, access := access, addr := addr,
              info := 0 } v

/-- A host's write that is dropped is counted at its port (R306). -/
def countDenied (who : Party) (v : Dev) : Dev :=
  match who with
  | .port p => v.inc (HP_DENIED_WR (portDie p.val) (portUnit p.val)) 1
  | _ => v

/-- SE_WRITE: a write by a party that may not make it (R381). -/
def raiseSE (env : Env) (die owner : Nat) (who : Party) (addr : Nat) (v : Dev) : Dev :=
  raise env { die := die, cls := clsSE, owner := owner, source := 0x31, master := mParty env who, access := accWrite, addr := addr,
              info := seInfo who } (countDenied who v)

/-- SE_INJECT: a write to an FC_INJ register outside factory test mode (R398). -/
def raiseInject (env : Env) (die : Nat) (who : Party) (v : Dev) : Dev :=
  raise env { die := die, cls := clsSE, owner := 4, source := 0x33, master := mParty env who, access := accWrite, addr := 0, info := 0 }
    (countDenied who v)

/-- A register write that a port applies is counted in HP_WRITE_SEQ, whether it takes effect or is dropped (R306, R314); a port that does
not respond yet applies none (R354). -/
def seqCount (env : Env) (who : Party) (d : Nat) (v : Dev) : Dev :=
  match who with
  | .port p =>
    let r := HP_WRITE_SEQ (portDie p.val) (portUnit p.val)
    if env.has d && (v.port p.val).lp.available then v.wrN r (v.rdN r + 1) else v
  | _ => v

/-- A row that writes a register of die `d` for a requester. -/
def State.onWrite (s : State) (who : Party) (d : Nat) (f : Env → Dev → Dev) : State :=
  s.onDev (fun env v => f env (seqCount env who d v))

/-- SE_REGION (R415). -/
def raiseRegion (env : Env) (d owner : Nat) (who : Party) (access addr : Nat) (v : Dev) : Dev :=
  raise env { die := d, cls := clsSE, owner := owner, source := 0x32, master := mParty env who, access := access, addr := addr, info := 0 } v

/-- The debug port is closed: SEC_DEBUG.LEVEL of the master die is 0 (R416). -/
def debugShut (env : Env) (v : Dev) (who : Party) : Bool := who == .debug && v.fd (SEC_DEBUG env.master) 0 2 == 0

/-- The debug port is not selected: the TAP's instruction is not DEBUG, so nothing reaches it (R482). -/
def debugOff (v : Dev) (who : Party) : Bool := who == .debug && v.pins.ir != 0x20

/-- A write on a path that the debug port shares: while it is closed, its write is dropped with an SE record (R415, R416). -/
def debugGate (env : Env) (who : Party) (die owner : Nat) (r : Reg) (f : Dev → Dev) (v : Dev) : Dev :=
  if debugOff v who then v
  else if debugShut env v who then raiseRegion env die owner who accWrite (regAddr v r) v else f v

/-- A write to a register of a die that the part lacks: dropped, with an IF record but for a host, whose window of such a die is reserved
(R25, R296; log entry 138). -/
def missWrite (env : Env) (who : Party) (r : Reg) (v : Dev) : Dev :=
  if isHost who || debugOff v who then v else raiseMiss env who 4 accWrite (regAddr v r) v

/-- The secure world is open to the secure monitor, and to the debug port at level 2 (R411, R416). -/
def inSecureWorld (env : Env) (v : Dev) : Party → Bool
  | .monitor _ => true
  | .debug => decide (2 ≤ v.fd (SEC_DEBUG env.master) 0 2)
  | _ => false

/-- A write to a register of a block: from a party that the block's rule lets write it (`ok`), and into the secure world where SEC_BLOCK
puts the block there (R411, R415, R416). -/
def blockGate (env : Env) (who : Party) (d owner : Nat) (ok secure : Bool) (r : Reg) (f : Dev → Dev) (v : Dev) : Dev :=
  if !env.has d then missWrite env who r v
  else if !ok then raiseSE env d owner who (regAddr v r) v
  else if secure && !inSecureWorld env v who && !debugOff v who then raiseRegion env d owner who accWrite (regAddr v r) v
  else debugGate env who d owner r f v

/-- A write that only the secure monitor may make, from another party: SE_REGION for firmware and the debug port, SE_WRITE for a port
(R415). -/
def raiseSecure (env : Env) (who : Party) (d : Nat) (r : Reg) (v : Dev) : Dev :=
  match who with
  | .port _ => raiseSE env d 4 who (regAddr v r) v
  | .engine _ => raiseSE env d 4 who (regAddr v r) v
  | _ => if debugOff v who then v else raiseRegion env d 4 who accWrite (regAddr v r) v

/-- The owner named by a three-bit owner field: coach 0–3, else the device. -/
def ownerOf3 (n : Nat) : Nat := if n < 4 then n else 4

/-- The coach if it is open, else the device: the owner of an error at coach `g`'s resources (R378). -/
def Dev.coachOrDevice (v : Dev) (g : Nat) : Nat := if v.isOpen g then g else 4

end Sys2Proof.Machine
end

