-- ==== Sys2Proof/Machine/Plasticity.lean ====
section
/-! DEFINITION. On-core plasticity: synapses of a row, traces, depression, potentiation, epochs and the apply (04_plasticity.md). -/
namespace Sys2Proof.Machine

open Sys2Proof

/-- One synapse of a row: its place in the row, target, weight, whether it exists (R81) and whether it is plastic (R79, R80). -/
structure Syn where
  idx : Nat
  target : Nat
  weight : Int
  good : Bool
  plastic : Bool
  deriving DecidableEq, Repr

/-- The synapses of an axon entry's row, in row order; a sparse entry with a non-zero reserved bit is no synapse (R79 to R81). A row of
FMT 0 or 3, which only a plastic list can name, is taken as a dense row, inside the row region or not: R112 and R117 do not say what the
learning engine makes of one (DESIGN CHOICE, log entry 133). -/
def Dev.synapses (v : Dev) (p w : Nat) : List Syn :=
  (List.range (axLen w)).map (fun i =>
    if axFmt w = 2 then
      let e := v.ldCore p (axRow w + 3 * i) 3
      ⟨i, fldN e 0 12, toSigned 8 (fldN e 12 8), decide (fldN e 0 12 < v.neurons p ∧ fldN e 21 3 = 0), axPlastic w && fldN e 20 1 == 1⟩
    else
      ⟨i, axBase w + i, toSigned 8 (v.ldCore p (axRow w + i) 1), decide (axBase w + i < v.neurons p), axPlastic w⟩)

/-- The synapses the rule may change. -/
def Dev.plasticSyns (v : Dev) (p w : Nat) : List Syn := (v.synapses p w).filter (fun s => s.good && s.plastic)

def Dev.plEn (v : Dev) (p : Nat) : Bool := v.fb (NC_PL_CTRL p) 0
def Dev.plPaused (v : Dev) (p : Nat) : Bool := v.fb (NC_PL_STATUS p) 2

/-- A trace after one decay (R108). -/
def decay (tr kappa : Nat) : Nat := tr * kappa / 256

/-- Adds `x` to a delta, saturating at 16 bits; every saturation counts in NC_PL_DSAT (R111 to R113). -/
def addDelta (p k : Nat) (x : Int) (v : Dev) : Dev :=
  let y := v.delta p k + x
  let v := if y < -32768 ∨ 32767 < y then v.inc (NC_PL_DSAT p) 1 else v
  v.setDelta p k (clampI (-32768) 32767 y)

/-- A pre spike on a plastic axon: depression of its row's deltas, then the pre-trace (R110, R111, R116). -/
def preSpike (p a : Nat) (v : Dev) : Dev :=
  let w := v.axonEntry p a
  let v :=
    if v.plPaused p then v.inc (NC_PL_UNREC p) 1
    else if (v.core p).disarmed then v
    else (v.plasticSyns p w).foldl (fun v s =>
      let post := swPost (v.stateWord p s.target)
      let x := v.fd (NC_PL_RULE p) 8 8 * post / 2 ^ v.fd (NC_PL_INC p) 16 4
      (addDelta p (axDelta w + s.idx) (-(x : Int)) v).inc (NC_PL_DEPS p) 1) v
  v.setAxonEntry p a (setFldN (v.axonEntry p a) 40 8 (min 255 (axPre w + v.fd (NC_PL_INC p) 0 8)))

/-- The potentiation pass at the end of a fold (R112, R116). -/
def potentiate (p : Nat) (fired : List Nat) (v : Dev) : Dev :=
  if !v.plEn p then v
  else if v.plPaused p then v.inc (NC_PL_UNREC p) 1
  else if (v.core p).disarmed then v
  else (v.plAxons p).foldl (fun v a =>
    let w := v.axonEntry p a
    let x := v.fd (NC_PL_RULE p) 0 8 * axPre w / 2 ^ v.fd (NC_PL_INC p) 16 4
    (v.plasticSyns p w).foldl (fun v s =>
      if fired.contains s.target then (addDelta p (axDelta w + s.idx) (x : Int) v).inc (NC_PL_POTS p) 1 else v) v) v

/-- The pre-traces of the listed axons decay at the end of a fire (R110). -/
def decayPre (p : Nat) (v : Dev) : Dev :=
  if v.plEn p then
    (v.plAxons p).foldl (fun v a =>
      let w := v.axonEntry p a
      v.setAxonEntry p a (setFldN w 40 8 (decay (axPre w) (v.fd (NC_PL_RULE p) 16 8)))) v
  else v

/-- Cycles of the potentiation pass (R125). -/
def potCycles (v : Dev) (p : Nat) (someFired : Bool) : Nat :=
  if v.plEn p then
    if someFired then ((v.plAxons p).map (fun a => 2 + (axLen (v.axonEntry p a) + 15) / 16)).foldl (· + ·) 0
    else 2 * v.plCount p
  else 0

/-- Cycles of the apply: pass 1, pass 2 and the write-back of each listed row (R125). -/
def applyCycles (v : Dev) (p : Nat) : Nat :=
  ((v.plAxons p).map (fun a =>
    let w := v.axonEntry p a
    4 + 3 * ((axLen w + 15) / 16) + (axBytes w + 31) / 32)).foldl (· + ·) 0

/-- Non-zero traces: POST_TRACE of enabled neurons and PRE_TRACE of listed axons (R124). -/
def traceNz (v : Dev) (p : Nat) : Nat :=
  ((List.range (v.neurons p)).filter (fun i => swEn (v.stateWord p i) && swPost (v.stateWord p i) != 0)).length
    + ((v.plAxons p).filter (fun a => axPre (v.axonEntry p a) != 0)).length

/-! ## The apply (R115 to R120) -/

/-- u of R117: the weight with its rate term. -/
def updated (w d : Int) (eta : Nat) : Int := w + asr (d * eta + 2048) 12

/-- S of every neuron: Σ|u| over its plastic inputs (R117, pass 1). -/
def applySums (v : Dev) (p eta : Nat) : SMap Nat :=
  (v.plAxons p).foldl (fun m a =>
    let w := v.axonEntry p a
    (v.plasticSyns p w).foldl (fun m s =>
      SMap.set 0 m s.target (SMap.get 0 m s.target + (updated s.weight (v.delta p (axDelta w + s.idx)) eta).natAbs)) m) []

/-- The apply starts: η is latched, PAUSED and APPLYING are set (R116). -/
def applyStart (p : Nat) (v : Dev) : Dev :=
  let eta := v.fd (NC_PL_ETA p) 0 16
  let v := v.setF (NC_PL_ETA p) 16 16 eta
  let v := v.setF (NC_PL_STATUS p) 1 2 3
  v.modCore p (fun k => { k with apply := some ⟨eta, v.plAxons p, applySums v p eta, applyCycles v p⟩ })

/-- The end of a fire advances the epoch; at its end the apply starts, or is an overrun (R115, R119). -/
def epochTick (env : Env) (p : Nat) (v : Dev) : Dev :=
  if !v.plEn p then v else
  let pos := v.fd (NC_PL_EPOCH p) 16 16 + 1
  let k := v.core p
  if pos = k.epochLen then
    let v := v.setF (NC_PL_EPOCH p) 16 16 0
    let v := v.modCore p (fun k => { k with epochLen := v.fd (NC_PL_EPOCH p) 0 16 })
    if v.fb (NC_PL_STATUS p) 1 then
      raise env { die := pDie p, cls := clsCE, owner := v.coreOwner p, source := 0x0C, master := mCore p, access := accEvent,
                  addr := coreAddr v p + 0x40000, info := 0 } (v.setB (NC_PL_STATUS p) 3 true)
    else if k.disarmed then v
    else applyStart p v
  else v.setF (NC_PL_EPOCH p) 16 16 pos

/-- The final weight of a synapse and whether it was clamped (R117, pass 2). -/
def finalWeight (u : Int) (target s : Nat) : Int × Bool :=
  let x := if target = 0 ∨ s = 0 then u else asr (u * ((target * 65536 / s : Nat) : Int) + 32768) 16
  (clampI (-128) 127 x, decide (x < -128) || decide (127 < x))

/-- A weight written into its place in the row, the entry's other bits kept (R79, R80). -/
def setWeight (p w : Nat) (s : Syn) (x : Int) (v : Dev) : Dev :=
  if axFmt w = 2 then
    let a := axRow w + 3 * s.idx
    v.stCore p a 3 (setFldN (v.ldCore p a 3) 12 8 (ofSigned 8 x))
  else v.stCore p (axRow w + s.idx) 1 (ofSigned 8 x)

/-- A later row of the list uses delta `k` as well (R107). -/
def deltaShared (v : Dev) (p k : Nat) (rows : List Nat) : Bool :=
  rows.any (fun a => decide (axDelta (v.axonEntry p a) ≤ k) && decide (k < axDelta (v.axonEntry p a) + axLen (v.axonEntry p a)))

/-- The first row of the apply is written back whole and its deltas cleared, but for those that a later row shares, which uses their value
too (R107, R117, R118, R120). An apply goes on when EN is written 0 meanwhile (DESIGN CHOICE, log entry 172). -/
def rowWriteBack (p : Nat) (v : Dev) : Dev :=
  match (v.core p).apply with
  | some ap =>
    match ap.rows with
    | a :: rest =>
      let w := v.axonEntry p a
      let free := (List.range (axLen w)).filter (fun i => !deltaShared v p (axDelta w + i) rest)
      let v := (v.plasticSyns p w).foldl (fun v s =>
        let u := updated s.weight (v.delta p (axDelta w + s.idx)) ap.eta
        let r := finalWeight u (v.plTarget p s.target) (SMap.get 0 ap.sums s.target)
        let v := setWeight p w s r.1 v
        if r.2 then v.inc (NC_PL_CLAMPS p) 1 else v) v
      let v := free.foldl (fun v i => v.setDelta p (axDelta w + i) 0) v
      v.modCore p (fun k => { k with apply := some { ap with rows := rest } })
    | [] => v
  | none => v

/-- LAST and MAX of a cycle register, saturating at 65,535 (R102, R126). -/
def noteCycles (r : Reg) (cycles : Nat) (v : Dev) : Dev :=
  let c := min cycles 65535
  v.wrN r (c + 65536 * max c (v.fd r 16 16))

/-- The last row has been written back: the apply ends. It took the cycles of its passes and write-backs and the `busy` ones that events
had of the synapse unit meanwhile (R116, R125, R126). -/
def applyEnd (p busy : Nat) (v : Dev) : Dev :=
  match (v.core p).apply with
  | some ap =>
    if ap.rows = [] then
      let v := v.setF (NC_PL_STATUS p) 1 2 0
      let v := (v.inc (NC_PL_EPOCHS p) 1).modCore p (fun k => { k with apply := none })
      noteCycles (NC_PL_APPLY_CYCLES p) (ap.cost + busy) v
    else v
  | none => v

/-! ## Writes to a core's registers (R24, R26, R103) -/

/-- The core lies on a die of the part. -/
def Env.hasCore (e : Env) (p : Nat) : Bool := decide (pDie p < e.dies)

/-- Firmware, the debug port, and the command engine for the owning coach's port write a core's registers; a host does not (R26). -/
def mayWriteCore (v : Dev) (p : Nat) : Party → Bool
  | .port _ => false
  | .engine q => decide (v.coreOwner p < 4) && (v.coach (v.coreOwner p)).port == q.val
  | _ => true

/-- Internal address of a register of core number `n` (R23). -/
def coreNoAddr (n off : Nat) : Nat := n * 0x80000 + 0x40000 + off

/-- A write to the register at `off` of core number `n`: it reaches the physical core that holds the number, or is dropped with an IF
record where none does (R24). -/
def coreWrite (env : Env) (who : Party) (n off : Nat) (f : Nat → Dev → Dev) (v : Dev) : Dev :=
  if isHost who || debugOff v who then v
  else match v.reach env n with
    | none => raiseMiss env who ((v.coachOfNumber n).getD 4) accWrite (coreNoAddr n off) v
    | some p => if mayWriteCore v p who then debugGate env who (pDie p) (v.coreOwner p) (coreReg p off) (f p) v else v

/-- A layout register is written only while ENABLE is 0 (R103). -/
def layoutWrite (env : Env) (who : Party) (n off : Nat) (f : Nat → Dev → Dev) (v : Dev) : Dev :=
  coreWrite env who n off (fun p v =>
    if v.enabled p then raiseAccess env (pDie p) (v.coreOwner p) who (regAddr v (coreReg p off)) v else f p v) v

/-- NC_PL_CTRL.EN written from 0 to 1: POS 0, and an epoch begins with the LEN then held (R115). -/
def plEnable (p : Nat) (v : Dev) : Dev :=
  if v.plEn p then v else
  let v := (v.setB (NC_PL_CTRL p) 0 true).setF (NC_PL_EPOCH p) 16 16 0
  v.modCore p (fun k => { k with epochLen := v.fd (NC_PL_EPOCH p) 0 16 })

/-- A write to NC_PL_EPOCH.LEN, for the next epoch; where no epoch has a length yet, for the first (R115). -/
def plEpochWrite (p len : Nat) (v : Dev) : Dev :=
  if len % 65536 = 0 then (v.setB (NC_PL_STATUS p) 0 true).modCore p (fun k => { k with disarmed := true })
  else
    let v := v.setF (NC_PL_EPOCH p) 0 16 len
    v.modCore p (fun k => { k with disarmed := false, epochLen := if k.epochLen = 0 then len % 65536 else k.epochLen })

def execRowWriteBack (p : Phys) (s : State) : Host.Outcome State Fault Refusal := .next (s.onClk (pDie p.idx) 1 (fun _ => rowWriteBack p.idx))
/-- APPLY_END; `busy` are the NCK cycles in which events held the synapse unit during the apply (R125). -/
def execApplyEnd (p : Phys) (busy : Nat) (s : State) : Host.Outcome State Fault Refusal :=
  .next (s.onClk (pDie p.idx) 1 (fun _ => applyEnd p.idx busy))
def execNcPlCtrlEn (who : Party) (n : CoreNo) (s : State) : Host.Outcome State Fault Refusal :=
  .next (s.onDev (fun env => layoutWrite env who n.val 0x200 plEnable))
def execNcPlEpochWrite (who : Party) (n : CoreNo) (len : Fin 65536) (s : State) : Host.Outcome State Fault Refusal :=
  .next (s.onDev (fun env => coreWrite env who n.val 0x218 (fun p => plEpochWrite p len.val)))
def execNcPlEtaWrite (who : Party) (n : CoreNo) (eta : Fin 65536) (s : State) : Host.Outcome State Fault Refusal :=
  .next (s.onDev (fun env => coreWrite env who n.val 0x21C (fun p v => v.setF (NC_PL_ETA p) 0 16 eta.val)))

end Sys2Proof.Machine
end

