-- ==== Sys2Proof/Machine/Neuron.lean ====
section
/-! DEFINITION. Neuron cores: integration, the delay ring, the fold and fire, enabling and restarting (R49 to R51, R68 to R103,
03_neuron_cores.md). The commands that end a fire stand in Phases.lean. -/
namespace Sys2Proof.Machine

open Sys2Proof

/-! ## From arrival to accumulator -/

/-- One contribution w × p (R82); the 17-bit count stops at its maximum. -/
def contribute (p target : Nat) (x : Int) (v : Dev) : Dev :=
  v.modCore p (fun k =>
    { k with
      acc := SMap.set 0 k.acc target (SMap.get 0 k.acc target + x),
      cnt := SMap.set 0 k.cnt target (min (SMap.get 0 k.cnt target + 1) 131071) })

/-- An event is integrated into the open tick: its axon entry, its row, and plasticity (R78 to R83, R110). -/
def integrate (env : Env) (p : Nat) (e : Ev) (v : Dev) : Dev :=
  if v.axons p ≤ e.axon then raiseCoreIF env p 0x21 e.axon (v.inc (NC_BAD_AXON p) 1)
  else
    let w := v.axonEntry p e.axon
    if axFmt w = 0 then v.inc (NC_BAD_AXON p) 1
    else if axFmt w = 3 || !v.rowInside p w then raiseCoreIF env p 0x21 e.axon (v.inc (NC_STRUCT_ERR p) 1)
    else
      let syns := v.synapses p w
      let good := syns.filter (fun s => s.good)
      let v := good.foldl (fun v s => contribute p s.target (s.weight * e.payload) v) v
      let v := v.inc64 (NC_SYNOPS_LO p) (NC_SYNOPS_HI p) good.length
      let v := if good.length < syns.length then v.inc (NC_STRUCT_ERR p) 1 else v
      if v.plEn p && axPlastic w && decide (e.payload ≠ 0) then preSpike p e.axon v else v

/-- Entries of one delay-ring slot (R87). -/
def ringCap (v : Dev) (p : Nat) : Nat := 2 ^ v.fd (NC_DRING_CFG p) 16 4
def ringOff (v : Dev) (p slot i : Nat) : Nat := v.fd (NC_DRING_CFG p) 0 10 * 256 + (slot * ringCap v p + i) * 4

/-- An early event is stored in the slot of its tag, or dropped if the slot is full (R87, R88). -/
def ringStore (env : Env) (p : Nat) (e : Ev) (v : Dev) : Dev :=
  let slot := e.tick % 16
  let n := SMap.get 0 (v.core p).ring slot
  if n < ringCap v p then
    let v := v.stCore p (ringOff v p slot n) 4 (e.axon % 65536 + e.payload % 256 * 65536 + e.flags % 16 * 16777216)
    v.modCore p (fun k => { k with ring := SMap.set 0 k.ring slot (n + 1) })
  else
    let v := v.inc (NC_DRING_DROP p) 1
    if (v.core p).ringRec then v
    else (raiseCoreIF env p 0x21 e.axon v).modCore p (fun k => { k with ringRec := true })

/-- A delay-ring slot is drained in arrival order into the accumulators of tick `n` (R86, R87). -/
def drainRing (env : Env) (p n : Nat) (v : Dev) : Dev :=
  let slot := n % 16
  let count := SMap.get 0 (v.core p).ring slot
  let evs := (List.range count).map (fun i =>
    let w := v.ldCore p (ringOff v p slot i) 4
    (⟨fldN w 0 16, fldN w 16 8, fldN w 24 4, n⟩ : Ev))
  let v := v.modCore p (fun k => { k with ring := SMap.set 0 k.ring slot 0, released := k.released || decide (0 < count) })
  evs.foldl (fun v e => integrate env p e v) v

/-- The tick whose accumulators are filling: the oldest close that still waits for its fold, else the open tick (R86). -/
def accTick (k : Core) : Nat := k.closes.headD k.openTick

/-- An accepted event of class on time, late or early takes its place (R49, R51, R85, R87). -/
def place (env : Env) (p : Nat) (a : Arrival) (v : Dev) : Dev :=
  let k := v.core p
  if k.fire != none then v.modCore p (fun k => { k with inbuf := k.inbuf ++ [a] })
  else if a.cls = .early && decide (a.ev.tick ≠ accTick k) then ringStore env p a.ev v
  else if a.ev.tick ≤ accTick k then integrate env p a.ev v
  else v.modCore p (fun k => { k with inbuf := k.inbuf ++ [a] })

/-- One arrival is counted by its class and taken (R49, R57, R102). -/
def takeArrival (env : Env) (p : Nat) (a : Arrival) (v : Dev) : Dev :=
  match a.cls with
  | .stale => (v.inc (NC_STALE p) 1).modCore p (fun k => { k with staleN := k.staleN + 1 })
  | .late =>
    let v := (v.inc (NC_LATE p) 1).modCore p (fun k => { k with lateN := k.lateN + 1 })
    place env p a (v.inc64 (NC_EVENTS_IN_LO p) (NC_EVENTS_IN_HI p) 1)
  | _ => place env p a (v.inc64 (NC_EVENTS_IN_LO p) (NC_EVENTS_IN_HI p) 1)

/-- The class and target tick of an event tagged `tag` at open tick `n` (R49, R51). -/
def classify (n tag : Nat) : EvClass × Nat :=
  let a := (n % 256 + 256 - tag % 256) % 256
  if a = 0 then (.onTime, n) else if a ≤ 127 then (.late, n) else if a ≤ 240 then (.stale, n) else (.early, n + (256 - a))

/-- The open tick of a core at this instant of its die's copy: a close that has passed counts although the row that makes it has not run
yet (R49, R50). -/
def openTickNow (env : Env) (v : Dev) (p : Nat) : Nat :=
  let n := (v.core p).openTick
  match (v.gen (v.coreOwner p)).cur with
  | some c =>
    if c.n = n ∧ c.start + c.set.close ≤ env.nowOf (pDie p) ∧ c.begun.contains (pDie p) = true ∧ c.closedOn.contains (pDie p) = false then n + 1
    else n
  | none => n

/-- EVENT_ARRIVAL: the oldest event that the interface has accepted. -/
def eventArrival (p : Nat) (env : Env) (v : Dev) : Dev :=
  match (v.core p).arrivals with
  | a :: rest => takeArrival env p a (v.modCore p (fun k => { k with arrivals := rest }))
  | [] => v

/-- Every accepted event is taken before a close: its acceptance came first (R50). -/
def takeArrivals (env : Env) (p : Nat) (v : Dev) : Dev :=
  let l := (v.core p).arrivals
  l.foldl (fun v a => takeArrival env p a v) (v.modCore p (fun k => { k with arrivals := [] }))

/-! ## The fold (R89 to R96) -/

/-- Group parameters of a neuron (R74). -/
structure Grp where
  leak : Nat
  gain : Nat
  bias : Int
  prog : Nat
  zero : Bool
  graded : Bool
  refr : Nat
  deriving DecidableEq, Repr

def Dev.grp (v : Dev) (p k : Nat) : Grp :=
  let a := v.rd (NC_GROUP_A p k)
  let b := v.rd (NC_GROUP_B p k)
  { leak := fld a 0 16, gain := fld a 16 16, bias := toSigned 16 (fld b 0 16), prog := fld b 16 3, zero := bit b 19,
    graded := bit b 20, refr := fld b 24 4 }

/-- The base fold of R89 with leak `leak`. -/
def baseFold (g : Grp) (leak : Nat) (v a : Int) : Int := sat24 (v - asr (v * leak) 16 + asr (a * g.gain) 8 + g.bias)

/-- v′ by program variant (R77). The floor of an invalid θ saturates to 24 bits, which R77 does not state (DESIGN CHOICE, log entry 169). -/
def variantFold (g : Grp) (theta v a : Int) (c : Nat) : Int :=
  match g.prog with
  | 1 => sat24 (max (baseFold g g.leak v a) (-theta))
  | 2 => baseFold g 0 v a
  | 3 => sat24 (max (baseFold g 0 v a) (-theta))
  | 4 => sat24 (asr (a * g.gain) 8 + g.bias)
  | 7 => if c = 0 then v else baseFold g g.leak v a
  | _ => baseFold g g.leak v a

/-- The neuron fires (R77, R91). -/
def fires (g : Grp) (theta v' : Int) (c : Nat) : Bool :=
  decide (1 ≤ theta) && decide (theta ≤ 8388607) && decide (g.prog ≠ 5)
    && (decide (g.prog ≠ 6 ∧ g.prog ≠ 7) || decide (1 ≤ c)) && decide (theta ≤ v')

/-- Payload, v″ and OVERDRIVE of a firing neuron (R91). -/
def fireResult (g : Grp) (theta v' : Int) : Nat × Int × Bool :=
  if g.graded then
    (min 255 (v' / theta).toNat, v' % theta, decide (255 < (v' / theta).toNat))
  else if g.zero then (1, 0, false)
  else if theta ≤ v' - theta then (1, theta - 1, true)
  else (1, v' - theta, false)

/-- The fan-out list from `idx`: the events it emits, and whether it stops on an error (R92 to R94). The bits of DEST above a group number,
which R93 wants 0, count as reserved ones (DEDUCED, log entry 171). -/
def fanout (v : Dev) (p payload n : Nat) : Nat → Nat → List OutEv × Bool
  | 0, _ => ([], true)
  | fuel + 1, idx =>
    let w := v.ldCore p (v.fd (NC_FANOUT_CFG p) 0 10 * 256 + 8 * idx) 8
    let kind := fldN w 18 2
    if kind = 3 ∨ fldN w 41 23 ≠ 0 ∨ (kind = 2 ∧ fldN w 12 6 ≠ 0) then ([], true)
    else
      let e : OutEv :=
        { dkind := kind, dest := fldN w 0 18, axon := fldN w 20 16, payload := payload, delay := fldN w 36 4,
          tag := (n + 1 + fldN w 36 4) % 256 }
      if fldN w 40 1 = 1 then ([e], false)
      else
        let r := fanout v p payload n fuel (idx + 1)
        (e :: r.1, r.2)

/-- A fold as it proceeds. -/
structure Folding where
  dev : Dev
  fired : List Nat
  out : List OutEv
  groups : SMap Nat
  recs : List SpikeRec
  deriving DecidableEq, Repr

/-- One neuron is folded; one that is over budget is counted, enabled or not (R83, R84, R89 to R94, R109). -/
def foldNeuron (env : Env) (p n coach : Nat) (f : Folding) (i : Nat) : Folding :=
  let v := f.dev
  let w := v.stateWord p i
  let k := v.core p
  let capped := decide (65536 < SMap.get 0 k.cnt i)
  let v := if capped then raiseCoreIF env p 0x21 0 (v.inc (NC_FANIN_CAP p) 1) else v
  if !swEn w then { f with dev := v } else
  let a := if capped then 0 else SMap.get 0 k.acc i
  let c := if capped then 0 else SMap.get 0 k.cnt i
  let pl := v.plEn p
  let post := if pl then decay (swPost w) (v.fd (NC_PL_RULE p) 24 8) else swPost w
  let number := (v.numberOf p).getD 0
  let memb (x : Int) : List SpikeRec := if swMemb w then [⟨pDie p, p, number, i, 0, n % 256, coach, some x⟩] else []
  if swRefr w ≠ 0 then
    { f with dev := v.setStateWord p i (swUpdate w (swV w) (swRefr w - 1) post), recs := f.recs ++ memb (swV w) }
  else
    let g := v.grp p (swGroup w)
    let theta := toSigned 24 (v.fd (NC_THRESH p (swThr w)) 0 24)
    let v' := variantFold g theta (swV w) a c
    if fires g theta v' c then
      let r := fireResult g theta v'
      let post := if pl then min 255 (post + v.fd (NC_PL_INC p) 8 8) else post
      let fo := if swFanout w = 65535 then ([], false)
        else fanout v p r.1 n (v.fd (NC_FANOUT_CFG p) 16 16 - swFanout w) (swFanout w)
      let v := v.setStateWord p i (swUpdate w r.2.1 g.refr post)
      let v := v.inc64 (NC_FIRES_LO p) (NC_FIRES_HI p) 1
      let v := if r.2.2 then v.inc (NC_OVERDRIVE p) 1 else v
      let v := if fo.2 then raiseCoreIF env p 0x21 0 (v.inc (NC_STRUCT_ERR p) 1) else v
      let spike : List SpikeRec := if swPail w then [⟨pDie p, p, number, i, r.1, n % 256, coach, none⟩] else []
      { dev := v, fired := f.fired ++ [i], out := f.out ++ fo.1,
        groups := SMap.set 0 f.groups (swGroup w) (SMap.get 0 f.groups (swGroup w) + 1), recs := f.recs ++ spike ++ memb r.2.1 }
    else
      { f with dev := v.setStateWord p i (swUpdate w v' (swRefr w) post), recs := f.recs ++ memb v' }

/-- Records in the hub of tile `t` (die × 64 + tile), which holds up to 64 (R212). -/
def hubCount (v : Dev) (t : Nat) : Nat := (v.bus.filter (fun r => r.src / 33 == t)).length

/-- A fire hands its records to its tile's hub, in order, while there is room; the others wait, and the fire with them (R212, R214). -/
def giveRecords (p : Nat) (v : Dev) : Dev :=
  match (v.core p).fire with
  | none => v
  | some f =>
    let room := 64 - hubCount v (p / 33)
    let v := v.modCore p (fun k => { k with fire := some { f with recs := f.recs.drop room } })
    { v with bus := v.bus ++ f.recs.take room }

/-- A place in the hub of tile `t` is free: the waiting cores of the tile are served in the order of their slots (DESIGN CHOICE, log entry
176: R212 names no order). -/
def hubFreed (t : Nat) (v : Dev) : Dev := (List.range 33).foldl (fun v i => giveRecords (t * 33 + i) v) v

/-- The core is still (R96): every enabled neuron has REFR 0, and HOLD_LIF or v = 0 with no bias. -/
def coreStill (v : Dev) (p : Nat) : Bool :=
  (List.range (v.neurons p)).all (fun i =>
    let w := v.stateWord p i
    !swEn w || (decide (swRefr w = 0) && (decide ((v.grp p (swGroup w)).prog = 7)
      || (decide (swV w = 0) && decide ((v.grp p (swGroup w)).bias = 0)))))

/-- The plasticity conditions of R124 at close of a tick. -/
def plasticQuiet (v : Dev) (p : Nat) : Bool :=
  !v.plEn p || (decide (traceNz v p = 0) && !v.fb (NC_PL_STATUS p) 1
    && decide (v.fd (NC_PL_EPOCH p) 16 16 + 1 ≠ (v.core p).epochLen))

/-- The core skips the fold (R96). -/
def quietTick (v : Dev) (p : Nat) : Bool :=
  coreStill v p && plasticQuiet v p && decide ((v.core p).cnt = []) && !(v.core p).released

/-- The fold of tick `n` and what it hands on (R89 to R96, R112). -/
def foldCore (env : Env) (p n : Nat) (v : Dev) : Dev :=
  let coach := v.coreOwner p
  let quiet := quietTick v p
  let v := v.setB (NC_STATUS p) 4 quiet
  let v := v.setB (NC_STATUS p) 6 true
  let start (f : Fire) (v : Dev) : Dev :=
    v.modCore p (fun k => { k with fire := some f, acc := [], cnt := [], released := false, ringRec := false })
  if quiet then start ⟨n, 0, [], 0, none, true, [], false, [], true⟩ (v.inc (NC_IDLE_TICKS p) 1)
  else
    let f := (List.range (v.neurons p)).foldl (foldNeuron env p n coach) ⟨v, [], [], [], []⟩
    let v := potentiate p f.fired f.dev
    let cycles := (v.neurons p + 3) / 4 + potCycles v p (decide (f.fired ≠ []))
    giveRecords p (start ⟨n, cycles, f.out, 0, none, false, f.groups, false, f.recs, false⟩ v)

/-- Close of tick `n` at a core: the open tick becomes n + 1, and the fold starts unless an earlier fire still runs (R48 to R52). -/
def closeCore (env : Env) (p n : Nat) (v : Dev) : Dev :=
  let v := takeArrivals env p v
  let v := v.setF (NC_STATUS p) 8 8 (n + 1)
  if (v.core p).fire != none then v.modCore p (fun k => { k with openTick := n + 1, closes := k.closes ++ [n] })
  else foldCore env p n (v.modCore p (fun k => { k with openTick := n + 1 }))

/-- After fire `n`: the ring slot of tick n + 1, then the buffered entries, in order (R86). Entries for later ticks stay. -/
def afterFire (env : Env) (p n : Nat) (v : Dev) : Dev :=
  let v := drainRing env p (n + 1) v
  let l := (v.core p).inbuf
  l.foldl (fun v a => place env p a v) (v.modCore p (fun k => { k with inbuf := [] }))

/-! ## State-region writes (R72) -/

/-- Eight bytes of local memory as the writes held for them leave them. -/
def Dev.heldWord (v : Dev) (p a : Nat) : List Byte :=
  match (v.core p).held.reverse.find? (fun e => e.1 == a) with
  | some e => leBytes 8 e.2
  | none => v.ldBytes (coreMem p a) 8

/-- A write of eight bytes to local memory: to the state region while the core folds it is held, else it is applied at once. The fold has
ended with the row STATE_WRITE_APPLY, or with the fire (R72; log entry 177). -/
def writeCore8 (p off x : Nat) (v : Dev) : Dev :=
  let base := v.fd (NC_STATE_CFG p) 0 10 * 256
  let busy := match (v.core p).fire with
    | some f => !f.folded
    | none => false
  if busy && decide (base ≤ off) && decide (off < base + v.neurons p * 8) then
    v.modCore p (fun k => { k with held := k.held ++ [(off, x)] })
  else v.stCore p off 8 x

/-- Bytes written to a core's local memory, atomic per aligned 8 bytes: writes to the state region wait for a fold to end (R72). -/
def writeCoreBytes (p off : Nat) (bytes : List Byte) (v : Dev) : Dev :=
  if (v.core p).fire = none then v.st (coreMem p off) bytes
  else
    let first := off / 8
    let words := if bytes = [] then 0 else (off + bytes.length - 1) / 8 - first + 1
    (List.range words).foldl (fun v k =>
      let a := 8 * (first + k)
      let old := v.heldWord p a
      let new := (List.range 8).map (fun i => if off ≤ a + i ∧ a + i < off + bytes.length then bytes.getD (a + i - off) 0 else old.getD i 0)
      writeCore8 p a (ofLeBytes new) v) v

/-- The fold has ended: held writes are applied in order (R72). -/
def stateWriteApply (p : Nat) (v : Dev) : Dev :=
  let l := (v.core p).held
  l.foldl (fun v e => v.stCore p e.1 8 e.2)
    (v.modCore p (fun k => { k with held := [], fire := k.fire.map (fun f => { f with folded := true }) }))

/-! ## Enabling (R70, R71, R105, R107, R163) -/

/-- The region of a queue in bytes (R162, R171). -/
def queueBytes (v : Dev) (p q : Nat) : Nat :=
  let c := v.rd (QM_Q_COMB p q)
  let vlen := 32 * (fld c 16 4 + 1)
  up256 (256 + v.qRing p q + (if v.qMode p q = 2 then 2 ^ fld c 21 3 * (32 + 2 * vlen) else 0))

/-- The regions of a core with a size that is not 0: base and rounded size (R69). -/
def coreRegions (v : Dev) (p : Nat) : List (Nat × Nat) :=
  let r (reg : Reg) (n : Nat) : Nat × Nat := (v.fd reg 0 10 * 256, up256 n)
  ([(0, 256), r (NC_STATE_CFG p) (v.neurons p * 8), r (NC_AXON_CFG p) (v.axons p * 8),
    r (NC_ROW_CFG p) (v.fd (NC_ROW_CFG p) 16 11 * 256), r (NC_FANOUT_CFG p) (v.fd (NC_FANOUT_CFG p) 16 16 * 8),
    r (NC_DRING_CFG p) (64 * ringCap v p), r (NC_PL_REGION p) (v.plSize p)]).filter (fun x => x.2 ≠ 0)

/-- Regions of the open queues other than `q`. -/
def queueRegions (v : Dev) (p q : Nat) : List (Nat × Nat) :=
  ((List.range 16).filter (fun i => i ≠ q && v.qOpen p i)).map (fun i => (v.qBase p i, queueBytes v p i))

/-- Two regions share a byte. -/
def overlaps (a b : Nat × Nat) : Bool := decide (a.1 < b.1 + b.2) && decide (b.1 < a.1 + a.2)

/-- No region overlaps a later one and none extends beyond 0x3_FFFF. -/
def regionsOk : List (Nat × Nat) → Bool
  | [] => true
  | r :: rest => decide (r.1 + r.2 ≤ 0x40000) && rest.all (fun x => !overlaps r x) && regionsOk rest

/-- The checks of R70 and of the register tables. A core with UCODE_ERR fails them too: R97 has it stay unarmed and does not say how an
ENABLE on it ends (DESIGN CHOICE, log entry 134). -/
def layoutOk (v : Dev) (p : Nat) : Bool :=
  regionsOk (coreRegions v p ++ queueRegions v p 16) && decide (v.neurons p ≤ 1024)
    && decide (v.fd (NC_ROW_CFG p) 16 11 ≤ 1024)
    && decide (v.plCount p ≤ 1024) && decide (4 ≤ v.fd (NC_DRING_CFG p) 16 4) && decide (v.fd (NC_DRING_CFG p) 16 4 ≤ 10)
    && decide (v.ldCore p 0 1 = 2) && decide (v.ldCore p 2 2 = v.fd (NC_UCODE_ID p) 0 16) && !v.fb (NC_STATUS p) 3

/-- The checks of R107 and of NC_PL_REGION, with EN = 1. A region too small for its target table and plastic list, and a SIZE that the
register does not allow, fail too and set CFG_ERR, which R107 does not list (DESIGN CHOICE, log entry 135). -/
def plasticOk (v : Dev) (p : Nat) : Bool :=
  let plastic := (List.range (v.axons p)).filter (fun a => axPlastic (v.axonEntry p a))
  decide (1 ≤ v.fd (NC_PL_REGION p) 16 8) && decide (v.fd (NC_PL_REGION p) 16 8 ≤ 128)
    && decide (v.plDeltaOff p ≤ v.plBase p + v.plSize p) && decide (plastic.length = v.plCount p)
    && (v.plAxons p).all (fun a => decide (a < v.axons p) && axPlastic (v.axonEntry p a))
    && plastic.all (fun a =>
      let w := v.axonEntry p a
      decide (axDelta w + axLen w ≤ v.plDeltas p) && decide (fldN w 62 2 = 0))
    && decide (v.fd (NC_PL_EPOCH p) 0 16 ≠ 0)

/-- ENABLE written from 0 to 1: checked, then armed, or refused with LAYOUT_ERR and an IF record (R70, R107). In a coach that is
not running the core joins at once; else it rejoins as R101 states (R392). -/
def coreEnable (env : Env) (p : Nat) (v : Dev) : Dev :=
  if v.enabled p then v else
  let plOk := !v.plEn p || plasticOk v p
  if layoutOk v p && plOk then
    let v := (v.setB (NC_CTRL p) 0 true).setB (NC_STATUS p) 0 true
    let g := v.coreOwner p
    let now := decide (g < 4) && !v.fb (TG_CTRL env.master g) 0 && !v.fb (NC_STATUS p) 5
    let tick := v.rd64 (TG_TICK_LO env.master g) (TG_TICK_HI env.master g)
    let v := if now then v.setF (NC_STATUS p) 8 8 tick else v
    v.modCore p (fun k =>
      { k with
        joined := now, joinAt := none, openTick := if now then tick else k.openTick })
  else
    let v := v.setB (NC_STATUS p) 1 true
    let v := if plOk then v else v.setB (NC_PL_STATUS p) 0 true
    raiseConfig env (pDie p) (v.coreOwner p) (mCore p) (NC_CTRL p) v

/-- ENABLE written to 0: the core takes no part in ticks. -/
def coreDisable (p : Nat) (v : Dev) : Dev :=
  ((v.setB (NC_CTRL p) 0 false).setB (NC_STATUS p) 0 false).modCore p (fun k => { k with joined := false, joinAt := none })

/-- A threshold entry is written; an invalid value sets THR_ERR and its THR_BAD bit (R75). -/
def threshWrite (p i : Nat) (x : Word) (v : Dev) : Dev :=
  let t := fld x 0 24
  let v := v.wrN (NC_THRESH p i) t
  if 1 ≤ t ∧ t ≤ 8388607 then v.setB (NC_STATUS p) (16 + i) false
  else (v.setB (NC_STATUS p) 2 true).setB (NC_STATUS p) (16 + i) true

/-- The reset of a core completes; a fenced core stays in reset (R99, R389). -/
def coreResetDone (p : Nat) (v : Dev) : Dev :=
  if v.fb (NC_STATUS p) 5 && !v.isFenced p then v.setB (NC_STATUS p) 5 false else v

/-- RESTART is for firmware and the command engine only (R99). -/
def mayRestart : Party → Bool
  | .port _ => false
  | .debug => false
  | _ => true

def execEventArrival (p : Phys) (s : State) : Host.Outcome State Fault Refusal := .next (s.onClk (pDie p.idx) 1 (eventArrival p.idx))
def execStateWriteApply (p : Phys) (s : State) : Host.Outcome State Fault Refusal :=
  .next (s.onClk (pDie p.idx) 1 (fun _ => stateWriteApply p.idx))
def execNcCtrlEnable (who : Party) (n : CoreNo) (s : State) : Host.Outcome State Fault Refusal :=
  .next (s.onDev (fun env => coreWrite env who n.val 0 (coreEnable env)))
def execNcCtrlRestart (who : Party) (n : CoreNo) (s : State) : Host.Outcome State Fault Refusal :=
  .next (s.onDev (fun env => coreWrite env who n.val 0 (fun p v => if mayRestart who then coreReset p v else v)))
def execNcCtrlClrCnt (who : Party) (n : CoreNo) (s : State) : Host.Outcome State Fault Refusal :=
  .next (s.onDev (fun env => coreWrite env who n.val 0 (fun p v => v.clearRegs (ncCounters p ++ plCounters p))))
def execNcThreshWrite (who : Party) (n : CoreNo) (i : Fin 16) (x : Word) (s : State) : Host.Outcome State Fault Refusal :=
  .next (s.onDev (fun env => coreWrite env who n.val (0x80 + 4 * i.val) (fun p => threshWrite p i.val x)))

end Sys2Proof.Machine
end

