-- ==== Sys2Proof/Machine/Fabric.lean ====
section
/-! DEFINITION. The event fabric: source interfaces, injection, routing, multicast, ejection, couplings and die routes (R127 to R160,
05_event_fabric.md). PACKET_INJECT's command stands in Queues.lean, because a dropped packet may end a send. -/
namespace Sys2Proof.Machine

open Sys2Proof

/-! ## Source interfaces (R131, R133, R135) -/

/-- Interfaces are keyed by physical core, blocks from 2^20 upward. -/
def blockIface (d b : Nat) : Nat := 0x100000 + d * 32 + b

def srcKey : Source → Nat
  | .core p => p.idx
  | .block d b => blockIface d.val b.val
  | .maint d _ => blockIface d.val 20

def ifaceIsCore (k : Nat) : Bool := decide (k < 0x100000)
def ifaceDie (k : Nat) : Nat := if k < 0x100000 then pDie k else (k - 0x100000) / 32
def ifaceBlock (k : Nat) : Nat := (k - 0x100000) % 32

/-- The tile whose router serves the interface (R199, R262). Of the management interface no rule names a tile: T0 (DESIGN CHOICE, log entry
173). -/
def ifaceTile (k : Nat) : Nat :=
  if k < 0x100000 then pTile k
  else match ifaceBlock k with
    | 0 => 27
    | 1 => 28
    | 2 => 35
    | 3 => 36
    | b => if b < 20 then 12 + b else 0

/-- The owning coach of a source, 4 for none (R133). -/
def ifaceOwner (v : Dev) (k : Nat) : Nat :=
  if k < 0x100000 then v.coreOwner k
  else
    let b := ifaceBlock k
    if b < 4 then v.churnOwner (ifaceDie k) b else if b < 20 then v.sepOwner (ifaceDie k) (b - 4) else 4

/-- SRC in the form of R131. -/
def ifaceSrc (v : Dev) (k : Nat) : Nat :=
  if k < 0x100000 then (v.numberOf k).getD 0 else ifaceDie k + 8 * ifaceBlock k

/-- MASTER of the block behind an interface (R380). -/
def ifaceMaster (k : Nat) : Nat :=
  if k < 0x100000 then mCore k
  else
    let b := ifaceBlock k
    if b < 4 then mBlock (ifaceDie k) 0 b else if b < 20 then mBlock (ifaceDie k) 2 (b - 4) else mBlock (ifaceDie k) 7 0

/-- EF_EPOCH.CUR of a coach (R149); a source without a coach has none and injects nothing (R133). -/
def curEpoch (env : Env) (v : Dev) (g : Nat) : Bool := decide (g < 4) && v.fb (EF_EPOCH env.master) g

/-- EF_CTRL.HOLD of a coach (R153). -/
def isHeld (env : Env) (v : Dev) (g : Nat) : Bool := v.fb (EF_CTRL env.master) g

/-- INFO of the fabric's records: DEST, SRC and router tile (R381). -/
def flitInfo (pkt : Packet) (tile : Nat) : Nat := pkt.dest % 0x40000 + pkt.src % 0x40000 * 0x40000 + tile * 0x1000000000

/-- An IF record of source IF_ROUTE (R381). -/
def raiseRoute (env : Env) (die owner master tile : Nat) (pkt : Packet) (v : Dev) : Dev :=
  raise env { die := die, cls := clsIF, owner := owner, source := 0x22, master := master, access := accTransit, addr := 0,
              info := flitInfo pkt tile } v

/-- An event word (R132). -/
def eventWord (axon payload delay : Nat) : Word := w32 (axon % 65536 + payload % 256 * 65536 + delay % 16 * 16777216)

/-- A source without a coach cannot inject: what it offers is discarded, with an IF record once in a tick (R133). -/
def discardUnowned (env : Env) (k : Nat) (pkt : Packet) (v : Dev) : Dev :=
  if (v.iface k).noCoachRec then v
  else (raiseRoute env (ifaceDie k) 4 (ifaceMaster k) (ifaceTile k) pkt v).modIface k (fun i => { i with noCoachRec := true })

/-- The head that a source interface fills in for its packet (R133). -/
def headOf (env : Env) (v : Dev) (k typ dkind dest tag : Nat) : Packet :=
  let g := ifaceOwner v k
  { version := 2, typ := typ, epoch := curEpoch env v g, vc := false, coach := g, dkind := dkind, dest := dest,
    src := ifaceSrc v k, srcBlock := !ifaceIsCore k, tag := tag, lenM1 := 0, lastM1 := 7, info := 0, words := [], badFlits := [], chan := 0 }

/-- An event joins the open packet of its interface: one of the same DKIND, DEST and TAG with room (R135). R135 does not say whether a rank
and the core number it stands for are the same DEST: the model compares DEST as the source named it, so they never share a packet (DESIGN
CHOICE, log entry 142). -/
def fitsOpen (v : Dev) (k kind dest tag : Nat) : Bool := match (v.iface k).opened with
  | some c => c.pkt.dkind == kind / 2 && c.rank == decide (kind = 1) && c.pkt.dest == dest && c.pkt.tag == tag
      && decide (c.pkt.words.length < 128)
  | none => false

/-- A source offers one event: it joins the open packet or starts a new one (R133, R135). `kind` 0 core number, 1 rank, 2 group. -/
def handEvent (env : Env) (k kind dest tag : Nat) (w : Word) (v : Dev) : Dev :=
  if ifaceOwner v k = 4 then discardUnowned env k (headOf env v k 0 (kind / 2) dest tag) v
  else if fitsOpen v k kind dest tag then
    v.modIface k (fun i =>
      { i with opened := i.opened.map (fun c => { c with pkt := { c.pkt with words := c.pkt.words ++ [w] } }) })
  else
    let v := closePacket v k
    let h := headOf env v k 0 (kind / 2) dest tag
    v.modIface k (fun i => { i with opened := some ⟨{ h with words := [w] }, decide (kind = 1), none⟩ })

/-! ## The emission of a fire (R92, R135, R146) -/

/-- The coach of a core is held by DRAIN: its fires wait (R153). -/
def fireHeld (env : Env) (v : Dev) (p : Nat) : Bool := decide (v.coreOwner p < 4) && isHeld env v (v.coreOwner p)

/-- The interface takes an event of a fire: into its open packet, or into a new one while no earlier event packet still waits to leave
(R135; log entry 143). -/
def takesEvent (v : Dev) (p : Nat) (e : OutEv) : Bool :=
  ifaceOwner v p == 4 || fitsOpen v p e.dkind e.dest e.tag || (v.iface p).closed.all (fun c => c.pkt.typ != 0)

/-- Events are handed over in order while the interface takes them (R92). -/
def handOver (env : Env) (p : Nat) : Nat → Dev → Dev
  | 0, v => v
  | fuel + 1, v => match (v.core p).fire with
    | none => v
    | some f => match f.out with
      | [] => v
      | e :: rest =>
        if takesEvent v p e then
          handOver env p fuel (handEvent env p e.dkind e.dest e.tag (eventWord e.axon e.payload e.delay)
            (v.modCore p (fun k => { k with fire := some { f with out := rest, sent := f.sent + 1, stallAt := none } })))
        else v

/-- The fire hands over what it can; with its last event the open packet closes (R135), and with an event that the interface does not take
the stall begins (R146). -/
def emission (env : Env) (p : Nat) (v : Dev) : Dev :=
  match (v.core p).fire with
  | none => v
  | some f =>
    if fireHeld env v p then v
    else
      let v := handOver env p f.out.length v
      match (v.core p).fire with
      | none => v
      | some f =>
        if f.out = [] then closePacket v p
        else v.modCore p (fun k => { k with fire := some { f with stallAt := some (f.stallAt.getD (env.nowOf (pDie p))) } })

/-! ## The events of a churn's output stages and of a separator's elements (R221, R267) -/

/-- Events are handed over in order while the interface takes them: those that are left, and the state after. -/
def handWhile (env : Env) (k : Nat) : List OutEv → Dev → List OutEv × Dev
  | [], v => ([], v)
  | e :: rest, v =>
    if takesEvent v k e then handWhile env k rest (handEvent env k e.dkind e.dest e.tag (eventWord e.axon e.payload e.delay) v)
    else (e :: rest, v)

/-- Events of output stages are handed over in order while the churn's interface takes them. -/
def handStage (env : Env) (d c : Nat) (v : Dev) : Dev :=
  let l := (v.churn d c).eout
  let r := handWhile env (blockIface d c) (l.map (·.2)) v
  r.2.modChurn d c (fun h => { h with eout := l.drop (l.length - r.1.length) })

/-- The cycles since which the first event has waited are counted once it is taken (R221). -/
def countWait (d c now : Nat) (v : Dev) : Dev :=
  let h := v.churn d c
  match h.waitAt, h.eout with
  | some t, (b, _) :: _ =>
    (v.inc (CHN_EMIT_WAIT d c) ((now - t) / 1000)).modChurn d c (fun h =>
      { h with waitAt := none, waited := SMap.set 0 h.waited b (SMap.get 0 h.waited b + (now - t) / 1000) })
  | _, _ => v

/-- The output stages of a churn hand over what they can; with an event that the interface does not take they wait (R221). -/
def stageEmission (env : Env) (d c : Nat) (v : Dev) : Dev :=
  let now := v.chkAt d (env.nowOf d)
  match (v.churn d c).eout with
  | [] => v
  | (_, e) :: _ =>
    let v := if takesEvent v (blockIface d c) e then countWait d c now v else v
    let v := handStage env d c v
    v.modChurn d c (fun h => { h with waitAt := if h.eout.isEmpty then none else some (h.waitAt.getD now) })

/-- The frame's last event packet of a separator closes, once its events have been handed over (R135). -/
def sepClose (d k : Nat) (v : Dev) : Dev :=
  if (v.sep d k).eout.isEmpty then closePacket (v.modSep d k (fun s => { s with closeDue := false })) (blockIface d (4 + k))
  else v.modSep d k (fun s => { s with closeDue := true })

/-- A separator hands over what its interface takes of the events it has made; the CHK cycles that the first of them has waited are counted once
it is taken (R267). -/
def sepEmission (env : Env) (d k : Nat) (v : Dev) : Dev :=
  let now := v.chkAt d (env.nowOf d)
  let s := v.sep d k
  match s.eout with
  | [] => v
  | e :: _ =>
    let n := if takesEvent v (blockIface d (4 + k)) e then (now - s.waitAt.getD now) / 1000 else 0
    let r := handWhile env (blockIface d (4 + k)) s.eout (v.inc (SP_EMIT_WAIT d k) n)
    let v := r.2.modSep d k (fun s =>
      { s with eout := r.1, waited := s.waited + n, waitAt := if r.1.isEmpty then none else if n = 0 then some (s.waitAt.getD now) else some now })
    if s.closeDue && r.1.isEmpty then sepClose d k v else v

/-! ## Injection (R134) -/

/-- What becomes of a packet at its source. -/
inductive Inject where
  | sent | badParam | security
  deriving DecidableEq, Repr

/-- The physical cores a group entry of a version serves. -/
def groupOf (v : Dev) (version : Bool) (n : Nat) : Option Group := SMap.get none v.fab.groups (b2n version * 4096 + n)

/-- The physical core a route entry of a version names (R136). -/
def routeOf (v : Dev) (version : Bool) (n : Nat) : Option Nat :=
  match SMap.get 0 v.fab.routes (b2n version * 0x40000 + n) with
  | 0 => none
  | k + 1 => some k

/-- The packet enters the fabric at its source's router (R152); one that a core sends to itself stays in its interface's loopback (R94). -/
def launch (k : Nat) (pkt : Packet) (members : List Nat) (v : Dev) : Dev :=
  let d := ifaceDie k
  let loop := ifaceIsCore k && members == [k]
  let v := v.inc64 (EF_INJ_PKTS_LO d) (EF_INJ_PKTS_HI d) 1
  v.modFab (fun f =>
    { f with
      flights := f.flights ++ [⟨f.nextPid, pkt, d, ifaceTile k, if loop then some (pSlot k) else none, members, if loop then 6 else 5, false⟩],
      nextPid := f.nextPid + 1 })

/-- Checks 2 and 4 of R134 for a core number, and the launch. -/
def injectTo (env : Env) (k : Nat) (pkt : Packet) (v : Dev) : Inject × Dev :=
  let d := ifaceDie k
  let drop (v : Dev) := raiseRoute env d pkt.coach (ifaceMaster k) (ifaceTile k) pkt (v.inc (EF_NOROUTE d) 1)
  if env.cores ≤ pkt.dest then (.badParam, drop v)
  else match routeOf v pkt.epoch pkt.dest with
    | some p => (.sent, launch k pkt [p] v)
    | none => (.badParam, drop v)

/-- EPOCH and COACH are set at injection (R130; DEDUCED, log entry 140): the coach that owns the source now, and its epoch now. -/
def stamped (env : Env) (v : Dev) (k : Nat) (pkt : Packet) : Packet :=
  { pkt with epoch := curEpoch env v (ifaceOwner v k), coach := ifaceOwner v k }

/-- A closed packet is resolved at its source interface: rank, range, group owner, route entry, in this order (R134). -/
def injectClosed (env : Env) (k : Nat) (c : Closed) (v : Dev) : Inject × Dev :=
  let d := ifaceDie k
  let g := ifaceOwner v k
  let pkt := stamped env v k c.pkt
  if g = 4 then (.badParam, discardUnowned env k pkt v)
  else if c.rank then
    if (v.coach g).rankCount ≤ pkt.dest then
      (.badParam, raiseRoute env d g (ifaceMaster k) (ifaceTile k) pkt v)
    else match SMap.get 0 (v.coach g).ranks pkt.dest with
      | 0 => (.badParam, raiseRoute env d g (ifaceMaster k) (ifaceTile k) pkt (v.inc (EF_NOROUTE d) 1))
      | n + 1 => injectTo env k { pkt with dest := n } v
  else if pkt.dkind = 1 then
    match groupOf v pkt.epoch pkt.dest with
    | some gr =>
      if gr.owner ≠ g then
        (.security, raise env
          { die := d, cls := clsSE, owner := g, source := 0x30, master := ifaceMaster k, access := accCheck, addr := 0,
            info := g % 4 + 4 + pkt.dest % 4096 * 8 } (v.inc (EF_XCOACH_DROP d) 1))
      else (.sent, launch k pkt gr.places v)
    | none => (.badParam, raiseRoute env d g (ifaceMaster k) (ifaceTile k) pkt (v.inc (EF_NOROUTE d) 1))
  else injectTo env k pkt v

/-- The oldest closed packet of an interface, if its coach is not held and its die may inject (R135, R153, R155). A CLOSED answer of a core
on a die in warm reset is such a packet: R144 has it sent and R155 has the die inject nothing, so it waits until the die is back (DESIGN
CHOICE, log entry 144). -/
def nextClosed (env : Env) (k : Nat) (v : Dev) : Option Closed :=
  match (v.iface k).closed with
  | c :: _ =>
    if (decide (ifaceOwner v k < 4) && isHeld env v (ifaceOwner v k)) || v.dieDown.contains (ifaceDie k) then none else some c
  | [] => none

def dropClosed (k : Nat) (v : Dev) : Dev := v.modIface k (fun i => { i with closed := i.closed.drop 1 })

/-! ## Routing (R13, R136 to R143) -/

/-- A hop of a head flit. -/
inductive Hop where
  | local (slot : Nat)
  | mesh (tile : Nat) (port : Nat)
  | cross (edge : Nat)
  | stuck
  deriving DecidableEq, Repr

/-- Row and column of a die (R13). -/
def dieRow (part : Part) (d : Nat) : Nat := if part = .vn2_2 then 0 else d % 2
def dieCol (part : Part) (d : Nat) : Nat := if part = .vn2_2 then d else d / 2
def dieAt (part : Part) (row col : Nat) : Nat := if part = .vn2_2 then col else col * 2 + row

/-- The die behind edge 0 East, 1 West, 2 North, 3 South (R14). -/
def neighbour (part : Part) (d edge : Nat) : Option Nat :=
  let r := dieRow part d
  let c := dieCol part d
  let cols := if part = .vn2_2 then 2 else part.dies / 2
  match edge with
  | 0 => if c + 1 < cols then some (dieAt part r (c + 1)) else none
  | 1 => if 0 < c then some (dieAt part r (c - 1)) else none
  | 2 => if part ≠ .vn2_2 ∧ r = 1 then some (dieAt part 0 c) else none
  | 3 => if part ≠ .vn2_2 ∧ r = 0 then some (dieAt part 1 c) else none
  | _ => none

def opposite (edge : Nat) : Nat := if edge < 2 then 1 - edge else 5 - edge

/-- The default die route of R138: east or west to the destination column, then north or south; none to a die the part lacks. -/
def drouteDefault (env : Env) (d e : Nat) : Nat :=
  let part := env.hw.part
  if !env.has e || !env.has d then 7
  else if dieCol part d < dieCol part e then 1
  else if dieCol part e < dieCol part d then 2
  else if dieRow part e < dieRow part d then 3
  else if dieRow part d < dieRow part e then 4
  else 0

/-- An entry of a die route table in the form in which the state holds it: the default of R138 where nothing has been written (R155). -/
def drouteEntry (env : Env) (m : SMap Nat) (d e : Nat) : Nat :=
  match SMap.get 0 m (d * 8 + e) with
  | 0 => drouteDefault env d e
  | x + 1 => x

/-- Committed die route: NEXT + 8 × VCSW (R137). -/
def drouteOf (env : Env) (v : Dev) (d e : Nat) : Nat := drouteEntry env v.fab.droute d e

/-- The staging copy (R153). -/
def staged (env : Env) (v : Dev) (d e : Nat) : Nat := drouteEntry env v.fab.staged d e

/-- A mesh step from tile `t` towards x, then the port it leaves by: 0 North, 1 East, 2 South, 3 West. -/
def stepX (t x : Nat) : Hop := if t % 8 < x then .mesh (t + 1) 1 else .mesh (t - 1) 3
def stepY (t y : Nat) : Hop := if t / 8 < y then .mesh (t + 8) 2 else .mesh (t - 8) 0

/-- The next hop of a packet at a router towards a physical core (R138). -/
def nextHop (env : Env) (v : Dev) (d t member : Nat) : Hop :=
  let x := pTile member % 8
  let y := pTile member / 8
  match drouteOf env v d (pDie member) % 8 with
  | 0 => if t % 8 ≠ x then stepX t x else if t / 8 ≠ y then stepY t y else .local (pSlot member)
  | 1 => if t % 8 ≠ 7 then stepX t 7 else .cross 0
  | 2 => if t % 8 ≠ 0 then stepX t 0 else .cross 1
  | 3 => if t % 8 ≠ x then stepX t x else if t / 8 ≠ 0 then stepY t 0 else .cross 2
  | 4 => if t % 8 ≠ x then stepX t x else if t / 8 ≠ 7 then stepY t 7 else .cross 3
  | _ => .stuck

/-- The tile by which a packet enters the next die. -/
def entryTile (t edge : Nat) : Nat :=
  match edge with
  | 0 => t / 8 * 8
  | 1 => t / 8 * 8 + 7
  | 2 => 56 + t % 8
  | _ => t % 8

/-- The port number of EF_LINK_SEL that a hop leaves by. -/
def hopPort : Hop → Nat
  | .local _ => 5
  | .mesh _ p => p
  | .cross _ => 4
  | .stuck => 7

def Dev.flight (v : Dev) (pid : Nat) : Option Flight := v.fab.flights.find? (fun f => f.pid == pid)
def Dev.setFlight (v : Dev) (f : Flight) : Dev :=
  v.modFab (fun b => { b with flights := b.flights.map (fun x => if x.pid = f.pid then f else x) })
def Dev.retire (v : Dev) (pid : Nat) : Dev :=
  v.modFab (fun b => { b with flights := b.flights.filter (fun x => x.pid ≠ pid) })

/-- The distinct next hops of the members a packet still serves. -/
def hopsOf (env : Env) (v : Dev) (f : Flight) : List Hop := (f.members.map (nextHop env v f.die f.tile)).eraseDups

/-- The outputs that the router's group entry names for a multicast packet: those towards every member of the group (R136, R142). -/
def entryHops (env : Env) (v : Dev) (f : Flight) : List Hop :=
  match (if f.pkt.dkind = 1 then groupOf v f.pkt.epoch f.pkt.dest else none) with
  | some g => (g.places.map (nextHop env v f.die f.tile)).eraseDups
  | none => []

/-- The packet is stored in the replication buffer before any copy of it leaves: it goes several ways, or the router's group entry names
more than one output (R143). Copies leave by those outputs that lie on its way (DEDUCED, log entry 108). -/
def storesFirst (env : Env) (v : Dev) (f : Flight) : Bool :=
  !f.copy && hopsOf env v f != [] && (decide (1 < (hopsOf env v f).length) || decide (1 < (entryHops env v f).length))

/-! ## Buffers, credits and arbitration (R127, R138, R140, R141, R143, R145) -/

/-- The output port of a hop: 0 North, 1 East, 2 South, 3 West, 5 local. A coupling port takes the place of the mesh port that its edge
lacks (R127). -/
def outDir : Hop → Nat
  | .local _ => 5
  | .mesh _ p => p
  | .cross 0 => 1
  | .cross 1 => 3
  | .cross 2 => 0
  | .cross _ => 2
  | .stuck => 7

/-- The input port by which a packet that left by an output port enters the next router. -/
def inDir (out : Nat) : Nat := (out + 2) % 4

/-- Flits of a packet (R130). -/
def Packet.flits (pkt : Packet) : Nat := pkt.lenM1 + 2

/-- The packets in the input buffer of a router's port and virtual channel, oldest first. -/
def queueOf (v : Dev) (d t inp : Nat) (vc : Bool) : List Flight :=
  v.fab.flights.filter (fun f => f.die == d && f.tile == t && f.inp == inp && f.pkt.vc == vc && f.slot == none && !f.copy)

/-- The input buffer has credit for a packet: it is empty, or its flits fit. A packet counts whole where its head is (log entry 141). -/
def roomAt (v : Dev) (d t inp : Nat) (vc : Bool) (n : Nat) : Bool :=
  let l := queueOf v d t inp vc
  l.isEmpty || decide ((l.map (fun f => f.pkt.flits)).sum + n ≤ Config.vcFlits)

/-- A packet's head is at the front of its input buffer, or it is a copy in the replication buffer (R143). -/
def atFront (v : Dev) (f : Flight) : Bool :=
  f.slot == none && (f.copy || (queueOf v f.die f.tile f.inp f.pkt.vc).head? == some f)

/-- The packet is on VC1 after it crosses into die `d` (R139): by a north or south coupling, where an entry of that die has VCSW = 1 for its
destination. R139 names one destination; of a multicast packet the model takes every member it still serves, and one with VCSW = 1 moves it
(DESIGN CHOICE, log entry 145). -/
def vcInto (env : Env) (v : Dev) (f : Flight) (edge d : Nat) : Bool :=
  f.pkt.vc || (decide (2 ≤ edge) && f.members.any (fun m => drouteOf env v d (pDie m) / 8 == 1))

/-- The hop can be made now: a mesh hop with credit at the next router, an ejection with the local port free (DEDUCED, log entry 163), or a
coupling that is in discard, or that is up, not retraining and with credit (R139, R145, R154, R158). -/
def hopOpen (env : Env) (v : Dev) (f : Flight) (h : Hop) : Bool :=
  let d := f.die
  match h with
  | .local _ => v.fab.flights.all (fun x => x.die != d || x.tile != f.tile || x.slot == none || x.inp == 6 || x.pkt.vc != f.pkt.vc)
  | .mesh t p => roomAt v d t (inDir p) f.pkt.vc f.pkt.flits
  | .cross e =>
    v.fb (EF_CPL_STATUS d e) 3 || (v.fb (EF_CPL_STATUS d e) 1 && !v.fb (EF_CPL_STATUS d e) 2
      && (match neighbour env.hw.part d e with
        | some n => roomAt v n (entryTile f.tile e) (inDir (outDir h)) (vcInto env v f e n) f.pkt.flits
        | none => false))
  | .stuck => false

/-- What asks for an output port, as the port's arbiter numbers it: input port and virtual channel. -/
def reqIndex (f : Flight) : Nat := f.inp * 2 + b2n f.pkt.vc

/-- The packets at a router whose head asks for output `out`. -/
def asking (env : Env) (v : Dev) (d t out : Nat) : List Flight :=
  v.fab.flights.filter (fun f => f.die == d && f.tile == t && atFront v f && !storesFirst env v f && (match hopsOf env v f with
    | [h] => outDir h == out
    | _ => false))

/-- Of each requester's packets that ask for the output the oldest, where it can leave now: no packet overtakes an older one of its input
port and virtual channel (R140, R192). -/
def requests (env : Env) (v : Dev) (d t out : Nat) : List Flight :=
  let l := asking env v d t out
  l.filter (fun f => l.find? (fun x => reqIndex x == reqIndex f) == some f && (hopsOf env v f).all (hopOpen env v f))

/-- Of some requesters by number, the first after the one served last (`last`, + 1), going round. -/
def roundRobin (n last : Nat) (l : List Nat) : Option Nat :=
  ((List.range n).map (fun i => (last + i) % n)).find? (fun i => l.contains i)

def rrKey (d t out : Nat) : Nat := (d * 64 + t) * 8 + out

/-- The output port serves this packet next: round-robin between input ports and virtual channels, one whole packet at a time (R141). -/
def granted (env : Env) (v : Dev) (f : Flight) (out : Nat) : Bool :=
  let l := requests env v f.die f.tile out
  l.contains f && roundRobin 14 (SMap.get 0 v.fab.rr (rrKey f.die f.tile out)) (l.map reqIndex) == some (reqIndex f)

/-- The arbiter notes whom it served. -/
def noteServed (f : Flight) (out : Nat) (v : Dev) : Dev :=
  v.modFab (fun b => { b with rr := SMap.set 0 b.rr (rrKey f.die f.tile out) (reqIndex f + 1) })

/-- The packet goes to the end of the buffer it enters. -/
def Dev.moveFlight (v : Dev) (f : Flight) : Dev :=
  v.modFab (fun b => { b with flights := b.flights.filter (fun x => x.pid ≠ f.pid) ++ [f] })

/-- EF_LINK_BUSY and EF_LINK_WAIT of the selected port (R159); `wait` FCK cycles passed before the head left. -/
def countLink (f : Flight) (h : Hop) (wait : Nat) (v : Dev) : Dev :=
  let w := v.rd (EF_LINK_SEL f.die)
  if fld w 0 6 = f.tile ∧ fld w 6 3 = hopPort h ∧ fld w 6 3 < 6 ∧ bit w 9 = f.pkt.vc then
    let v := v.inc64 (EF_LINK_BUSY_LO f.die) (EF_LINK_BUSY_HI f.die) (f.pkt.lenM1 + 2)
    v.inc64 (EF_LINK_WAIT_LO f.die) (EF_LINK_WAIT_HI f.die) wait
  else v

/-- A packet reaches a port in discard (R154): counted, and a US record at most once for each coach in a tick. -/
def discardAtCoupling (env : Env) (f : Flight) (edge : Nat) (v : Dev) : Dev :=
  let v := (v.retire f.pid).inc (EF_CPL_DOWN_DROP f.die) 1
  if v.fab.cplRec.contains f.pkt.coach then v
  else
    raise env { die := f.die, cls := clsUS, owner := f.pkt.coach, source := 0x08, master := mBlock f.die 13 (edge * 2), access := accTransit,
                addr := 0, info := edge } (v.modFab (fun b => { b with cplRec := f.pkt.coach :: b.cplRec }))

/-- A hop over a coupling that is up (R139, R143). -/
def crossHop (env : Env) (f : Flight) (edge : Nat) (v : Dev) : Dev :=
  match neighbour env.hw.part f.die edge with
  | none => v
  | some d =>
    v.moveFlight { f with
      die := d, tile := entryTile f.tile edge, inp := inDir (outDir (.cross edge)), copy := false,
      pkt := { f.pkt with vc := vcInto env v f edge d } }

/-- A packet makes its hop, or is discarded at a coupling in discard, where it leaves by no link. -/
def takeHop (env : Env) (f : Flight) (h : Hop) (wait : Nat) (v : Dev) : Dev :=
  let v := noteServed f (outDir h) v
  match h with
  | .local slot => countLink f h wait (v.moveFlight { f with slot := some slot, copy := false })
  | .mesh t p => countLink f h wait (v.moveFlight { f with tile := t, inp := inDir p, copy := false })
  | .cross e => if v.fb (EF_CPL_STATUS f.die e) 3 then discardAtCoupling env f e v else crossHop env f e (countLink f h wait v)
  | .stuck => v

/-- A corrected flit: counted, with a CE record owned by the device, which shares the router (R157, R378). -/
def flitCorrected (env : Env) (f : Flight) (v : Dev) : Dev :=
  raise env { die := f.die, cls := clsCE, owner := 4, source := 0x04, master := mBlock f.die 4 f.tile, access := accTransit,
              addr := 0, info := flitInfo f.pkt f.tile } (v.inc (EF_FLIT_CE f.die) 1)

/-- An uncorrectable head flit: the packet is discarded, with a US record for every coach that owns resources on the die (R157). -/
def headLost (env : Env) (f : Flight) (v : Dev) : Dev :=
  raiseEach env (v.ownersOn f.die)
    { die := f.die, cls := clsUS, owner := 4, source := 0x05, master := mBlock f.die 4 f.tile, access := accTransit, addr := 0,
      info := flitInfo f.pkt f.tile } ((v.retire f.pid).inc (EF_FLIT_UE f.die) 1)

/-- A body flit of the packet is in error from here on (R157). -/
def Flight.spoil (f : Flight) (k : Nat) : Flight :=
  { f with pkt := { f.pkt with badFlits := k :: f.pkt.badFlits.filter (fun x => x ≠ k) } }

/-- ROUTER_HOP: the head flit leaves its router by its only output, when the output's arbiter serves it; `err` is what the router's SECDED
check finds (R157). A packet that is not at the front of its buffer, or that its output does not take now, stays where it is. -/
def routerHop (pid : Nat) (err : FlitErr) (wait : Nat) (env : Env) (v : Dev) : Dev :=
  match v.flight pid with
  | none => v
  | some f =>
    if !atFront v f then v
    else match err with
    | .head => headLost env f v
    | _ =>
      match hopsOf env v f with
      | [h] =>
        if !granted env v f (outDir h) then v
        else match err with
          | .corrected => takeHop env f h wait (flitCorrected env f v)
          | .body k => takeHop env (f.spoil k.val) h wait v
          | _ => takeHop env f h wait v
      | _ => v

/-- The copies of a stored packet, one for each hop, the first under its own number. -/
def copiesOf (env : Env) (v : Dev) (f : Flight) : List Flight :=
  ((hopsOf env v f).zipIdx).map (fun x =>
    { f with
      pid := if x.2 = 0 then f.pid else v.fab.nextPid + (x.2 - 1), copy := true,
      members := f.members.filter (fun m => nextHop env v f.die f.tile m == x.1) })

/-- MULTICAST_REPLICATE: a packet that is to be stored enters the replication buffer of its virtual channel, once that is free, and becomes
one copy for each of the outputs on its way (R143, R152). The copies take its place among the packets of its input, so none that came later
leaves before them (R141, R192). -/
def replicate (pid : Nat) (env : Env) (v : Dev) : Dev :=
  match v.flight pid with
  | none => v
  | some f =>
    let busy := v.fab.flights.any (fun x => x.die == f.die && x.tile == f.tile && x.copy && x.pkt.vc == f.pkt.vc)
    if !atFront v f || !storesFirst env v f || busy then v else
    v.modFab (fun b =>
      { b with
        flights := b.flights.flatMap (fun x => if x.pid = f.pid then copiesOf env v f else [x]),
        nextPid := b.nextPid + ((hopsOf env v f).length - 1) })

/-! ## Ejection (R144, R157) -/

/-- A trace record into the die's FIFO, if the coach's trace point is enabled there; lost records are counted (R410). -/
def traceRec (d g point kind time : Nat) (body : List Byte) (v : Dev) : Dev :=
  if v.fb (FW_TRACE d g) point then
    let l := SMap.get [] v.traces d
    if l.length < 256 then { v with traces := SMap.set [] v.traces d (l ++ [⟨g, kind, body, time⟩]) }
    else v.setF (FW_TRACE d g) 24 8 (min 255 (v.fd (FW_TRACE d g) 24 8 + 1))
  else v

/-- CLASS of an EVENT_TRACE record (R408). -/
def classCode : EvClass → Nat
  | .onTime => 0
  | .late => 1
  | .early => 2
  | .stale => 3

/-- The events of a packet whose body flit `i / 8` is not in error. -/
def goodWords (pkt : Packet) : List Word :=
  ((List.range pkt.words.length).filter (fun i => !pkt.badFlits.contains (i / 8))).map (fun i => pkt.words.getD i 0)

/-- Events become arrivals of the core: one class and target tick for the whole packet (R50, R132). -/
def acceptEvents (env : Env) (p : Nat) (pkt : Packet) (v : Dev) : Dev :=
  let n := openTickNow env v p
  let ct := classify n pkt.tag
  let ws := goodWords pkt
  let v := v.modCore p (fun k =>
    { k with arrivals := k.arrivals ++ ws.map (fun w => ⟨⟨fld w 0 16, fld w 16 8, fld w 24 4, ct.2⟩, ct.1⟩) })
  ws.foldl (fun v w =>
    if bit w 28 then
      traceRec (pDie p) pkt.coach 0 6 (env.nowOf (pDie p))
        (leBytes 4 ((v.numberOf p).getD 0) ++ leBytes 4 n ++ leBytes 2 (fld w 0 16) ++ leBytes 1 (fld w 16 8)
          ++ leBytes 1 (classCode ct.1) ++ leBytes 4 pkt.src) v
    else v) v

/-- Each uncorrectable body flit of a packet that leaves the fabric at its destination, delivered or discarded there: counted, with a US
record for the packet's coach (R157). -/
def bodyError (env : Env) (f : Flight) (v : Dev) : Dev :=
  f.pkt.badFlits.foldl (fun v _ => raise env
    { die := f.die, cls := clsUS, owner := f.pkt.coach, source := 0x05, master := mBlock f.die 4 f.tile, access := accTransit, addr := 0,
      info := flitInfo f.pkt f.tile } (v.inc (EF_FLIT_UE f.die) 1)) v

/-- A core that is restarted and has not rejoined its coach, or is in reset (R100, R101). -/
def notReady (v : Dev) (p : Nat) : Bool := v.fb (NC_STATUS p) 5 || (v.enabled p && !(v.core p).joined)

/-- The reply to a unicast message: a TYPE 1 packet closed at the replier's interface (R178). -/
def sendReply (env : Env) (p : Nat) (pkt : Packet) (code : Nat) (v : Dev) : Dev :=
  let k := v.core p
  let h := headOf env v p 1 0 pkt.src (k.openTick % 256)
  let info := fldN pkt.info 24 16 * 0x1000000 + 16 + pkt.chan % 16
  let r : Packet := { h with lenM1 := 0, lastM1 := 7, info := info, words := [w32 (2 + 256 * code), 0, 0, 0, 0, 0, 0, 0] }
  v.modIface p (fun i => { i with closed := i.closed ++ [⟨r, false, none⟩] })

/-- The ejection checks and what becomes of the packet (R144). Only a packet that waits for input-buffer room stays. -/
def eject (env : Env) (f : Flight) (slot : Nat) (v : Dev) : Dev :=
  let pkt := f.pkt
  let d := f.die
  let p := pMake d f.tile slot
  let drop (r : Reg) (v : Dev) : Dev := (bodyError env f (v.retire f.pid)).inc r 1
  let route (v : Dev) : Dev := raiseRoute env d (v.coreOwner p) (mCore p) f.tile pkt v
  if pkt.version ≠ 2 then route (drop (EF_BAD_VER d) v)
  else if v.isFenced p then drop (EF_FENCED_DROP d) v
  else if notReady v p || v.dieDown.contains d then
    let v := drop (EF_RESET_DROP d) v
    if pkt.typ ≠ 0 ∧ pkt.dkind ≠ 1 ∧ fldN pkt.info 4 1 = 0 then sendReply env p pkt 0x31 v else v
  else if v.coreOwner p ≠ pkt.coach ∨ v.coreOwner p = 4 then
    raise env { die := d, cls := clsSE, owner := v.coreOwner p, source := 0x30, master := mCore p, access := accCheck, addr := 0,
                info := pkt.coach % 4 + 4 } (drop (EF_XCOACH_DROP d) v)
  else if pkt.dkind = 0 ∧ v.numberOf p ≠ some pkt.dest then route (drop (EF_MISROUTE d) v)
  else if pkt.typ = 0 ∧ (pkt.words = [] ∨ pkt.words.length ≠ 8 * pkt.lenM1 + pkt.lastM1 + 1) then route (drop (EF_BAD_VER d) v)
  else if pkt.typ = 0 then
    if !v.fb (NC_STATUS p) 0 then drop (EF_RESET_DROP d) v
    else
      let k := v.core p
      if k.inbuf.length + k.arrivals.length + pkt.words.length ≤ 512 then
        let v := bodyError env f (v.retire f.pid)
        acceptEvents env p pkt (v.inc64 (EF_EJ_PKTS_LO d) (EF_EJ_PKTS_HI d) 1)
      else v
  else if pkt.badFlits ≠ [] then bodyError env f (v.retire f.pid)
  else
    let v := (v.retire f.pid).inc64 (EF_EJ_PKTS_LO d) (EF_EJ_PKTS_HI d) 1
    if fldN pkt.info 4 1 = 1 then v.modCore p (fun k => { k with replies := k.replies ++ [pkt] })
    else v.modCore p (fun k => { k with msgs := k.msgs ++ [pkt] })

/-! ## In flight (R152) -/

/-- Packets of a coach and version in flight. -/
def inFlight (v : Dev) (g : Nat) (version : Bool) : Nat :=
  (v.fab.flights.filter (fun f => f.pkt.coach == g && f.pkt.epoch == version)).length

/-! ## Couplings (R154, R158) -/

/-- Both ends of a coupling. -/
def bothEnds (env : Env) (d edge : Nat) (f : Nat → Nat → Dev → Dev) (v : Dev) : Dev :=
  match neighbour env.hw.part d edge with
  | some e => f e (opposite edge) (f d edge v)
  | none => v

/-- The event module goes down: its ports discard until a die route table without the coupling is committed (R154). -/
def eventModuleDown (d edge : Nat) (v : Dev) : Dev := v.setF (EF_CPL_STATUS d edge) 1 3 4

/-- A lane of the event module is repaired by retraining, at most four times; then the module goes down (R158). -/
def eventModuleRepair (d edge : Nat) (v : Dev) : Dev :=
  let n := v.fd (EF_CPL_STATUS d edge) 4 3
  if n < 4 then (v.setF (EF_CPL_STATUS d edge) 4 3 (n + 1)).setB (EF_CPL_STATUS d edge) 2 true else eventModuleDown d edge v

/-! ## Die routes (R137, R139, R153) -/

/-- NEXT of R137 as an edge: 1 East, 2 West, 3 North, 4 South. -/
def nextEdge (n : Nat) : Option Nat := if 1 ≤ n ∧ n ≤ 4 then some (n - 1) else none

/-- The path of R139 from die `d` to die `t` in a staged table: it visits no die of `seen`, changes from a north or south hop to an
east or west hop at most once, and VCSW is 1 exactly on the entry of the die entered at that change. `last` is the edge of the hop
before: 4 for none, and there VCSW does nothing (the entry of D1 for D2 in R139's example is also D1's own). -/
def pathOk (part : Part) (table : Nat → Nat → Nat) (t : Nat) : Nat → Nat → List Nat → Nat → Bool → Bool
  | 0, _, _, _, _ => false
  | fuel + 1, d, seen, last, changed =>
    let e := table d t
    let vcsw := e / 8 % 2 == 1
    if d = t then e % 8 == 0 && !vcsw
    else match nextEdge (e % 8) with
      | none => false
      | some edge =>
        let change := (last == 2 || last == 3) && decide (edge < 2)
        if (last < 4 && vcsw != change) || (change && changed) || seen.contains d then false
        else match neighbour part d edge with
          | none => false
          | some n => pathOk part table t fuel n (d :: seen) edge (changed || change)

/-- The check of R139 over every pair of dies. -/
def drouteOk (env : Env) (table : Nat → Nat → Nat) : Bool :=
  env.dieList.all (fun s => env.dieList.all (fun t => pathOk env.hw.part table t 9 s [] 4 false))

/-- The committed routes of a die use its coupling at an edge. -/
def usesEdge (env : Env) (v : Dev) (d k : Nat) : Bool :=
  env.dieList.any (fun e => e != d && nextEdge (drouteOf env v d e % 8) == some k)

/-- The staged copy goes into use on every die at once; couplings in discard that neither end's table uses any more leave discard (R153,
R154). -/
def commitDroute (env : Env) (v : Dev) : Dev :=
  let v := env.dieList.foldl (fun v d => env.dieList.foldl (fun v e =>
    v.modFab (fun b => { b with droute := SMap.set 0 b.droute (d * 8 + e) (staged env v d e + 1) })) v) v
  env.dieList.foldl (fun v d => (List.range 4).foldl (fun v k =>
    let far := match neighbour env.hw.part d k with
      | some n => usesEdge env v n (opposite k)
      | none => false
    if usesEdge env v d k || far then v else v.setB (EF_CPL_STATUS d k) 3 false) v) v

/-- DROUTE_COMMIT (R139, R153). A refusal for traffic or holds makes an IF record of source IF_CONFIG (log entry 10). -/
def drouteCommit (d : Nat) (env : Env) (v : Dev) : Dev :=
  let held := (List.range 4).all (fun g => !v.isOpen g || isHeld env v g)
  if !held || decide (v.fab.flights ≠ []) then raiseConfig env d 4 (mBlock d 4 0) (EF_CTRL d) (v.setB (EF_STATUS d) 0 true)
  else if drouteOk env (staged env v) then commitDroute env v
  else v.setB (EF_STATUS d) 0 true

/-- Only firmware and the dispatchers write EF registers; a host's write makes an SE record (R160). -/
def efWrite (env : Env) (who : Party) (d : Nat) (r : Reg) (f : Dev → Dev) (v : Dev) : Dev :=
  if !env.has d then missWrite env who r v
  else match who with
    | .port _ => raiseSE env d 4 who (regAddr v r) v
    | .debug => v
    | _ => f v

/-- The counters of R159. -/
def efCounters (d : Nat) : List Reg :=
  [EF_INJ_PKTS_LO d, EF_INJ_PKTS_HI d, EF_EJ_PKTS_LO d, EF_EJ_PKTS_HI d, EF_NOROUTE d, EF_XCOACH_DROP d, EF_FENCED_DROP d, EF_RESET_DROP d,
   EF_MISROUTE d, EF_BAD_VER d, EF_EMIT_DROP d, EF_CPL_DOWN_DROP d, EF_FLIT_CE d, EF_FLIT_UE d, EF_CPL_REPLAY d, EF_LINK_BUSY_LO d,
   EF_LINK_BUSY_HI d, EF_LINK_WAIT_LO d, EF_LINK_WAIT_HI d]

/-- A write to EF_LINK_SEL selects a port and clears the link counters (R159). -/
def linkSelWrite (d : Nat) (x : Word) (v : Dev) : Dev :=
  (v.wr (EF_LINK_SEL d) (x &&& 0x3FF)).clearRegs [EF_LINK_BUSY_LO d, EF_LINK_BUSY_HI d, EF_LINK_WAIT_LO d, EF_LINK_WAIT_HI d]

/-- A row of a packet's router or interface, in whose die FCK runs (R436). -/
def State.onFlight (s : State) (pid : Nat) (f : Env → Dev → Dev) : State := match s.dev.flight pid with
  | some x => s.onClk x.die 2 f
  | none => s

def execRouterHop (pid : Nat) (err : FlitErr) (wait : Nat) (s : State) : Host.Outcome State Fault Refusal :=
  .next (s.onFlight pid (routerHop pid err wait))
def execMulticastReplicate (pid : Nat) (s : State) : Host.Outcome State Fault Refusal := .next (s.onFlight pid (replicate pid))
/-- COUPLING_REPLAY on a module of die `d`. -/
def execCouplingReplay (d : Fin 8) (_edge : Fin 4) (s : State) : Host.Outcome State Fault Refusal :=
  .next (s.onClk d.val 2 (fun env v => if env.has d.val then v.inc (EF_CPL_REPLAY d.val) 1 else v))
def execEfCtrlDrouteCommit (who : Party) (d : Fin 8) (s : State) : Host.Outcome State Fault Refusal :=
  .next (s.onWrite who d.val (fun env => efWrite env who d.val (EF_CTRL d.val) (drouteCommit d.val env)))
def execEfCtrlClrCnt (who : Party) (d : Fin 8) (s : State) : Host.Outcome State Fault Refusal :=
  .next (s.onWrite who d.val (fun env => efWrite env who d.val (EF_CTRL d.val) (fun v => v.clearRegs (efCounters d.val))))
def execEfLinkSelWrite (who : Party) (d : Fin 8) (x : Word) (s : State) : Host.Outcome State Fault Refusal :=
  .next (s.onWrite who d.val (fun env => efWrite env who d.val (EF_LINK_SEL d.val) (linkSelWrite d.val x)))

end Sys2Proof.Machine
end

