-- ==== Sys2Proof/Machine/Queues.lean ====
section
/-! DEFINITION. Receive queues, combining slots, send channels and management injection (R161 to R197, 06_queues.md), and
PACKET_INJECT. -/
namespace Sys2Proof.Machine

open Sys2Proof

/-- Status codes of 11_commands_and_coaches.md. -/
abbrev stOk : Nat := 0x00
abbrev stOkEmpty : Nat := 0x01
abbrev stDeferred : Nat := 0x02
abbrev stBadOpcode : Nat := 0x10
abbrev stBadParam : Nat := 0x11
abbrev stNoResource : Nat := 0x12
abbrev stNotOwner : Nat := 0x13
abbrev stBusy : Nat := 0x14
abbrev stRefusedVersion : Nat := 0x15
abbrev stFaulted : Nat := 0x20
abbrev stTimeout : Nat := 0x21
abbrev stSecurity : Nat := 0x30
abbrev stClosed : Nat := 0x31
abbrev stStalledOut : Nat := 0x32

/-! ## Rings (R164 to R168) -/

/-- An IF record of source IF_QUEUE: INFO names the queue, and there is no ADDR (R381). -/
def raiseQueue (env : Env) (p q : Nat) (v : Dev) : Dev :=
  raise env { die := pDie p, cls := clsIF, owner := v.coreOwner p, source := 0x23, master := mCore p, access := accCheck,
              addr := 0, info := q } v

/-- Used bytes of a ring: WR − RD, modulo 2³² (R164). -/
def qUsed (v : Dev) (p q : Nat) : Nat := (v.qWr p q + 0x100000000 - v.qRd p q) % 0x100000000

/-- Free bytes of a ring; none while RD_ERR is set (R167). -/
def qFree (v : Dev) (p q : Nat) : Nat := if v.fb (QM_Q_CTRL p q) 10 then 0 else v.qRing p q - qUsed v p q

/-- Bytes stored in the ring from byte count `c`, continuing at its start (R165). -/
def ringWrite (p q : Nat) : Nat → List Byte → Dev → Dev
  | _, [], v => v
  | c, b :: bs, v => ringWrite p q (c + 1) bs (v.stCore p (v.qBase p q + 256 + c % v.qRing p q) 1 b.toNat)

/-- Bytes of the ring from byte count `c`. -/
def ringRead (v : Dev) (p q c n : Nat) : List Byte :=
  (List.range n).map (fun i => BitVec.ofNat 8 (v.ldCore p (v.qBase p q + 256 + (c + i) % v.qRing p q) 1))

/-- WR and MSG_SEQ advance together (R164). -/
def advanceWr (p q n : Nat) (v : Dev) : Dev :=
  let st := v.qStatus p q
  let st := setFldN st 0 16 (fldN st 0 16 + 1)
  v.stCore p (v.qBase p q) 8 ((v.qWr p q + n) % 0x100000000 + st * 0x100000000)

/-- The entry header of R165. -/
def entryHeader (flags lenM1 tag src seqTag sendno count arrive : Nat) : List Byte :=
  leBytes 1 2 ++ leBytes 1 flags ++ leBytes 1 lenM1 ++ leBytes 1 tag ++ leBytes 4 src ++ leBytes 2 seqTag ++ leBytes 2 sendno
    ++ leBytes 4 count ++ leBytes 8 arrive ++ leBytes 8 0

/-- An entry is stored and committed (R165, R166). -/
def commitEntry (p q : Nat) (bytes : List Byte) (v : Dev) : Dev :=
  advanceWr p q bytes.length (ringWrite p q (v.qWr p q) bytes v)

/-! ## Combining slots (R171 to R175) -/

def Dev.comb (v : Dev) (p q slot : Nat) : Option CombSlot := SMap.get none (v.core p).slots (q * 64 + slot)
def Dev.setComb (v : Dev) (p q slot : Nat) (c : Option CombSlot) : Dev :=
  v.modCore p (fun k => { k with slots := SMap.set none k.slots (q * 64 + slot) c })

def combVlen (v : Dev) (p q : Nat) : Nat := 32 * (v.fd (QM_Q_COMB p q) 16 4 + 1)
/-- Contribution width in bytes. -/
def combWidth (v : Dev) (p q : Nat) : Nat := if v.fb (QM_Q_COMB p q) 20 then 2 else 4
def combElemOff (v : Dev) (p q slot i : Nat) : Nat :=
  v.qBase p q + 256 + v.qRing p q + slot * (32 + 2 * combVlen v p q) + 32 + i * 2 * combWidth v p q

/-- Contributions are added exactly into elements of twice their width; `first` sets them (R172, R173). -/
def combAdd (p q slot : Nat) (first : Bool) (data : List Byte) (v : Dev) : Dev :=
  let w := combWidth v p q
  (List.range (combVlen v p q / w)).foldl (fun v i =>
    let x := toSigned (8 * w) (leAt data (i * w) w)
    let off := combElemOff v p q slot i
    let old := if first then 0 else toSigned (16 * w) (v.ldCore p off (2 * w))
    v.stCore p off (2 * w) (ofSigned (16 * w) (old + x))) v

/-- The slot's sum, saturated to the contribution width, and how many elements saturated (R173). -/
def combSum (v : Dev) (p q slot : Nat) : List Byte × Nat :=
  let w := combWidth v p q
  let lim : Int := ((2 ^ (8 * w - 1) : Nat) : Int)
  let xs := (List.range (combVlen v p q / w)).map (fun i => toSigned (16 * w) (v.ldCore p (combElemOff v p q slot i) (2 * w)))
  ((xs.map (fun x => leBytes w (ofSigned (8 * w) (clampI (-lim) (lim - 1) x)))).flatten,
   (xs.filter (fun x => decide (x < -lim) || decide (lim - 1 < x))).length)

/-- A complete or aged slot is emitted as one ring entry and freed (R174, R175). -/
def combEmit (env : Env) (p q slot : Nat) (c : CombSlot) (v : Dev) : Dev :=
  let s := combSum v p q slot
  let hdr := entryHeader (if c.partialE then 3 else 1) (v.fd (QM_Q_COMB p q) 16 4) ((v.core p).openTick % 256) ((v.numberOf p).getD 0)
    c.tag 0 c.count (env.nowOf (pDie p))
  let v := v.inc (QM_COMB_SAT p) s.2
  (commitEntry p q (hdr ++ s.1) v).setComb p q slot none

/-- The size of a combined entry. -/
def combEntrySize (v : Dev) (p q : Nat) : Nat := 32 + combVlen v p q

/-- Complete slots wait in order of completion; those of queue `q` are emitted while the ring has room (R174). -/
def emitPending (env : Env) (p q : Nat) : Nat → Dev → Dev
  | 0, v => v
  | fuel + 1, v =>
    match (v.core p).pendEmit.find? (fun x => x / 64 == q) with
    | some x =>
      match v.comb p q (x % 64) with
      | some c =>
        if combEntrySize v p q ≤ qFree v p q then
          let v := combEmit env p q (x % 64) c v
          emitPending env p q fuel (v.modCore p (fun k => { k with pendEmit := k.pendEmit.filter (fun y => y ≠ x) }))
        else v
      | none => emitPending env p q fuel (v.modCore p (fun k => { k with pendEmit := k.pendEmit.filter (fun y => y ≠ x) }))
    | none => v

/-- A slot becomes complete: it joins the pending ones, and they are emitted as room allows (R174). -/
def combComplete (env : Env) (p q slot : Nat) (c : CombSlot) (v : Dev) : Dev :=
  let v := v.setComb p q slot (some { c with complete := true })
  emitPending env p q 65 (v.modCore p (fun k => { k with pendEmit := k.pendEmit ++ [q * 64 + slot] }))

/-! ## What a destination does with an arrival (R180) -/

/-- A message at a queue: from a packet, or injected (`mgmt`). -/
structure Msg where
  typ : Nat
  queue : Nat
  seqTag : Nat
  offset : Nat
  sendno : Nat
  src : Nat
  mgmt : Bool
  tag : Nat
  lenM1 : Nat
  data : List Byte
  deriving DecidableEq, Repr

/-- A message on the learning engine's rate queue (R121, R122). -/
def rateToken (env : Env) (p : Nat) (m : Msg) (v : Dev) : Dev :=
  if leAt m.data 0 1 = 2 ∧ leAt m.data 1 1 = 1 ∧ leAt m.data 4 4 = 0 then v.setF (NC_PL_ETA p) 0 16 (leAt m.data 2 2)
  else raiseQueue env p m.queue ((v.inc (NC_PL_BAD_TOKEN p) 1).setB (NC_PL_STATUS p) 4 true)

/-- BAD_PARAM or NO_RESOURCE at a queue: counted, with an IF record (R180 rows 5 to 7). -/
def badMsg (env : Env) (p q code : Nat) (v : Dev) : Nat × Dev := (code, raiseQueue env p q (v.inc (QM_BAD_MSG p) 1))

/-- BUSY at a queue (R180 rows 7 and 8). -/
def busyMsg (p : Nat) (v : Dev) : Nat × Dev := (stBusy, v.inc (QM_FULL_REPLY p) 1)

/-- Stored or added (R180 row 9). -/
def storedMsg (p : Nat) (v : Dev) : Nat × Dev := (stOk, v.inc64 (QM_RX_MSGS_LO p) (QM_RX_MSGS_HI p) 1)

/-- A contribution to a combining queue (R172). -/
def combArrival (env : Env) (p : Nat) (m : Msg) (v : Dev) : Nat × Dev :=
  let q := m.queue
  let slot := m.seqTag % 2 ^ v.fd (QM_Q_COMB p q) 21 3
  if 32 * (m.lenM1 + 1) ≠ combVlen v p q then badMsg env p q stBadParam v
  else
    let expect := v.fd (QM_Q_COMB p q) 0 16
    match v.comb p q slot with
    | none =>
      let c : CombSlot := ⟨m.seqTag, 1, (v.core p).openTick, false, false⟩
      let v := combAdd p q slot true m.data (v.setComb p q slot (some c))
      storedMsg p (if expect ≤ 1 then combComplete env p q slot c v else v)
    | some c =>
      if c.complete then if c.tag = m.seqTag then badMsg env p q stBadParam v else busyMsg p v
      else if c.tag ≠ m.seqTag then busyMsg p v
      else
        let c := { c with count := c.count + 1 }
        let v := combAdd p q slot false m.data (v.setComb p q slot (some c))
        storedMsg p (if expect ≤ c.count then combComplete env p q slot c v else v)

/-- Checks 3 to 9 of R180: the result code and the state after. -/
def queueArrival (env : Env) (p : Nat) (m : Msg) (v : Dev) : Nat × Dev :=
  let q := m.queue
  let size := 32 * (m.lenM1 + 2)
  if v.fb (NC_PL_CTRL p) 5 && v.fd (NC_PL_CTRL p) 1 4 == q then (stOk, rateToken env p m v)
  else if !v.qOpen p q then (stClosed, raiseQueue env p q (v.inc (QM_CLOSED_DROP p) 1))
  else if decide (m.typ = 2) != decide (v.qMode p q = 1) then badMsg env p q stBadParam v
  else if v.qMode p q = 1 then
    let n := 32 * (m.lenM1 + 1)
    if v.qRing p q < m.offset * 32 + n then badMsg env p q stBadParam v
    else
      let v := (List.range n).foldl (fun v i =>
        v.stCore p (v.qBase p q + 256 + m.offset * 32 + i) 1 (m.data.getD i 0).toNat) v
      storedMsg p (advanceWr p q n v)
  else if v.qRing p q < size then badMsg env p q stNoResource v
  else if v.qMode p q = 2 then combArrival env p m v
  else if qFree v p q < size then busyMsg p v
  else
    let hdr := entryHeader 0 m.lenM1 m.tag (m.src % 0x40000 + (if m.mgmt then 0x40000 else 0)) m.seqTag m.sendno 1
      (env.nowOf (pDie p))
    storedMsg p (commitEntry p q (hdr ++ m.data.take (32 * (m.lenM1 + 1))) v)

/-- The trace record of an arrival at a queue (R408, R410). -/
def queueTrace (env : Env) (p : Nat) (m : Msg) (code : Nat) (v : Dev) : Dev :=
  traceRec (pDie p) (v.coreOwner p) 3 8 (env.nowOf (pDie p))
    (leBytes 4 ((v.numberOf p).getD 0) ++ leBytes 1 m.queue ++ leBytes 1 code ++ leBytes 2 m.seqTag) v

/-- The message a TYPE 1 or TYPE 2 packet carries (R176). -/
def msgOf (pkt : Packet) : Msg :=
  { typ := pkt.typ, queue := fldN pkt.info 0 4, seqTag := if pkt.typ = 2 then 0 else fldN pkt.info 8 16,
    offset := fldN pkt.info 8 11, sendno := fldN pkt.info 24 16, src := pkt.src, mgmt := false, tag := pkt.tag, lenM1 := pkt.lenM1,
    data := (pkt.words.map (fun w => leBytes 4 w.toNat)).flatten }

/-- QM_ARRIVAL: the oldest queue message that has passed ejection (R177, R178, R180, R181). -/
def qmArrival (p : Nat) (env : Env) (v : Dev) : Dev :=
  match (v.core p).msgs with
  | [] => v
  | pkt :: rest =>
    let v := v.modCore p (fun k => { k with msgs := rest })
    let m := msgOf pkt
    if pkt.srcBlock then
      raiseQueue env p m.queue (if pkt.dkind = 1 then (v.inc (QM_BAD_MSG p) 1).inc (QM_MC_DROP p) 1 else v.inc (QM_BAD_MSG p) 1)
    else
      let r := queueArrival env p m v
      let v := queueTrace env p m r.1 r.2
      if pkt.dkind = 1 then if r.1 = stOk then v else v.inc (QM_MC_DROP p) 1
      else sendReply env p pkt r.1 v

/-! ## Sends (R182 to R191) -/

def Dev.send (v : Dev) (p c : Nat) : Option Send := SMap.get none (v.core p).sends c
def Dev.setSend (v : Dev) (p c : Nat) (s : Option Send) : Dev :=
  v.modCore p (fun k => { k with sends := SMap.set none k.sends c s })
def Dev.trig (v : Dev) (p c : Nat) : Option Trig := SMap.get none (v.core p).trigs c
def Dev.setTrig (v : Dev) (p c : Nat) (t : Option Trig) : Dev :=
  v.modCore p (fun k => { k with trigs := SMap.set none k.trigs c t })

/-- STATE of QM_C_STATUS: 0 IDLE, 1 WAIT_REPLY, 2 WAIT_RETRY, 3 HELD. -/
def setChanState (p c x : Nat) (v : Dev) : Dev := v.setF (QM_C_STATUS p c) 0 2 x

/-- The channel has a send or a trigger outstanding. -/
def chanBusy (v : Dev) (p c : Nat) : Bool := v.send p c != none || v.trig p c != none

/-- A trigger starts a send on an idle channel, or is skipped (R182). -/
def trigger (p c : Nat) (t : Trig) (v : Dev) : Dev :=
  if chanBusy v p c then v.inc (QM_SKIP p) 1 else v.setTrig p c (some t)

/-- FIRE and PERIOD channels at the end of the fire of tick `n` (R182). -/
def fireTriggers (p n : Nat) (counts : List Nat) (v : Dev) : Dev :=
  (List.range 16).foldl (fun v c =>
    let w := v.rd (QM_C_CTRL p c)
    let due := fld w 1 2 == 1 || (fld w 1 2 == 2 && decide (n % fld w 16 16 = 0))
    if bit w 0 && due then trigger p c ⟨n, counts, false⟩ v else v) v

/-- The queue that a channel relays next: of the open queues that name it one that holds an entry, the lowest (R168; DESIGN CHOICE, log entry
178). An ADDRESSED queue holds no entries and uses no RD (R169). -/
def relayQueue (v : Dev) (p c : Nat) : Option Nat :=
  (List.range 16).find? (fun q => v.qOpen p q && v.qMode p q != 1 && v.fd (QM_Q_CTRL p q) 3 2 == 1 && v.fd (QM_Q_CTRL p q) 5 4 == c
    && qUsed v p q != 0)

/-- A send ends with a code (R186 to R189). -/
def endSend (p c code : Nat) (v : Dev) : Dev :=
  let s := v.send p c
  let v := (v.setF (QM_C_STATUS p c) 8 8 code).setF (QM_C_STATUS p c) 0 2 0
  let v := if code = stOk then
      let v := v.inc64 (QM_TX_MSGS_LO p) (QM_TX_MSGS_HI p) 1
      if v.fb (QM_CTRL p) 0 then v else v.inc (QM_DBG_LO p c) 1
    else if code = stTimeout then v.inc (QM_TIMEOUT p) 1
    else if code = stStalledOut then
      (v.inc (QM_STALLED_OUT p) 1).modCore p (fun k => { k with stalls := SMap.set 0 k.stalls c (SMap.get 0 k.stalls c + 1) })
    else v
  let v := match s.bind (fun s => s.relay.map (fun n => (s.relayQ, n))) with
    | some qn =>
      let v := v.stCore p (v.qBase p qn.1 + 8) 4 ((v.qRd p qn.1 + qn.2) % 0x100000000)
      if code = stOk then v else v.inc (QM_RELAY_DROP p) 1
    | none => v
  v.setSend p c none

/-- The packet of a send (R176). -/
def sendPacket (env : Env) (v : Dev) (p c : Nat) (s : Send) : Closed :=
  let h := headOf env v p s.typ (s.dkind / 2) s.dest ((v.core p).openTick % 256)
  let mid := if s.typ = 2 then s.offset % 2048 else s.seqTag % 65536
  ⟨{ h with
      lenM1 := s.lenM1, lastM1 := 7, info := s.queue % 16 + mid * 256 + s.sendno % 65536 * 0x1000000,
      words := (List.range (8 * (s.lenM1 + 1))).map (fun i => w32 (leAt s.data (4 * i) 4)), chan := c },
   decide (s.dkind = 1), some c⟩

/-- The packet of a send waits at the interface; the channel is no longer IDLE (R186). -/
def offerSend (env : Env) (p c : Nat) (s : Send) (v : Dev) : Dev :=
  let pk := sendPacket env v p c s
  setChanState p c 1
    ((v.setSend p c (some { s with waiting := true, retryAt := none })).modIface p (fun i => { i with closed := i.closed ++ [pk] }))

/-- The coach of a channel's core is held (R191). -/
def chanHeld (env : Env) (v : Dev) (p : Nat) : Bool := decide (v.coreOwner p < 4) && isHeld env v (v.coreOwner p)

/-- The head entry of a relayed queue has another structure-version byte: it is discarded, with an IF record, and no send starts (R5). R5 does
not say what becomes of its place in the ring: RD passes it by the size that its LEN_M1 gives, and QM_RELAY_DROP, which counts sends, stays
(DESIGN CHOICE, log entry 148). -/
def dropEntry (env : Env) (p q : Nat) (hdr : List Byte) (v : Dev) : Dev :=
  raise env { die := pDie p, cls := clsIF, owner := v.coreOwner p, source := 0x27, master := mCore p, access := accCheck, addr := 0,
              info := leAt hdr 0 1 }
    (v.stCore p (v.qBase p q + 8) 4 ((v.qRd p q + 32 * (leAt hdr 2 1 % 16 + 2)) % 0x100000000))

/-- The range of a LOCAL message lies in the window of an open ADDRESSED queue of the core (R183). -/
def inWindow (v : Dev) (p a n : Nat) : Bool :=
  (List.range 16).any (fun q => v.qOpen p q && v.qMode p q == 1 && decide (v.qBase p q + 256 ≤ a)
    && decide (a + n ≤ v.qBase p q + 256 + v.qRing p q))

/-- A send of a channel before its message is captured: the next SENDNO and the settings as they stand (R185, R190). -/
def newSend (env : Env) (v : Dev) (p c : Nat) (t : Trig) : Send :=
  let w := v.rd (QM_C_CTRL p c)
  let dst := v.rd (QM_C_DEST p c)
  { sendno := (v.fd (QM_C_SENDNO p c) 0 16 + 1) % 65536, typ := if bit w 6 then 2 else 1, dkind := fld dst 18 2, dest := fld dst 0 18,
    queue := fld w 8 4, offset := fld dst 20 11, seqTag := if bit w 7 then t.tick % 65536 else v.fd (QM_C_TAG p c) 0 16,
    lenM1 := fld w 12 4, data := [], first := 0, attempt := 0, attempts := 0, stallLimit := v.fd (QM_STALL_LIMIT p) 0 24,
    replyLimit := v.fd (QM_REPLY_LIMIT p) 0 16 * 1000, retryAt := none, waiting := true,
    heldAt := if chanHeld env v p then some (env.nowOf (pDie p)) else none, relay := none, relayQ := 0 }

/-- A send takes its SENDNO and starts with no attempt made. -/
def takeSendno (p c : Nat) (s : Send) (v : Dev) : Dev := (v.wrN (QM_C_SENDNO p c) s.sendno).setF (QM_C_STATUS p c) 20 4 0

/-- SEND_START: the triggered channel captures its message and offers it with a new SENDNO (R183, R185). On a core without a coach the
packet is discarded at injection (R133). -/
def sendStart (p c : Nat) (env : Env) (v : Dev) : Dev :=
  match v.trig p c with
  | none => v
  | some t =>
    let v := v.setTrig p c none
    let w := v.rd (QM_C_CTRL p c)
    let s := newSend env v p c t
    if !bit w 0 then v
    else if t.relay then
      match relayQueue v p c with
      | some q =>
        let rd := v.qRd p q
        let hdr := ringRead v p q rd 32
        let len := leAt hdr 2 1 % 16
        if leAt hdr 0 1 ≠ 2 then dropEntry env p q hdr v
        else
          offerSend env p c
            { s with
              lenM1 := len, seqTag := leAt hdr 8 2, data := ringRead v p q (rd + 32) (32 * (len + 1)), relay := some (32 * (len + 2)),
              relayQ := q } (takeSendno p c s v)
      | none => v
    else if fld w 4 2 = 1 then
      offerSend env p c { s with data := (t.counts.map (fun n => leBytes 4 n)).flatten } (takeSendno p c s v)
    else
      let a := v.fd (QM_C_SRC p c) 0 13 * 32
      let n := 32 * (s.lenM1 + 1)
      if inWindow v p a n then
        offerSend env p c { s with data := (List.range n).map (fun i => BitVec.ofNat 8 (v.ldCore p (a + i) 1)) } (takeSendno p c s v)
      else endSend p c stBadParam ((takeSendno p c s v).setSend p c (some s))

/-- The send's packet has been resolved at the source (R185, R186). -/
def sendInjected (env : Env) (p c : Nat) (r : Inject) (v : Dev) : Dev :=
  match v.send p c with
  | none => v
  | some s =>
    match r with
    | .badParam => endSend p c stBadParam v
    | .security => endSend p c stSecurity v
    | .sent =>
      let now := env.nowOf (pDie p)
      let n := s.attempts + 1
      let v := (v.setF (QM_C_STATUS p c) 20 4 (min n 15)).setSend p c
        (some { s with waiting := false, attempts := n, attempt := now, first := if s.attempts = 0 then now else s.first })
      if s.dkind = 2 then endSend p c stOk v else setChanState p c 1 v

/-- The place of an interface at its tile's hub: slots 0 to 32, a churn, a separator, the management interface. -/
def hubIndex (k : Nat) : Nat :=
  if ifaceIsCore k then pSlot k else if ifaceBlock k < 4 then 33 else if ifaceBlock k < 20 then 34 else 35

def hubKey (k : Nat) : Nat := ifaceDie k * 64 + ifaceTile k

/-- The tile hub takes the packet of this interface next: one whole packet at a time, round-robin among those with a packet ready, into the
router's local buffer (R127). -/
def hubTurn (env : Env) (v : Dev) (k n : Nat) : Bool :=
  let ready := (v.fab.ifaces.filter (fun e => hubKey e.1 == hubKey k && (nextClosed env e.1 v).isSome)).map (fun e => hubIndex e.1)
  roundRobin 36 (SMap.get 0 v.fab.hubs (hubKey k)) (hubIndex k :: ready) == some (hubIndex k)
    && roomAt v (ifaceDie k) (ifaceTile k) 5 false n

def noteHub (k : Nat) (v : Dev) : Dev := v.modFab (fun f => { f with hubs := SMap.set 0 f.hubs (hubKey k) (hubIndex k + 1) })

/-- The outcome of a packet at its source: of a channel's packet the send learns it, and a core's fire or a churn's output stage goes on. -/
def injected (env : Env) (k : Nat) (c : Closed) (r : Inject × Dev) : Dev :=
  let v := match c.chan with
    | some ch => sendInjected env k ch r.1 r.2
    | none => r.2
  if ifaceIsCore k then emission env k v
  else if ifaceBlock k < 4 then stageEmission env (ifaceDie k) (ifaceBlock k) v
  else if ifaceBlock k < 20 then sepEmission env (ifaceDie k) (ifaceBlock k - 4) v
  else v

/-- The physical cores that a MAINT packet names (R131): all of them, or one of the part. -/
def maintDests (env : Env) (dest : Nat) : List Nat :=
  if fldN dest 15 1 = 1 then List.range (env.dies * 2112)
  else if fldN dest 0 6 < 33 ∧ fldN dest 12 3 < env.dies ∧ fldN dest 16 2 = 0 then [pMake (fldN dest 12 3) (fldN dest 6 6) (fldN dest 0 6)]
  else []

/-- The MAINT packet of a die's management interface (R130, R132): 1 to 16 body flits, the last filled with 0. -/
def maintPacket (d : Nat) (m : Maint) : Packet :=
  let n := (m.data.length + 7) / 8
  { version := 2, typ := 3, epoch := false, vc := false, coach := 4, dkind := 2, dest := m.dest.val, src := d + 8 * 20, srcBlock := true,
    tag := 0, lenM1 := n - 1, lastM1 := 7, info := m.off.val + 0x80000 * b2n m.pstore,
    words := m.data ++ List.replicate (8 * n - m.data.length) 0, badFlits := [], chan := 0 }

/-- A management interface injects a MAINT packet, which needs no coach and looks up no route entry (R131, R133). -/
def injectMaint (env : Env) (d : Nat) (m : Maint) (v : Dev) : Dev :=
  let k := blockIface d 20
  let dests := maintDests env m.dest.val
  let pkt := maintPacket d m
  if !env.has d || v.dieDown.contains d || m.data.isEmpty || decide (128 < m.data.length) || dests.isEmpty || !hubTurn env v k pkt.flits then v
  else launch k pkt dests (noteHub k v)

/-- PACKET_INJECT: the oldest closed packet of a source. One that is dropped at the source or stays in the loopback needs no turn of the hub
(R127, R134, R135). -/
def packetInject (src : Source) (env : Env) (v : Dev) : Dev :=
  match src with
  | .maint d m => injectMaint env d.val m v
  | _ =>
    let k := srcKey src
    match nextClosed env k v with
    | none => v
    | some c =>
      let r := injectClosed env k c (dropClosed k v)
      if r.1 = .sent ∧ (r.2.fab.flights.getLast?.map (·.inp)) ≠ some 6 then
        if hubTurn env v k c.pkt.flits then injected env k c (r.1, noteHub k r.2) else v
      else injected env k c r

/-- REPLY_ARRIVAL: the oldest reply at the core (R179, R186, R187). The back-off of a BUSY that comes while the coach is held counts from the
end of the hold: `setHold` then moves it by the hold's length (R191). -/
def replyArrival (p : Nat) (env : Env) (v : Dev) : Dev :=
  match (v.core p).replies with
  | [] => v
  | pkt :: rest =>
    let v := v.modCore p (fun k => { k with replies := rest })
    let c := fldN pkt.info 0 4
    let code := fld (pkt.words.getD 0 0) 8 8
    match v.send p c with
    | some s =>
      if s.sendno = fldN pkt.info 24 16 ∧ s.retryAt = none ∧ ¬ s.waiting then
        if code = stBusy then
          let wait := min (256 * 2 ^ (s.attempts - 1)) 8192
          let t := s.heldAt.getD (env.nowOf (pDie p))
          let v := if v.fb (QM_CTRL p) 0 then v else v.inc (QM_DBG_HI p c) 1
          setChanState p c 2 (v.setSend p c (some { s with retryAt := some (t + wait) }))
        else endSend p c code v
      else v.inc (QM_STALE_REPLY p) 1
    | none => v.inc (QM_STALE_REPLY p) 1

/-- SEND_RETRY: the back-off has passed within the stall limit (R187). -/
def sendRetry (p c : Nat) (env : Env) (v : Dev) : Dev :=
  match v.send p c with
  | some s =>
    match s.retryAt with
    | some t =>
      if s.heldAt = none ∧ t ≤ env.nowOf (pDie p) ∧ t ≤ s.first + s.stallLimit then offerSend env p c s v else v
    | none => v
  | none => v

/-- A retry waits at the interface and the stall limit has passed since the first attempt's injection: it is not made (R187, R188). -/
def retryLate (env : Env) (p : Nat) (s : Send) : Bool :=
  s.waiting && decide (0 < s.attempts) && decide (s.first + s.stallLimit ≤ env.nowOf (pDie p))

/-- SEND_STALLED_OUT: the retry would start past the stall limit (R187). One that waits at its interface is taken back (R188). -/
def sendStalledOut (p c : Nat) (env : Env) (v : Dev) : Dev :=
  match v.send p c with
  | some s =>
    match s.retryAt with
    | some t =>
      if s.heldAt = none ∧ s.first + s.stallLimit < t ∧ s.first + s.stallLimit ≤ env.nowOf (pDie p) then endSend p c stStalledOut v else v
    | none =>
      if s.heldAt = none ∧ retryLate env p s = true then
        endSend p c stStalledOut (v.modIface p (fun i => { i with closed := i.closed.filter (fun x => x.chan != some c) }))
      else v
  | none => v

/-- REPLY_TIMEOUT: no reply within the limit of an attempt (R186). -/
def replyTimeout (p c : Nat) (env : Env) (v : Dev) : Dev :=
  match v.send p c with
  | some s =>
    if s.heldAt = none ∧ s.retryAt = none ∧ ¬ s.waiting ∧ s.attempt + s.replyLimit ≤ env.nowOf (pDie p) then endSend p c stTimeout v else v
  | none => v

/-- RELAY_TRIGGER: an idle RELAY channel whose queue holds an entry (R182). -/
def relayTrigger (p c : Nat) (_env : Env) (v : Dev) : Dev :=
  let w := v.rd (QM_C_CTRL p c)
  if bit w 0 && fld w 1 2 == 3 && !chanBusy v p c then
    match relayQueue v p c with
    | some _ => v.setTrig p c (some ⟨(v.core p).openTick, [], true⟩)
    | none => v
  else v

/-- DOORBELL (R182, R183). -/
def doorbell (p c : Nat) (v : Dev) : Dev :=
  let w := v.rd (QM_C_CTRL p c)
  if bit w 0 && fld w 1 2 == 0 then trigger p c ⟨(v.core p).openTick, [0, 0, 0, 0, 0, 0, 0, 0], false⟩ v else v

/-- The settings of a channel are in range (R183, R184). -/
def chanOk (v : Dev) (p c : Nat) : Bool :=
  let w := v.rd (QM_C_CTRL p c)
  let d := v.rd (QM_C_DEST p c)
  decide (fld w 4 2 ≤ 1) && (decide (fld w 4 2 ≠ 1) || decide (fld w 12 4 = 0)) && (decide (fld w 1 2 ≠ 2) || decide (1 ≤ fld w 16 16))
    && decide (fld d 18 2 ≠ 3) && (decide (fld d 18 2 ≠ 2) || decide (fld d 12 6 = 0))

/-- EN of a channel written from 0 to 1 (R184). -/
def chanEnable (p c : Nat) (v : Dev) : Dev :=
  if v.fb (QM_C_CTRL p c) 0 then v
  else if chanOk v p c then v.setB (QM_C_CTRL p c) 0 true else v.setB (QM_C_STATUS p c) 16 true

/-- The timers of a core's sends stop as a hold begins, and go on from there as it ends (R191). -/
def holdSends (now : Nat) (b : Bool) (k : Core) : SMap (Option Send) :=
  k.sends.map (fun cs => (cs.1, cs.2.map (fun s =>
    if b then { s with heldAt := some now }
    else
      let dt := now - s.heldAt.getD now
      { s with heldAt := none, first := s.first + dt, attempt := s.attempt + dt, retryAt := s.retryAt.map (· + dt) })))

/-- The coach's hold is set or cleared on every die (R153): its channels' timers stop and resume (R191), the time of the hold is not counted
as a stall of its fires (R146), and its fires go on when it ends. -/
def setHold (env : Env) (g : Nat) (b : Bool) (v : Dev) : Dev :=
  let was := isHeld env v g
  let v := env.dieList.foldl (fun v d => v.setB (EF_CTRL d) g b) v
  if was == b then v
  else (v.coachCores g).foldl (fun v e =>
    let v := v.modCore e.2 (fun k =>
      { k with sends := holdSends (env.nowOf (pDie e.2)) b k, fire := k.fire.map (fun f => { f with stallAt := none }) })
    if b then v else emission env e.2 v) v

/-! ## Opening and closing queues (R163, R167) -/

/-- The settings of a queue are in range and its region is free (R162, R163, R168, R171, R175). -/
def queueOk (v : Dev) (p q : Nat) : Bool :=
  let w := v.rd (QM_Q_CTRL p q)
  let c := v.rd (QM_Q_COMB p q)
  let r := (v.qBase p q, queueBytes v p q)
  decide (fld w 1 2 ≤ 2) && decide (fld w 3 2 ≤ 1) && decide (v.qBase p q ≠ 0)
    && (decide (fld w 3 2 ≠ 1) || v.fd (QM_C_CTRL p (fld w 5 4)) 1 2 == 3)
    && (decide (fld w 1 2 ≠ 2) || (decide (fld c 0 16 ≠ 0) && decide (fld c 21 3 ≠ 7) && (!bit c 24 || decide (fld c 25 7 ≠ 0))))
    && decide (r.1 + r.2 ≤ 0x40000) && (coreRegions v p ++ queueRegions v p q).all (fun x => !overlaps r x)

/-- No combining slot of the queue is in use. -/
def clearSlots (p q : Nat) (v : Dev) : Dev :=
  v.modCore p (fun k =>
    { k with slots := k.slots.filter (fun e => e.1 / 64 ≠ q), pendEmit := k.pendEmit.filter (fun x => x / 64 ≠ q) })

/-- OPEN written to 1 (R163, R164). -/
def queueOpen (env : Env) (p q : Nat) (v : Dev) : Dev :=
  if v.qOpen p q then v
  else if queueOk v p q then
    let b := v.qBase p q
    let gen := (fldN (v.qStatus p q) 24 8 + 1) % 256
    let v := v.stCore p b 8 ((0x10000 + gen * 0x1000000) * 0x100000000)
    let v := v.stCore p (b + 8) 4 0
    let v := v.stCore p (b + 16) 3 (2 + 256 * v.qMode p q + 65536 * v.fd (QM_Q_REGION p q) 16 3)
    let v := clearSlots p q v
    ((v.setB (QM_Q_CTRL p q) 10 false).setB (QM_Q_CTRL p q) 0 true).setB (QM_STATUS p) q true
  else raiseConfig env (pDie p) (v.coreOwner p) (mCore p) (QM_Q_CTRL p q) (v.setB (QM_Q_CTRL p q) 9 true)

/-- The consumer writes RD; the hardware owns it under RELAY (R167, R168), and an ADDRESSED queue does not use it (R169). -/
def rdWrite (env : Env) (p q : Nat) (x : Word) (v : Dev) : Dev :=
  if !v.qOpen p q || v.fd (QM_Q_CTRL p q) 3 2 == 1 then v
  else if v.qMode p q = 1 then v.stCore p (v.qBase p q + 8) 4 x.toNat
  else
    let v := v.stCore p (v.qBase p q + 8) 4 x.toNat
    let ok := decide (x.toNat % 32 = 0) && decide (qUsed v p q ≤ v.qRing p q)
    let v := v.stCore p (v.qBase p q + 4) 4 (setFldN (v.qStatus p q) 17 1 (b2n (!ok)))
    let v := v.setB (QM_Q_CTRL p q) 10 (!ok)
    if ok then v else raiseQueue env p q v

/-- Bytes written to a core's local memory by the command engine or by a MAINT packet. A write that touches RD of an open queue is the
consumer's write of RD (R167), or is ignored there where the queue hardware owns RD (R168). -/
def writeCoreMem (env : Env) (p off : Nat) (bytes : List Byte) (v : Dev) : Dev :=
  let qs := (List.range 16).filter (fun q =>
    v.qOpen p q && decide (off < v.qBase p q + 12) && decide (v.qBase p q + 8 < off + bytes.length))
  let w := writeCoreBytes p off bytes v
  qs.foldl (fun w q =>
    if v.fd (QM_Q_CTRL p q) 3 2 = 1 then w.stCore p (v.qBase p q + 8) 4 (v.qRd p q) else rdWrite env p q (w32 (w.qRd p q)) w) w

/-- COMB_AGE_PARTIAL: a slot still accumulating at close m + AGE (R175). -/
def combAge (p q slot : Nat) (env : Env) (v : Dev) : Dev :=
  let w := v.rd (QM_Q_COMB p q)
  match v.comb p q slot with
  | some c =>
    if v.qOpen p q && bit w 24 && !c.complete && decide (c.openTick + fld w 25 7 < (v.core p).openTick) then
      combComplete env p q slot { c with partialE := true } (v.inc (QM_COMB_PARTIAL p) 1)
    else v
  | none => v

/-! ## Management injection (R193) and views (R196) -/

/-- QM_INJ_CTRL with GO (R193). -/
def injGo (env : Env) (p : Nat) (x : Word) (v : Dev) : Dev :=
  if !v.fb (QM_INJ_STATUS p) 8 then v
  else
    let len := fld x 4 4
    let m : Msg :=
      { typ := if bit x 24 then 2 else 1, queue := fld x 0 4, seqTag := fld x 8 16, offset := v.fd (QM_INJ_OFFSET p) 0 11, sendno := 0,
        src := 0, mgmt := true, tag := (v.core p).openTick % 256, lenM1 := len,
        data := ((List.range (8 * (len + 1))).map (fun i => leBytes 4 (v.rdN (QM_INJ_DATA p i)))).flatten }
    let r := queueArrival env p m v
    (queueTrace env p m r.1 r.2).wrN (QM_INJ_STATUS p) (r.1 + 256)

/-- QM_CTRL: a change of VIEW clears the debug registers; CLR_CNT clears the counters (R196, R197). -/
def qmCtrlWrite (p : Nat) (x : Word) (v : Dev) : Dev :=
  let v := if v.fb (QM_CTRL p) 0 != bit x 0 then
      (v.clearRegs ((List.range 16).map (QM_DBG_LO p) ++ (List.range 16).map (QM_DBG_HI p))).setB (QM_CTRL p) 0 (bit x 0)
    else v
  if bit x 1 then v.clearRegs (qmCounters p) else v

/-- The die of a source. -/
def sourceDie : Source → Nat
  | .core p => pDie p.idx
  | .block d _ => d.val
  | .maint d _ => d.val

def execPacketInject (src : Source) (s : State) : Host.Outcome State Fault Refusal := .next (s.onClk (sourceDie src) 2 (packetInject src))
def execQmQOpen (who : Party) (n : CoreNo) (q : Fin 16) (s : State) : Host.Outcome State Fault Refusal :=
  .next (s.onDev (fun env => coreWrite env who n.val (0x500 + 16 * q.val) (fun p => queueOpen env p q.val)))
def execQmQClose (who : Party) (n : CoreNo) (q : Fin 16) (s : State) : Host.Outcome State Fault Refusal :=
  .next (s.onDev (fun env => coreWrite env who n.val (0x500 + 16 * q.val) (fun p v => clearSlots p q.val (closeQueue p v q.val))))
def execQmRdWrite (who : Party) (n : CoreNo) (q : Fin 16) (x : Word) (s : State) : Host.Outcome State Fault Refusal :=
  .next (s.onDev (fun env => coreWrite env who n.val (0x500 + 16 * q.val) (fun p => rdWrite env p q.val x)))
def execQmArrival (p : Phys) (s : State) : Host.Outcome State Fault Refusal := .next (s.onClk (pDie p.idx) 1 (qmArrival p.idx))
def execReplyArrival (p : Phys) (s : State) : Host.Outcome State Fault Refusal := .next (s.onClk (pDie p.idx) 1 (replyArrival p.idx))
def execCombPendingEmit (p : Phys) (q : Fin 16) (s : State) : Host.Outcome State Fault Refusal :=
  .next (s.onClk (pDie p.idx) 1 (fun env => emitPending env p.idx q.val 65))
def execCombAgePartial (p : Phys) (q : Fin 16) (slot : Fin 64) (s : State) : Host.Outcome State Fault Refusal :=
  .next (s.onClk (pDie p.idx) 1 (combAge p.idx q.val slot.val))
def execQmCCtrlEn (who : Party) (n : CoreNo) (c : Fin 16) (s : State) : Host.Outcome State Fault Refusal :=
  .next (s.onDev (fun env => coreWrite env who n.val (0x600 + 32 * c.val) (fun p => chanEnable p c.val)))
def execQmCCtrlDoorbell (who : Party) (n : CoreNo) (c : Fin 16) (s : State) : Host.Outcome State Fault Refusal :=
  .next (s.onDev (fun env => coreWrite env who n.val (0x600 + 32 * c.val) (fun p => doorbell p c.val)))
def execSendStart (p : Phys) (c : Fin 16) (s : State) : Host.Outcome State Fault Refusal := .next (s.onClk (pDie p.idx) 1 (sendStart p.idx c.val))
def execRelayTrigger (p : Phys) (c : Fin 16) (s : State) : Host.Outcome State Fault Refusal := .next (s.onClk (pDie p.idx) 1 (relayTrigger p.idx c.val))
def execSendRetry (p : Phys) (c : Fin 16) (s : State) : Host.Outcome State Fault Refusal := .next (s.onClk (pDie p.idx) 1 (sendRetry p.idx c.val))
def execReplyTimeout (p : Phys) (c : Fin 16) (s : State) : Host.Outcome State Fault Refusal := .next (s.onClk (pDie p.idx) 1 (replyTimeout p.idx c.val))
def execSendStalledOut (p : Phys) (c : Fin 16) (s : State) : Host.Outcome State Fault Refusal :=
  .next (s.onClk (pDie p.idx) 1 (sendStalledOut p.idx c.val))
def execQmInjGo (who : Party) (n : CoreNo) (x : Word) (s : State) : Host.Outcome State Fault Refusal :=
  .next (s.onDev (fun env => coreWrite env who n.val 0x800 (fun p => injGo env p x)))
def execQmCtrlWrite (who : Party) (n : CoreNo) (x : Word) (s : State) : Host.Outcome State Fault Refusal :=
  .next (s.onDev (fun env => coreWrite env who n.val 0x400 (fun p => qmCtrlWrite p x)))

end Sys2Proof.Machine
end

