-- ==== Sys2Proof/Machine/CoreRegs.lean ====
section
/-! DEFINITION. Writes to the registers of a core by offset in its register page (R10, R11, R103, R163, R184, R190, R193, R196): the
registers with a row of their own and those without. -/
namespace Sys2Proof.Machine

open Sys2Proof

/-- A write by the access codes of R10: RW bits are set, W1C bits that are written 1 are cleared, the rest stays; an offset that no
table lists ignores writes (R11). -/
def plainWrite (r : Reg) (x : Word) (v : Dev) : Dev :=
  match regRow r with
  | none => v
  | some row =>
    let rw := w32 row.rw
    let keep := v.rd r &&& ~~~rw &&& ~~~(x &&& w32 row.w1c)
    v.wr r (keep ||| (x &&& rw))

/-- A stall or reply limit: a 0 sets QM_STATUS.CFG_ERR and keeps the value (R190). -/
def queueLimitWrite (p : Nat) (stall : Bool) (x : Word) (v : Dev) : Dev :=
  let n := if stall then fld x 0 24 else fld x 0 16
  if n = 0 then v.setB (QM_STATUS p) 16 true
  else v.wrN (if stall then QM_STALL_LIMIT p else QM_REPLY_LIMIT p) n

/-- NC_CTRL: CLR_CNT, RESTART, and ENABLE, which is checked when it goes from 0 to 1 (R70, R99, R102). -/
def ncCtrlWrite (env : Env) (who : Party) (p : Nat) (x : Word) (v : Dev) : Dev :=
  let v := if bit x 1 then v.clearRegs (ncCounters p ++ plCounters p) else v
  let v := if bit x 2 && mayRestart who then coreReset p v else v
  if bit x 0 then coreEnable env p v else if v.enabled p then coreDisable p v else v

/-- NC_PL_CTRL: EN, ETA_Q and ETA_Q_EN are layout fields (R103); EN going from 0 to 1 resets the epoch position (R115). -/
def plCtrlWrite (p : Nat) (x : Word) (v : Dev) : Dev :=
  let v := v.setF (NC_PL_CTRL p) 1 5 (fld x 1 5)
  if bit x 0 then plEnable p v else v.setB (NC_PL_CTRL p) 0 false

/-- A setting written while its queue is open or its channel enabled is dropped, with an IF record of source IF_CONFIG (R163, R184, R381). -/
def droppedSetting (env : Env) (p : Nat) (r : Reg) (v : Dev) : Dev := raiseConfig env (pDie p) (v.coreOwner p) (mCore p) r v

/-- QM_Q_CTRL: the settings are written only while OPEN is 0, OPEN opens with a check or closes (R163). R163 does not say which write with
OPEN in force counts as a write of the settings: here one that leaves bits [8:1] as they are makes no record, and one that changes them makes
one, also where it closes the queue (DESIGN CHOICE, log entry 149). -/
def qCtrlWrite (env : Env) (p q : Nat) (x : Word) (v : Dev) : Dev :=
  let r := QM_Q_CTRL p q
  let v := if bit x 9 then v.setB r 9 false else v
  let v := if bit x 10 then v.setB r 10 false else v
  if v.qOpen p q then
    let v := if v.fd r 1 8 = fld x 1 8 then v else droppedSetting env p r v
    if bit x 0 then v else clearSlots p q (closeQueue p v q)
  else
    let v := v.setF r 1 8 (fld x 1 8)
    if bit x 0 then queueOpen env p q v else v

/-- QM_C_CTRL: settings only while EN is 0; EN is checked when it goes from 0 to 1; DOORBELL triggers (R182, R184). As for a queue, a write
with EN in force that leaves the settings as they are makes no record (DESIGN CHOICE, log entry 149). -/
def cCtrlWrite (env : Env) (p c : Nat) (x : Word) (v : Dev) : Dev :=
  let r := QM_C_CTRL p c
  let mask : Word := 0xFFFFFFF6
  let v :=
    if v.fb r 0 then
      if v.rd r &&& mask = x &&& mask then v else droppedSetting env p r v
    else v.wr r ((v.rd r &&& ~~~mask) ||| (x &&& mask))
  let v := if bit x 0 then chanEnable p c v else v.setB r 0 false
  if bit x 3 then doorbell p c v else v

/-- A write of a layout register, dropped with an IF record of source IF_ACCESS while the core is enabled (R103). -/
def lockedWrite (env : Env) (who : Party) (p : Nat) (r : Reg) (free : Bool) (x : Word) (v : Dev) : Dev :=
  if free then plainWrite r x v else raiseAccess env (pDie p) (v.coreOwner p) who (regAddr v r) v

/-- A write of a queue's or channel's setting (R163, R184). -/
def settingWrite (env : Env) (p : Nat) (r : Reg) (free : Bool) (x : Word) (v : Dev) : Dev :=
  if free then plainWrite r x v else droppedSetting env p r v

/-- What a write at an offset of the register page does, once it reaches the core; an offset that no table lists ignores it (R11). -/
def corePageWrite (env : Env) (who : Party) (p off : Nat) (x : Word) (v : Dev) : Dev :=
  let r := coreReg p off
  if regRow r = none then v
  else if off = 0 then ncCtrlWrite env who p x v
  else if 0x10 ≤ off ∧ off ≤ 0x20 then lockedWrite env who p r (!v.enabled p) x v
  else if 0x80 ≤ off ∧ off < 0xC0 ∧ off % 4 = 0 then threshWrite p ((off - 0x80) / 4) x v
  else if off = 0x200 then
    if v.enabled p then raiseAccess env (pDie p) (v.coreOwner p) who (regAddr v r) v else plCtrlWrite p x v
  else if off = 0x208 ∨ off = 0x20C then lockedWrite env who p r (!v.enabled p) x v
  else if off = 0x218 then plEpochWrite p (fld x 0 16) v
  else if off = 0x400 then qmCtrlWrite p x v
  else if off = 0x408 then queueLimitWrite p true x v
  else if off = 0x40C then queueLimitWrite p false x v
  else if 0x500 ≤ off ∧ off < 0x600 ∧ off % 16 = 0 then qCtrlWrite env p ((off - 0x500) / 16) x v
  else if 0x500 ≤ off ∧ off < 0x600 then settingWrite env p r (!v.qOpen p ((off - 0x500) / 16)) x v
  else if 0x600 ≤ off ∧ off < 0x800 ∧ off % 32 = 0 then cCtrlWrite env p ((off - 0x600) / 32) x v
  else if 0x600 ≤ off ∧ off < 0x800 ∧ off % 32 < 0x10 then settingWrite env p r (!v.fb (QM_C_CTRL p ((off - 0x600) / 32)) 0) x v
  else if off = 0x800 then if bit x 31 then injGo env p x v else v
  else if 0xA00 ≤ off ∧ off < 0xC00 ∧ off % 4 = 0 then v.wr r x
  else plainWrite r x v

/-- A write to the register page of a core number (R24, R26). -/
def coreRegWrite (env : Env) (who : Party) (n off : Nat) (x : Word) (v : Dev) : Dev :=
  coreWrite env who n off (fun p => corePageWrite env who p off x) v

/-! ## MAINT packets and PACKET_EJECT (R130 to R132, R144, R157) -/

/-- Words written to the registers of a physical core from an offset of its page. -/
def maintRegs (env : Env) (who : Party) (p : Nat) : Nat → List Word → Dev → Dev
  | _, [], v => v
  | off, w :: ws, v => maintRegs env who p (off + 4) ws (corePageWrite env who p off w v)

/-- A MAINT packet is delivered: its data goes to the program store, or to the local memory or the registers of the physical core (R130). -/
def deliverMaint (env : Env) (p : Nat) (pkt : Packet) (v : Dev) : Dev :=
  let off := fldN pkt.info 0 19
  let bytes := (pkt.words.map (fun w => leBytes 4 w.toNat)).flatten
  if fldN pkt.info 19 1 = 1 then v.st (progMem p (off % 0x4000)) (bytes.take (0x4000 - off % 0x4000))
  else if off < 0x40000 then writeCoreMem env p off (bytes.take (0x40000 - off)) v
  else maintRegs env (.coachman (Fin.ofNat 8 (pkt.src % 8))) p (off - 0x40000) pkt.words v

/-- A packet at its destination interface: a MAINT packet passes checks 3 to 5 and is delivered, or discarded whole for a body flit in
error; every other packet goes through the checks of R144. -/
def arrive (env : Env) (f : Flight) (slot : Nat) (v : Dev) : Dev :=
  if f.pkt.typ = 3 ∧ f.pkt.version = 2 then
    if f.pkt.badFlits ≠ [] then bodyError env f (v.retire f.pid)
    else deliverMaint env (pMake f.die f.tile slot) f.pkt ((v.retire f.pid).inc64 (EF_EJ_PKTS_LO f.die) (EF_EJ_PKTS_HI f.die) 1)
  else eject env f slot v

/-- PACKET_EJECT of a packet whose head waits at its destination interface, in the order in which packets came there; `err` is what the
destination's SECDED check finds (R157), and an error in a body flit is kept while the packet waits for room. R157 has an uncorrectable head flit detected at a router: here it is treated as there (log entry
146). -/
def packetEject (pid : Nat) (err : FlitErr) (env : Env) (v : Dev) : Dev :=
  match v.flight pid with
  | some f =>
    match f.slot with
    | some s =>
      if v.fab.flights.find? (fun x => x.die == f.die && x.tile == f.tile && x.slot == some s && x.inp == f.inp) != some f then v
      else match err with
        | .head => headLost env f v
        | .corrected => arrive env f s (flitCorrected env f (v.awake f.die))
        | .body k => arrive env (f.spoil k.val) s ((v.setFlight (f.spoil k.val)).awake f.die)
        | .none => arrive env f s (v.awake f.die)
    | none => v
  | none => v

def execPacketEject (e : Ejection) (s : State) : Host.Outcome State Fault Refusal := .next (s.onFlight e.pid (packetEject e.pid e.err))

end Sys2Proof.Machine
end

