-- ==== Sys2Proof/Machine/Churn.lean ====
section
/-! DEFINITION. Churns and their pails: weight blocks, passes, output stages, requantisers, the statistic and pail records (R199 to R229,
R487, 07_churns.md). -/
namespace Sys2Proof.Machine

open Sys2Proof

/-! ## Register access (R229) -/

/-- Only the command engine for the owning coach, firmware and the debug port write a churn's registers and tables. -/
def chnWrite (env : Env) (who : Party) (d c : Nat) (r : Reg) (f : Dev → Dev) (v : Dev) : Dev :=
  let o := v.churnOwner d c
  let ok := match who with
    | .port _ => false
    | .engine q => decide (o < 4) && (v.coach o).port == q.val
    | _ => true
  blockGate env who d o ok (v.fb (SEC_BLOCK0 d) c) r f v

/-- The registers from `lo` up to `lo + n` bytes at their reset values. -/
def clearRange (lo : Reg) (n : Nat) (v : Dev) : Dev :=
  { v with regs := v.regs.filter (fun e => decide (e.1 < lo.key) || decide (lo.key + n ≤ e.1)) }

/-- An entry of 8 bytes in a table of 4-byte registers. -/
def entry8 (v : Dev) (r : Nat → Reg) (i : Nat) : Nat := v.rd64 (r (2 * i)) (r (2 * i + 1))

/-! ## Words (R257, R487) -/

/-- A byte of a run of 128-byte words. -/
def byteOf (ws : List Nat) (k : Nat) : Nat := fldN (ws.getD (k / 128) 0) (8 * (k % 128)) 8

/-- A number of `n` bytes from byte `k` of a run of words. -/
def numOf (ws : List Nat) (k : Nat) : Nat → Nat
  | 0 => 0
  | n + 1 => byteOf ws k + 256 * numOf ws (k + 1) n

/-- The word a sink takes: zeros when it is not valid (R257). -/
def TWord.taken (w : TWord) : Nat := if w.valid then w.data % 2 ^ 1024 else 0

/-- Bytes as words of 128 bytes, the last filled with zeros. -/
def packWords : Nat → List Byte → List Nat
  | 0, _ => []
  | fuel + 1, bs => match bs with
    | [] => []
    | _ => ofLeBytes (bs.take 128) :: packWords fuel (bs.drop 128)

/-- `n` words from the data port; a word that was never delivered has no stated value and is free (log entry 12). -/
def takeData (d c : Nat) : Nat → Dev → List Nat × Dev
  | 0, v => ([], v)
  | n + 1, v =>
    match (v.churn d c).dport with
    | w :: ws =>
      let r := takeData d c n (v.modChurn d c (fun h => { h with dport := ws }))
      (w.taken :: r.1, r.2)
    | [] =>
      let f := v.takeFree
      let r := takeData d c n f.2
      (f.1 % 2 ^ 1024 :: r.1, r.2)

/-! ## Weight blocks (R205, R206) -/

/-- Output columns: 128 with INT8 weights, 256 with INT4 weights. -/
def Pass.cols (p : Pass) : Nat := if p.wfmt then 256 else 128

/-- The weight of a row and column of a block held as 128 words (R205). -/
def weightAt (wfmt : Bool) (block : List Nat) (r c : Nat) : Int :=
  if wfmt then toSigned 4 (fldN (block.getD r 0) (4 * c) 4) else toSigned 8 (fldN (block.getD r 0) (8 * c) 8)

/-- Rows that OUTL_MASK takes out of the main lane (R208). -/
def Pass.outl (p : Pass) (r : Nat) : Bool := p.outlEn && fldN p.outlMask r 1 == 1

/-- The sum of integers over the rows 0–127. -/
def sumRows (f : Nat → Int) : Int := ((List.range 128).map f).foldl (· + ·) 0

/-- Σw of a column over the rows in the main lane (R206). -/
def sigmaW (p : Pass) (block : List Nat) (c : Nat) : Int := sumRows (fun r => if p.outl r then 0 else weightAt p.wfmt block r c)

/-- The next pass of the frame. -/
def Churn.next (h : Churn) : Option Pass := h.list[h.pos]?

/-- WEIGHT_BLOCK_ARRIVAL: 128 words fill the shadow buffer, and Σw is formed for the next pass (R206). -/
def weightBlock (d c : Nat) (v : Dev) : Dev :=
  let h := v.churn d c
  match h.next with
  | some p =>
    if h.shadow = [] ∧ 128 ≤ h.wport.length then
      let block := (h.wport.take 128).map TWord.taken
      v.modChurn d c (fun h =>
        { h with wport := h.wport.drop 128, shadow := block, sumw := (List.range p.cols).map (sigmaW p block) })
    else v
  | none => v

/-! ## Pails (R210 to R214) -/

def pailGraded (v : Dev) (d c : Nat) : Bool := v.fb (PAIL_CTRL d c) 1
def pailOn (v : Dev) (d c : Nat) : Bool := v.fb (PAIL_CTRL d c) 0
def pailGroups (v : Dev) (d c : Nat) : Nat := if pailGraded v d c then 512 else 4096
/-- Positions of an image. -/
def pailPositions (v : Dev) (d c : Nat) : Nat := if pailGraded v d c then 65536 else 524288
/-- Index of the collecting image. -/
def pailCollect (v : Dev) (d c : Nat) : Nat := v.fd (PAIL_STATUS d c) 3 1
/-- A byte of an image. -/
def pailByte (v : Dev) (d c image k : Nat) : Nat := (SMap.get 0 (v.churn d c).image (image * 0x10000 + k)).toNat
/-- The value at a position of an image: a bit in BINARY mode, a byte in GRADED mode (R210). -/
def pailAt (v : Dev) (d c image pos : Nat) : Nat :=
  if pailGraded v d c then pailByte v d c image pos else fldN (pailByte v d c image (pos / 8)) (pos % 8) 1
/-- The value at a position is written. -/
def pailPut (d c image pos x : Nat) (v : Dev) : Dev :=
  let k := if pailGraded v d c then pos else pos / 8
  let b := if pailGraded v d c then x else setFldN (pailByte v d c image k) (pos % 8) 1 x
  v.modChurn d c (fun h => { h with image := SMap.set 0 h.image (image * 0x10000 + k) (BitVec.ofNat 8 b) })

/-- A gather entry (R211, R272): fields of an 8-byte entry with a core, a neuron range and a first position. -/
def geCore (w : Nat) : Nat := fldN w 0 18
def geBase (w : Nat) : Nat := fldN w 18 10
def geCount (w : Nat) : Nat := fldN w 28 10
def gePos (w : Nat) : Nat := fldN w 38 19
def geValid (w : Nat) : Bool := fldN w 63 1 == 1

/-- The valid gather entries of a pail. -/
def pailEntries (v : Dev) (d c : Nat) : List Nat := ((List.range 2048).map (entry8 v (CHN_GATHER d c))).filter geValid

/-- The check of R211. -/
def gatherOk (entries : List Nat) (positions : Nat) : Bool :=
  entries.all (fun w => decide (fldN w 57 6 = 0) && decide (geBase w + geCount w ≤ 1023) && decide (gePos w + geCount w < positions)
    && decide ((entries.filter (fun x => geCore x == geCore w)).length ≤ 4))

/-- A valid entry names a core that is not placed on the die; one that is fenced in its place still is (R213). -/
def absentHere (env : Env) (v : Dev) (d : Nat) (entries : List Nat) : Bool :=
  entries.any (fun w => (v.placedOn env (geCore w)).map pDie != some d)

/-- PAIL_CTRL.EN written from 0 to 1 (R211). -/
def pailEnable (d c : Nat) (v : Dev) : Dev :=
  if pailOn v d c then v
  else if gatherOk (pailEntries v d c) (pailPositions v d c) then v.setB (PAIL_CTRL d c) 0 true
  else v.setB (PAIL_STATUS d c) 0 true

/-- A record enters the collecting image at every matching range (R212). -/
def pailStore (d c : Nat) (matching : List Nat) (r : SpikeRec) (v : Dev) : Dev :=
  let im := pailCollect v d c
  let v := matching.foldl (fun v w =>
    let pos := gePos w + (r.neuron - geBase w)
    pailPut d c im pos (if pailGraded v d c then max (pailAt v d c im pos) r.payload else 1) v) v
  v.inc64 (PAIL_SPIKES_LO d c) (PAIL_SPIKES_HI d c) 1

/-- The gather entries whose range holds a record's neuron, for a core placed on the die (R211, R213). -/
def pailMatches (env : Env) (v : Dev) (d c : Nat) (r : SpikeRec) : List Nat :=
  if (v.placedOn env r.core).map pDie = some d then
    (pailEntries v d c).filter (fun w => geCore w == r.core && decide (geBase w ≤ r.neuron) && decide (r.neuron ≤ geBase w + geCount w))
  else []

/-- An SE record of a unit that takes spike records, at most one in a tick (R212, R272). -/
def raiseSpikeSE (env : Env) (d owner master coach : Nat) (v : Dev) : Dev :=
  raise env { die := d, cls := clsSE, owner := owner, source := 0x30, master := master, access := accCheck, addr := 0, info := coach % 4 + 4 } v

/-- The pail buffers the record because its image is being cleared, and its buffer is full (R214). -/
def pailFull (v : Dev) (d c : Nat) : Bool := v.fb (PAIL_STATUS d c) 2 && decide (256 ≤ (v.churn d c).buffer.length)

/-- What one pail does with a record on its die's pail bus (R212, R214). -/
def pailTake (env : Env) (d c : Nat) (r : SpikeRec) (v : Dev) : Dev :=
  let g := v.churnOwner d c
  let h := v.churn d c
  if g = 4 || !pailOn v d c || r.membrane != none then v
  else if r.coach ≠ g then
    let v := v.inc (PAIL_XCOACH d c) 1
    if h.seRec then v
    else (raiseSpikeSE env d g (mBlock d 1 c) r.coach v).modChurn d c (fun h => { h with seRec := true })
  else
    let m := pailMatches env v d c r
    if m = [] then v
    else
      let late := decide (h.handed.map (· % 256) = some r.tag)
      if r.tag = h.collTick % 256 || late then
        let v := if r.tag = h.collTick % 256 then v
          else (v.inc (PAIL_LATE d c) 1).inc (TG_LATE_SPIKES env.master g) 1
        if v.fb (PAIL_STATUS d c) 2 then v.modChurn d c (fun h => { h with buffer := h.buffer ++ [r] })
        else pailStore d c m r v
      else v.inc (PAIL_STALE d c) 1

/-- The pail instant at one pail: the collecting image of tick `n` is handed over, the other one clears and collects (R214), whether or not
the pail gathers. -/
def pailHandOver (d c n : Nat) (v : Dev) : Dev :=
  let other := 1 - pailCollect v d c
  let v := (v.setF (PAIL_STATUS d c) 3 1 other).setB (PAIL_STATUS d c) 2 true
  v.modChurn d c (fun h =>
    { h with collTick := n + 1, handed := some n, image := h.image.filter (fun e => e.1 / 0x10000 ≠ other) })

/-- PAIL_CLEAR_DONE: the records held in the buffer enter the image (R214). -/
def pailCleared (d c : Nat) (env : Env) (v : Dev) : Dev :=
  if v.fb (PAIL_STATUS d c) 2 then
    let l := (v.churn d c).buffer
    l.foldl (fun v r => pailStore d c (pailMatches env v d c r) r v)
      ((v.setB (PAIL_STATUS d c) 2 false).modChurn d c (fun h => { h with buffer := [] }))
  else v

/-- A word of the image that was handed over: 128 bytes (R210, R214). -/
def pailWord (v : Dev) (d c a : Nat) : Nat :=
  ofLeBytes ((List.range 128).map (fun i => BitVec.ofNat 8 (pailByte v d c (1 - pailCollect v d c) (128 * a + i))))

/-! ## Passes (R202 to R215, R223) -/

/-- Words of one seed and words of all seeds (R487). -/
def Pass.seedWords (p : Pass) : Nat := if p.wfmt then 8 else 4
def Pass.seedsIn (p : Pass) : Nat := if p.seed = 2 then p.vcount * p.seedWords else 0
/-- The vectors are 144 bytes long, packed back to back (R487). -/
def Pass.wide (p : Pass) : Bool := (p.mode == 0 && p.outlEn) || (p.mode == 2 && !p.msrc)
/-- Vector words from the data port (R487). -/
def Pass.vectorsIn (p : Pass) : Nat :=
  if p.mode ≠ 0 && p.msrc then 0 else if p.wide then (9 * p.vcount + 7) / 8 else p.vcount

/-- The rows of OUTL_MASK below `r`: the slot of row `r` among the INT16 values (R208). -/
def Pass.outlSlot (p : Pass) (r : Nat) : Nat := ((List.range r).filter p.outl).length

/-- The multiplier of row `r` for vector `k`, from the vector words (R207 to R209, R487). -/
def Pass.dataRow (p : Pass) (ws : List Nat) (k r : Nat) : Int :=
  let base := if p.wide then 144 * k else 128 * k
  let maskBit := fldN (byteOf ws (base + r / 8)) (r % 8) 1
  match p.mode with
  | 0 =>
    if p.outl r then toSigned 16 (numOf ws (base + 128 + 2 * p.outlSlot r) 2)
    else if p.afmt then toSigned 8 (byteOf ws (base + r)) else (byteOf ws (base + r) : Int)
  | 1 => (maskBit : Int)
  | _ => ((maskBit * byteOf ws (base + 16 + r) : Nat) : Int)

/-- The same from the pail's image (R209, R210). -/
def Pass.pailRow (p : Pass) (v : Dev) (d c k r : Nat) : Int :=
  let x := pailAt v d c (1 - pailCollect v d c) (128 * (p.mword + k * p.mstride) + r)
  if p.mode = 2 then (x : Int) else if x = 0 then 0 else 1

/-- The pail conditions of R203 against the pail's mode now: they stand for every pass with MSRC 1. -/
def Pass.pailOk (p : Pass) (v : Dev) (d c : Nat) : Bool :=
  !p.msrc ||
    (decide (p.mword + (p.vcount - 1) * p.mstride < pailGroups v d c) && (p.mode != 2 || pailGraded v d c))

def accKey (bank row col : Nat) : Nat := bank * 0x40000 + row * 256 + col

/-- The zero point as its format reads it: unsigned for UINT8, signed otherwise (R202). -/
def zeroPoint (unsigned : Bool) (z : Nat) : Int := if unsigned then (z : Int) else toSigned 8 z

/-- CORR of the bank at the start of a pass (R206). -/
def passCorr (p : Pass) (d c : Nat) (v : Dev) : Dev :=
  let lim : Int := 549755813888
  (List.range p.cols).foldl (fun v col =>
    let h := v.churn d c
    let key := p.abank * 256 + col
    let term := zeroPoint (!p.afmt) p.zpIn * h.sumw.getD col 0
    let x := if p.seed = 1 then SMap.get 0 h.corr key + term else term
    let y := clampI (-lim) (lim - 1) x
    let v := v.modChurn d c (fun h => { h with corr := SMap.set 0 h.corr key y })
    if y = x then v else v.setB (CHN_STATUS d c) 7 true) v

/-- One column sum is added to its accumulator with saturation (R215). -/
def accumulate (p : Pass) (d c row col : Nat) (start sum : Int) (v : Dev) : Dev :=
  let x := start + sum
  let v := v.modChurn d c (fun h => { h with acc := SMap.set 0 h.acc (accKey p.abank row col) (sat32 x) })
  if sat32 x = x then v else (v.inc (CHN_ACC_SAT d c) 1).setB (CHN_STATUS d c) 7 true

/-- Vector `k` of a pass: its column sums into row AROW + k (R207 to R209, R215). -/
def passVector (p : Pass) (d c : Nat) (seeds ws : List Nat) (v : Dev) (k : Nat) : Dev :=
  let row := p.arow + k
  let xs := (List.range 128).map (fun r => if p.mode ≠ 0 && p.msrc then p.pailRow v d c k r else p.dataRow ws k r)
  let block := (v.churn d c).active
  let v := v.inc64 (CHN_VECTORS_LO d c) (CHN_VECTORS_HI d c) 1
  let zero := if p.msrc then xs.all (· == 0)
    else (List.range 16).all (fun i => byteOf ws ((if p.wide then 144 * k else 128 * k) + i) == 0)
  let v := if p.mode ≠ 0 && zero then v.inc64 (CHN_ZERO_MASKS_LO d c) (CHN_ZERO_MASKS_HI d c) 1 else v
  (List.range p.cols).foldl (fun v col =>
    let start : Int := match p.seed with
      | 0 => 0
      | 1 => SMap.get 0 (v.churn d c).acc (accKey p.abank row col)
      | _ => toSigned 32 (numOf seeds (k * p.seedWords * 128 + 4 * col) 4)
    accumulate p d c row col start (sumRows (fun r => weightAt p.wfmt block r col * xs.getD r 0)) v) v

/-! ## When passes and their outputs come (R204, R216, R222, R241; log entry 122) -/

/-- Frame slot of an entry's word (R245). -/
def slotOf (t : DieTable) (e : TEntry) (r i : Nat) : Nat := t.offset + r * t.slots + e.start + i

/-- A signed step added `k` times to an address (R245). -/
def stepped (addr step : Nat) (k : Nat) : Int := (addr : Int) + toSigned 32 step * k

/-- The word address at the source or sink of word `i` of round `r` (R245). -/
def srcAddrOf (e : TEntry) (r i : Nat) : Nat := (stepped e.srcAddr e.srcStep i + toSigned 32 e.srcRstep * ((r - e.firstRound : Nat) : Int)).toNat
def snkAddrOf (e : TEntry) (r i : Nat) : Nat := (stepped e.snkAddr e.snkStep i + toSigned 32 e.snkRstep * ((r - e.firstRound : Nat) : Int)).toNat

/-- The key of a round instance of an entry. -/
def instKey (d e r : Nat) : Nat := (d * 1024 + e) * 65536 + r

/-- The CHK time of a frame slot on a die: slot `t` is the `t`-th CHK cycle after the pail instant there (R247, R442). -/
def slotTime (v : Dev) (d : Nat) (f : Frame) (slot : Nat) : Nat := v.chkAt d f.start + slot * 1000

/-- The frame slot has come at die `d`. -/
def slotDue (env : Env) (v : Dev) (d : Nat) (f : Frame) (slot : Nat) : Bool := decide (slotTime v d f slot ≤ v.chkAt d (env.nowOf d))

/-- Every word of every entry of the coach's tables has been delivered. -/
def wordsDone (env : Env) (v : Dev) (g : Nat) (f : Frame) : Bool :=
  env.dieList.all (fun d => match v.table d g with
    | some t => (List.range t.entries.length).all (fun en => match t.entries[en]? with
      | some e => (List.range (e.lastRound - e.firstRound + 1)).all (fun r =>
          SMap.get 0 f.done (instKey d en (e.firstRound + r)) == e.lenM1 + 1)
      | none => true)
    | none => true)

/-- A number placed in an ascending list. -/
def insertSlot (x : Nat) : List Nat → List Nat
  | [] => [x]
  | y :: ys => if x ≤ y then x :: y :: ys else y :: insertSlot x ys

/-- The slots in which a table delivers words to a sink end, ascending. -/
def sinkSlots (t : DieTable) (snk : Nat) : List Nat :=
  ((t.entries.filter (fun e => e.snk == snk)).flatMap (fun e =>
    (List.range (e.lastRound + 1 - e.firstRound)).flatMap (fun r =>
      (List.range (e.lenM1 + 1)).map (fun i => slotOf t e (e.firstRound + r) i)))).foldr insertSlot []

/-- Cycles of a pass and of a row of its output stage (R222). -/
def Pass.cycles (p : Pass) : Nat :=
  max (if p.wide then (9 * p.vcount + 7) / 8 else p.vcount) 128 + 2 + p.seedsIn
def Pass.rowCycles (p : Pass) : Nat := (if p.outfmt = 3 ∧ p.odest = false then 4 else 8) * (if p.wfmt then 2 else 1)

/-- Scheduled starts of a list of passes, from the slots of the weight and the data port: 2 cycles before the first data word, or after the
last weight word of a pass without data, and never before the previous pass has ended. -/
def passStarts : List Pass → List Nat → List Nat → Nat → List Nat
  | [], _, _, _ => []
  | p :: ps, ws, ds, prev =>
    let need := p.seedsIn + p.vectorsIn
    let start := max prev (match ds.take need, (ws.take 128).getLast? with
      | x :: _, _ => x - 2
      | [], some x => x + 1
      | [], none => 0)
    start :: passStarts ps (ws.drop 128) (ds.drop need) (start + p.cycles)

/-- The frame slot at which pass `i` of a churn's list is scheduled to start. -/
def passSlot (v : Dev) (d c i : Nat) : Nat := match v.table d (v.churnOwner d c) with
  | some t => (passStarts (v.churn d c).list (sinkSlots t (16 + c)) (sinkSlots t (20 + c)) 0).getD i 0
  | none => 0

/-- The frame cycle in which the output stage of pass `i` of a churn's list begins: 128 cycles after the pass ends (R216). -/
def stageCycle (v : Dev) (d c i : Nat) : Nat := match (v.churn d c).list[i]? with
  | some p => passSlot v d c i + p.cycles + 128
  | none => 0

/-- The words of row `k` of an output stage, with the cycles in which they leave. -/
def stageWords (st : OutStage) (k : Nat) (ws : List Nat) : List OutWord :=
  let hold := st.pass.rowCycles / ws.length
  (List.range ws.length).map (fun i => ⟨st.cycle + k * st.pass.rowCycles + i * hold, hold, ws.getD i 0⟩)

/-- The word at the output port in a frame cycle. -/
def portWord (ws : List OutWord) (cycle : Nat) : Option Nat :=
  (ws.find? (fun w => decide (w.cycle ≤ cycle) && decide (cycle < w.cycle + w.hold))).map (·.data)

/-- The pass runs: shadow becomes active, CORR, seeds and vectors (R206, R215, R487). -/
def passRun (p : Pass) (d c tick : Nat) (v : Dev) : Dev :=
  let index := (v.churn d c).pos
  let cycle := if p.final ∧ p.odest = false then stageCycle v d c index else 0
  let v := v.modChurn d c (fun h => { h with active := h.shadow, shadow := [] })
  let v := passCorr p d c v
  let s := takeData d c p.seedsIn v
  let t := takeData d c p.vectorsIn s.2
  let v := (List.range p.vcount).foldl (passVector p d c s.1 t.1) t.2
  let v := v.inc64 (CHN_PASSES_LO d c) (CHN_PASSES_HI d c) 1
  v.modChurn d c (fun h =>
    { h with
      pos := h.pos + 1, sumw := [],
      due := if p.final then
          h.due ++ [⟨p, index, tick, h.winFrame, (List.range p.cols).map (fun col => SMap.get 0 h.corr (p.abank * 256 + col)), cycle⟩]
        else h.due })

/-- The pass is abandoned: its words are discarded as they arrive, with a DL record (R223). -/
def passAbandon (env : Env) (p : Pass) (d c tick : Nat) (v : Dev) : Dev :=
  let h := v.churn d c
  let need := p.seedsIn + p.vectorsIn
  let g := v.churnOwner d c
  let v := v.inc (CHN_PASS_ABANDON d c) 1
  let v := v.modChurn d c (fun h =>
    { h with
      pos := h.pos + 1, shadow := [], sumw := [], wport := if h.shadow = [] then h.wport.drop 128 else h.wport,
      dport := h.dport.drop need, skip := h.skip + (need - h.dport.length) })
  raise env { die := d, cls := clsDL, owner := g, source := 0x14, master := mBlock d 0 c, access := accEvent, addr := 0,
              info := tick % 0x100000000 + h.pos % 1024 * 0x100000000 } v

/-- The next pass of a churn, in the frame of its coach's tick, once its scheduled start has come (R201, R204). -/
def passDue (env : Env) (v : Dev) (d c : Nat) : Option (Frame × Pass) :=
  let h := v.churn d c
  match v.frame (v.churnOwner d c), h.next with
  | some f, some p =>
    if h.frameOf = some f.tick ∧ ¬ v.fb (CHN_STATUS d c) 3 ∧ slotDue env v d f (passSlot v d c h.pos) = true then some (f, p) else none
  | _, _ => none

/-- The pass can start: its block has arrived, its bank is not draining, and it meets the pail conditions (R223). -/
def passReady (v : Dev) (d c : Nat) (p : Pass) : Bool :=
  decide ((v.churn d c).shadow.length = 128) && !v.fb (CHN_STATUS d c) (1 + p.abank) && p.pailOk v d c

/-- PASS_START: the next pass of the frame's list, whole, once its data words have come or no word is left to come; or abandoned if it
cannot start (R204, R223). -/
def passStart (d c : Nat) (env : Env) (v : Dev) : Dev :=
  match passDue env v d c with
  | some (f, p) =>
    if !passReady v d c p then passAbandon env p d c f.tick v
    else if p.seedsIn + p.vectorsIn ≤ (v.churn d c).dport.length ∨ wordsDone env v (v.churnOwner d c) f = true then
      let stop := slotTime v d f (passSlot v d c (v.churn d c).pos + p.cycles)
      (passRun p d c f.tick v).modChurn d c (fun h => { h with passEnd := stop })
    else v
  | none => v

/-! ## Output stages (R216 to R221) -/

/-- xorshift32 (R218). -/
def xorshift32 (x : Nat) : Nat :=
  let x := x ^^^ (x * 2 ^ 13 % 2 ^ 32)
  let x := x ^^^ (x / 2 ^ 17)
  x ^^^ (x * 2 ^ 5 % 2 ^ 32)

/-- Nearest, ties to even, of P / 2^s (R217). -/
def roundEven (x : Int) (s : Nat) : Int :=
  let q := asr x s
  let r := x - q * ((2 ^ s : Nat) : Int)
  let half : Int := ((2 ^ s / 2 : Nat) : Int)
  if half < r then q + 1 else if r = half then (if q % 2 = 0 then q else q + 1) else q

/-- The random term of R218 for a draw x. -/
def randomTerm (x s : Nat) : Nat := if s ≤ 32 then x % 2 ^ s else x * 2 ^ (s - 32)

/-- The output range of OUTFMT (R217). -/
def outRange : Nat → Int × Int
  | 0 => (0, 255)
  | 1 => (-128, 127)
  | 2 => (-32768, 32767)
  | _ => (-2147483648, 2147483647)

/-- Bytes of an output element. -/
def outBytes : Nat → Nat
  | 0 => 1
  | 1 => 1
  | 2 => 2
  | _ => 4

/-- One value enters the statistic of its requantiser (R219); a value of a window that a restart has ended counts nowhere. -/
def statistic (st : OutStage) (d c q : Nat) (pr y : Int) (s : Nat) (v : Dev) : Dev :=
  let e := clampI (-32768) 32767 (asr (pr * 256) s + 256 * zeroPoint (st.pass.outfmt == 0) st.pass.zpOut - 256 * y)
  let key := st.win * 16 + q
  v.modChurn d c (fun h =>
    if st.win ≠ h.win ∧ h.winEnded ≠ some st.win then h else
    { h with
      mseSum := SMap.set 0 h.mseSum key (min (SMap.get 0 h.mseSum key + (e * e).toNat) 0xFFFFFFFFFFFF),
      mseCnt := SMap.set 0 h.mseCnt key (min (SMap.get 0 h.mseCnt key + 1) 0xFFFFFFFF) })

/-- One column of a row through its requantiser (R217 to R219): the value and the state after. -/
def requantise (st : OutStage) (d c k col : Nat) (v : Dev) : Int × Dev :=
  let p := st.pass
  let q := col / (if p.wfmt then 16 else 8)
  let w := entry8 v (CHN_REQUANT d c) (p.rqBase + col)
  let m := fldN w 0 16
  let s := fldN w 16 6
  let t := SMap.get 0 (v.churn d c).acc (accKey p.abank (p.arow + k) col) - st.corr.getD col 0 + toSigned 32 (fldN w 32 32)
  let lim := outRange p.outfmt
  let clampTo (x : Int) (v : Dev) : Int × Dev :=
    (clampI lim.1 lim.2 x, if clampI lim.1 lim.2 x = x then v else v.inc (CHN_OUT_SAT d c) 1)
  if p.outfmt = 3 then clampTo t v
  else
    let pr := t * m
    let draw := p.rnd && decide (1 ≤ s)
    let x := xorshift32 (SMap.get 1 (v.churn d c).gen q)
    let v := if draw then v.modChurn d c (fun h => { h with gen := SMap.set 1 h.gen q x }) else v
    let rounded := if s = 0 then pr else if p.rnd then asr (pr + randomTerm x s) s else roundEven pr s
    let r := clampTo (rounded + zeroPoint (p.outfmt == 0) p.zpOut) v
    (r.1, if p.stats && !(r.2.churn d c).mseOff then statistic st d c q pr r.1 s r.2 else r.2)

/-- A row of values, column by column. -/
def requantRow (st : OutStage) (d c k : Nat) : List Nat → Dev → List Int × Dev
  | [], v => ([], v)
  | col :: cols, v =>
    let r := requantise st d c k col v
    let t := requantRow st d c k cols r.2
    (r.1 :: t.1, t.2)

/-- An emission entry's fields (R220, R270): DEST, DKIND, VALID, and whether it can be used. -/
def emDest (w : Nat) : Nat := fldN w 0 18
def emKind (w : Nat) : Nat := fldN w 18 2
def emValid (w : Nat) : Bool := fldN w 31 1 == 1
def emBad (w : Nat) : Bool := emValid w && (decide (emKind w = 3) || decide (fldN w 20 11 ≠ 0))

/-- The event of one value joins those that the stage hands over (R220, R221). -/
def emitValue (st : OutStage) (d c w col : Nat) (y : Int) (v : Dev) : Dev :=
  let p := st.pass
  if y < p.evThresh then v
  else if 65535 < p.axonBase + col then v.inc (CHN_EV_AXON_DROP d c) 1
  else
    let pay := if p.evpay then (min 255 y).toNat else 1
    let v := v.inc64 (CHN_EVENTS_LO d c) (CHN_EVENTS_HI d c) 1
    let e : OutEv :=
      { dkind := emKind w, dest := emDest w, axon := p.axonBase + col, payload := pay, delay := p.evDelay,
        tag := (st.tick + 1 + p.evDelay) % 256 }
    v.modChurn d c (fun h => { h with eout := h.eout ++ [(p.abank, e)] })

/-- Row `k` of an output stage: words at the output port, or events (R216, R220, R221). -/
def outRow (st : OutStage) (d c : Nat) (v : Dev) (k : Nat) : Dev :=
  let p := st.pass
  let r := requantRow st d c k (List.range p.cols) v
  if p.odest then
    let w := v.rdN (CHN_EMIT d c (p.emitBase + k))
    if emValid w && !emBad w then
      (List.range p.cols).foldl (fun v col => emitValue st d c w col (r.1.getD col 0) v) r.2
    else r.2
  else
    let n := outBytes p.outfmt
    let bytes := (r.1.map (fun y => leBytes n (ofSigned (8 * n) y))).flatten
    r.2.modChurn d c (fun h => { h with oport := h.oport ++ stageWords st k (packWords 8 bytes) })

/-- OUTPUT_STAGE_START: the oldest due stage enters; its bank drains (R216), and its events are handed over as the interface takes them
(R221). A fenced churn puts out nothing (R394). -/
def outStart (d c : Nat) (env : Env) (v : Dev) : Dev :=
  match (v.churn d c).due with
  | [] => v
  | st :: rest =>
    let p := st.pass
    let v := v.modChurn d c (fun h => { h with due := rest, running := h.running ++ [st] })
    let v := (v.setB (CHN_STATUS d c) 0 true).setB (CHN_STATUS d c) (1 + p.abank) true
    let bad := (List.range p.vcount).find? (fun k => emBad (v.rdN (CHN_EMIT d c (p.emitBase + k))))
    let v := match p.odest, bad with
      | true, some k => raiseConfig env d (v.churnOwner d c) (mBlock d 0 c) (CHN_EMIT d c (p.emitBase + k)) v
      | _, _ => v
    if v.blockFenced (mBlock d 0 c) then v else stageEmission env d c ((List.range p.vcount).foldl (outRow st d c) v)

/-- OUTPUT_STAGE_END of a bank: once its last event has been handed over, after `waited` CHK cycles of waiting in all, it stops draining and
the last event packet closes (R216, R221). -/
def outEnd (d c bank waited : Nat) (env : Env) (v : Dev) : Dev :=
  let v := stageEmission env d c v
  let h := v.churn d c
  if h.running.any (fun st => st.pass.abank == bank) && h.eout.all (fun x => x.1 != bank) && SMap.get 0 h.waited bank == waited then
    let left := h.running.filter (fun st => st.pass.abank != bank)
    let events := h.running.any (fun st => st.pass.abank == bank && st.pass.odest)
    let v := v.modChurn d c (fun h => { h with running := left, waited := SMap.set 0 h.waited bank 0 })
    let v := (v.setB (CHN_STATUS d c) (1 + bank) false).setB (CHN_STATUS d c) 0 (left ≠ [])
    if events then closePacket v (blockIface d c) else v
  else v

/-! ## The statistic's window (R219) -/

/-- A window that ended: its totals are latched and cleared. -/
def mseLatch (d c w : Nat) (v : Dev) : Dev :=
  let h := v.churn d c
  let v := (List.range 16).foldl (fun v q =>
    let v := v.wr64 (CHN_MSE_SUM_LO d c q) (CHN_MSE_SUM_HI d c q) (SMap.get 0 h.mseSum (w * 16 + q))
    v.wrN (CHN_MSE_CNT d c q) (SMap.get 0 h.mseCnt (w * 16 + q))) v
  (v.setB (CHN_STATUS d c) 4 true).modChurn d c (fun h =>
    { h with
      winEnded := none, mseSum := h.mseSum.filter (fun e => e.1 / 16 ≠ w), mseCnt := h.mseCnt.filter (fun e => e.1 / 16 ≠ w) })

/-- MSE_WINDOW_CLOSE: a window that ended closes once its last frame has ended or been abandoned. -/
def mseClose (d c : Nat) (v : Dev) : Dev :=
  let h := v.churn d c
  match h.winEnded with
  | none => v
  | some w =>
    if (h.winFrame = w ∧ v.frame (v.churnOwner d c) ≠ none) ∨ (h.due ++ h.running).any (fun st => st.win == w) then v
    else mseLatch d c w v

/-- A tick of the owning coach starts: it belongs to the present window, or to the next where that has had its ticks (R219). A window that
ended at an earlier tick start has closed by then. -/
def mseTick (d c : Nat) (v : Dev) : Dev :=
  let v := mseClose d c v
  let h := v.churn d c
  if h.mseOff then v
  else if h.winTicks < v.fd (CHN_MSE_WIN d c) 0 16 then v.modChurn d c (fun h => { h with winTicks := h.winTicks + 1, winTick := h.win })
  else v.modChurn d c (fun h => { h with winEnded := some h.win, win := h.win + 1, winTick := h.win + 1, winTicks := 1 })

/-- CHN_MSE_WIN written (R219): a valid write restarts the window, which counts from the next tick start, and the totals of the window that it
ends so are dropped. -/
def mseWinWrite (d c : Nat) (x : Word) (v : Dev) : Dev :=
  let v := v.wrN (CHN_MSE_WIN d c) (fld x 0 16)
  if fld x 0 16 = 0 then (v.setB (CHN_STATUS d c) 5 true).modChurn d c (fun h => { h with mseOff := true })
  else v.modChurn d c (fun h =>
    { h with
      mseOff := false, win := h.win + 1, winTicks := 0, mseSum := h.mseSum.filter (fun e => e.1 / 16 ≠ h.win),
      mseCnt := h.mseCnt.filter (fun e => e.1 / 16 ≠ h.win) })

/-- CHN_SEED[q] written (R218). -/
def seedWrite (d c q : Nat) (x : Word) (v : Dev) : Dev :=
  if x = 0 then v.setB (CHN_STATUS d c) 6 true
  else v.modChurn d c (fun h => { h with gen := SMap.set 1 h.gen q x.toNat })

/-! ## Frames and closing -/

/-- A frame starts: the passes begin at the head of the list, with the ports empty (R201; log entry 13). -/
def churnFrame (d c n : Nat) (v : Dev) : Dev :=
  v.modChurn d c (fun h => { h with frameOf := some n, pos := 0, wport := [], dport := [], skip := 0, shadow := [], sumw := [], oport := [], winFrame := h.winTick })

/-- What is left of a churn's work in an abandoned frame: passes not started, output stages due or running (R55, R201). R249 does not name
output stages: the model ends them, and their banks drain no more (DESIGN CHOICE, log entry 151). -/
def dropWork (d c : Nat) (v : Dev) : Dev :=
  let h := v.churn d c
  let v := if h.running.any (fun st => st.pass.odest) then closePacket v (blockIface d c) else v
  let v := if h.running = [] then v else v.setF (CHN_STATUS d c) 0 3 0
  v.modChurn d c (fun h => { h with pos := h.list.length, due := [], running := [], passEnd := 0, eout := [], waitAt := none, waited := [] })

/-- The counters of R228. -/
def chnCounters (d c : Nat) : List Reg :=
  [CHN_PASSES_LO d c, CHN_PASSES_HI d c, CHN_VECTORS_LO d c, CHN_VECTORS_HI d c, CHN_EVENTS_LO d c, CHN_EVENTS_HI d c,
   CHN_ZERO_MASKS_LO d c, CHN_ZERO_MASKS_HI d c, CHN_ACC_SAT d c, CHN_OUT_SAT d c, CHN_PASS_ABANDON d c, CHN_EV_AXON_DROP d c,
   CHN_EMIT_WAIT d c, CHN_RESIDUE_ERR d c, CHN_MEM_CE d c, PAIL_SPIKES_LO d c, PAIL_SPIKES_HI d c, PAIL_LATE d c, PAIL_STALE d c,
   PAIL_XCOACH d c]

/-- R227, and the coach column of R460: the state, the tables and every register of the churn and its pail are cleared to zero, the
fence mark and the repair fields apart, which tell of the defect list (log entry 123). -/
def churnClear (d c : Nat) (v : Dev) : Dev :=
  let fenced := v.fb (CHN_STATUS d c) 3
  let repair := v.rdN (CHN_REPAIR d c)
  let v := clearRange (CHN_CTRL d c) 0x10000 v
  let v := ((v.setB (CHN_STATUS d c) 3 fenced).wrN (CHN_REPAIR d c) repair).wrN (CHN_MSE_WIN d c) 0
  v.modChurn d c (fun _ =>
    { Churn.init with mseOff := true, gen := (List.range 16).foldl (fun m q => SMap.set 1 m q 0) Churn.init.gen })

def execWeightBlockArrival (d : Fin 8) (c : Fin 4) (s : State) : Host.Outcome State Fault Refusal :=
  .next (s.onClk d.val 0 (fun _ => weightBlock d.val c.val))
def execPassStart (d : Fin 8) (c : Fin 4) (s : State) : Host.Outcome State Fault Refusal := .next (s.onClk d.val 0 (passStart d.val c.val))
def execOutputStageStart (d : Fin 8) (c : Fin 4) (s : State) : Host.Outcome State Fault Refusal :=
  .next (s.onClk d.val 0 (outStart d.val c.val))
def execOutputStageEnd (d : Fin 8) (c : Fin 4) (bank : Fin 2) (waited : Nat) (s : State) : Host.Outcome State Fault Refusal :=
  .next (s.onClk d.val 0 (outEnd d.val c.val bank.val waited))
def execPailClearDone (d : Fin 8) (c : Fin 4) (s : State) : Host.Outcome State Fault Refusal :=
  .next (s.onClk d.val 0 (pailCleared d.val c.val))
def execMseWindowClose (d : Fin 8) (c : Fin 4) (s : State) : Host.Outcome State Fault Refusal :=
  .next (s.onClk d.val 0 (fun _ => mseClose d.val c.val))
def execChnSeedWrite (who : Party) (d : Fin 8) (c : Fin 4) (q : Fin 16) (x : Word) (s : State) : Host.Outcome State Fault Refusal :=
  .next (s.onWrite who d.val (fun env => chnWrite env who d.val c.val (dieReg d.val (0x60100 + 0x10000 * c.val + 4 * q.val)) (seedWrite d.val c.val q.val x)))
def execChnMseWinWrite (who : Party) (d : Fin 8) (c : Fin 4) (x : Word) (s : State) : Host.Outcome State Fault Refusal :=
  .next (s.onWrite who d.val (fun env => chnWrite env who d.val c.val (CHN_MSE_WIN d.val c.val) (mseWinWrite d.val c.val x)))
def execPailCtrlEn (who : Party) (d : Fin 8) (c : Fin 4) (s : State) : Host.Outcome State Fault Refusal :=
  .next (s.onWrite who d.val (fun env => chnWrite env who d.val c.val (PAIL_CTRL d.val c.val) (pailEnable d.val c.val)))

end Sys2Proof.Machine
end

