-- ==== Sys2Proof/Machine/Ticks.lean ====
section
/-! DEFINITION. Tick generators: settings, distribution, edges, starting and stopping (R36 to R47, R56, R57, 02_ticks_and_time.md), and
the TICK_OUT pins (R66). -/
namespace Sys2Proof.Machine

open Sys2Proof

/-- The port of a coach writes for it, by a host write or through the command engine; firmware writes too (R36). -/
def mayWriteCoach (v : Dev) (g : Nat) : Party → Bool
  | .port p => v.isOpen g && (v.coach g).port == p.val
  | .engine p => v.isOpen g && (v.coach g).port == p.val
  | w => isFirmware w

def Dev.genRuns (v : Dev) (env : Env) (g : Nat) : Bool := v.fb (TG_CTRL env.master g) 0

/-- TG_TICK as a number. -/
def Dev.tgTick (v : Dev) (env : Env) (g : Nat) : Nat := v.rd64 (TG_TICK_LO env.master g) (TG_TICK_HI env.master g)

/-! ## What an internal event does at compare and capture channels (R37, R59, R63 to R65) -/

/-- The channel serves its tick generator: master die, channels 0–3, internal source, running (R37). -/
def cmpServes (env : Env) (v : Dev) (d c : Nat) : Bool :=
  d == env.master && decide (c < 4) && v.genRuns env c && !v.fb (TG_CTRL env.master c) 1

/-- The processor bound to a channel word: 1–5, else none (R63). -/
def cmpBind (w : Word) : Nat := if fld w 3 3 ≤ 5 then fld w 3 3 else 0

/-- A halted processor freezes the channel (R63). -/
def cmpFrozen (v : Dev) (d c : Nat) : Bool :=
  let w := v.rd (CMP_CTRL d c)
  bit w 2 && decide (cmpBind w ≠ 0) && v.tick.halted.contains (d * 8 + cmpBind w)

/-- HALTED follows R63, and the halt time starts or ends with it. When the halt ends the next-match value is advanced by its length: a
match that an earlier write had made late keeps LATE and comes at the first increment at which it then lies in the past. A write that makes
a halt count, or ends it, acts as the halt or the resume itself would (DESIGN CHOICE, log entry 166). -/
def cmpRefreeze (env : Env) (d c : Nat) (v : Dev) : Dev :=
  if cmpServes env v d c then v
  else if cmpFrozen v d c then
    (v.setB (CMP_CTRL d c) 19 true).modCmp d c (fun h => { h with haltAt := some (h.haltAt.getD (env.nowOf d)) })
  else
    let v := v.setB (CMP_CTRL d c) 19 false
    match (v.cmpCh d c).haltAt with
    | some t =>
      let n := (v.cmpCh d c).next + (env.nowOf d - t)
      (v.wr64 (CMP_MATCH_LO d c) (CMP_MATCH_HI d c) n).modCmp d c (fun h =>
        { h with haltAt := none, next := n, lateAt := if v.fb (CMP_CTRL d c) 0 && decide (n ≤ env.nowOf d) then some (env.nowOf d) else none })
    | none => v

/-- A time is captured on channel `k` of die `d`: FULL, OVERRUN over a value not yet read. What it replaces stays known for a read in the
same cycle (R65). -/
def capStore (env : Env) (d k time : Nat) (v : Dev) : Dev :=
  let i := d * 8 + k
  let past : CapPast := ⟨env.nowOf d, SMap.get 0 v.tick.cap i, v.fb (CAP_STATUS d k) 1⟩
  let v := if v.fb (CAP_STATUS d k) 0 then v.setB (CAP_STATUS d k) 1 true else v
  let v := (v.setB (CAP_STATUS d k) 0 true).wr (CAP_VALUE_LO d k) (w32 time)
  v.modTick (fun t => { t with cap := SMap.set 0 t.cap i time, capPast := SMap.set none t.capPast i (some past) })

/-- A read of a captured value: the value and the state after it. A read in the cycle of a capture returns the value before it, FULL
stays set, and the coincidence sets no OVERRUN; any other clears FULL (R65). -/
def capRead (env : Env) (d k : Nat) (v : Dev) : Nat × Dev :=
  match SMap.get none v.tick.capPast (d * 8 + k) with
  | some x =>
    if x.at' = env.nowOf d ∧ v.fb (CAP_STATUS d k) 0 = true then (x.value, v.setB (CAP_STATUS d k) 1 x.overrun)
    else (SMap.get 0 v.tick.cap (d * 8 + k), v.setB (CAP_STATUS d k) 0 false)
  | none => (SMap.get 0 v.tick.cap (d * 8 + k), v.setB (CAP_STATUS d k) 0 false)

/-- An internal event of source `src`, of coach or compare channel `sel`, at time `time` on die `d`: channels 4 to 7 that select it capture
it (R64). -/
def captureOn (env : Env) (d src sel time : Nat) (v : Dev) : Dev :=
  [4, 5, 6, 7].foldl (fun v k =>
    let w := v.rd (CAP_CTRL d k)
    if bit w 0 && fld w 4 4 == src && (if src = 4 then fld w 16 6 == sel else fld w 8 2 == sel) then capStore env d k time v else v) v

/-! ## TICK_OUT (R66) -/

/-- A trigger of time-base value `time` at a pulse source: every TICK_OUT pin whose TO_CTRL selects it, with a width that is not 0. -/
def pulseOut (env : Env) (sel : Word → Bool) (time : Nat) (v : Dev) : Dev :=
  (List.range 4).foldl (fun v k =>
    let w := v.rd (TO_CTRL env.master k)
    if sel w && decide (0 < fld w 16 16) then
      v.modTick (fun t => { t with pulse := SMap.set none t.pulse k (some (time + fld w 16 16)) })
    else v) v

/-- Pulses at the start of a tick (SRC 1) or the publication of an action frame (SRC 2) of coach `g`. -/
def pulseCoach (env : Env) (src g time : Nat) (v : Dev) : Dev := pulseOut env (fun w => fld w 0 3 == src && fld w 4 2 == g) time v

/-- The level of TICK_OUT pin `k`: a pulse source with WIDTH 0 drives it low (R66); latched pads hold the low level of the entry into HOLD
(R452). -/
def tickOutPin (env : Env) (v : Dev) (k : Nat) : Bool :=
  let w := v.rd (TO_CTRL env.master k)
  if v.fb (PM_PAD_RELEASE env.master) 20 then false
  else match fld w 0 3 with
  | 1 => decide (0 < fld w 16 16) && SMap.get none v.tick.pulse k != none
  | 2 => decide (0 < fld w 16 16) && SMap.get none v.tick.pulse k != none
  | 3 => decide (0 < fld w 16 16) && SMap.get none v.tick.pulse k != none
  | 4 => v.genRuns env (fld w 4 2)
  | _ => false

/-- A pulse ends WIDTH ns after its last trigger. -/
def tickOutPulseEnd (k : Nat) (env : Env) (v : Dev) : Dev :=
  match SMap.get none v.tick.pulse k with
  | some e => if e ≤ env.now then v.modTick (fun t => { t with pulse := SMap.set none t.pulse k none }) else v
  | none => v

/-- A match of compare channel `c` of die `d` at time `time`: FIRED, the bound processor's interrupt, the TICK_OUT pins and the capture
channels that select it (R59, R64, R66). -/
def cmpFire (env : Env) (d c time : Nat) (v : Dev) : Dev :=
  let w := v.rd (CMP_CTRL d c)
  let v := v.setB (CMP_CTRL d c) 16 true
  let v := if bit w 6 && decide (cmpBind w ≠ 0) then
      v.modTick (fun t => { t with irq := SMap.set 0 t.irq (d * 8 + cmpBind w) (SMap.get 0 t.irq (d * 8 + cmpBind w) + 1) })
    else v
  let v := if d = env.master then pulseOut env (fun w => fld w 0 3 == 3 && fld w 8 6 == c) time v else v
  captureOn env d 4 c time v

/-! ## Settings (R38, R45) -/

/-- The settings that the registers of generator `g` hold. -/
def genSettings (v : Dev) (m g : Nat) : TickSet :=
  { period := v.fd (TG_PERIOD m g) 0 27, close := v.fd (TG_CLOSE m g) 0 27, pail := v.fd (TG_PAIL m g) 0 27,
    action := v.fd (TG_ACTION m g) 0 27, lead := v.fd (TG_SLAVE m g) 0 16, tol := v.fd (TG_SLAVE m g) 16 8,
    stall := v.fb (TG_SLAVE m g) 24, slaved := v.fb (TG_CTRL m g) 1 }

/-- The conditions of R38. -/
def TickSet.valid (t : TickSet) : Bool :=
  decide (10000 ≤ t.period) && decide (t.period ≤ 100000000) && decide (1 ≤ t.close) && decide (t.close < t.pail)
    && decide (t.pail ≤ t.action) && decide (t.action < t.period) && decide (1000 ≤ t.lead)
    && (!t.slaved || decide (t.action * 256 < t.period * (256 - t.tol)))

/-- W of R42. -/
def TickSet.window (t : TickSet) : Nat := t.period * t.tol / 256

/-- The register that a held write names: TG_PERIOD, TG_CLOSE, TG_PAIL, TG_ACTION, TG_SLAVE. -/
def timingReg (m g : Nat) : Nat → Reg
  | 0 => TG_PERIOD m g
  | 1 => TG_CLOSE m g
  | 2 => TG_PAIL m g
  | 3 => TG_ACTION m g
  | _ => TG_SLAVE m g

/-- The bits of a timing register that exist. -/
def timingMask (k : Nat) (x : Word) : Word := if k = 4 then x &&& 0x1FFFFFF else x &&& 0x7FFFFFF

/-- Held writes take effect if they satisfy R38, else they are discarded with CFG_ERR (R45). -/
def applyPending (env : Env) (g : Nat) (v : Dev) : Dev :=
  let m := env.master
  match (v.gen g).pend with
  | [] => v
  | l =>
    let w := l.foldl (fun w e => w.wr (timingReg m g e.1) e.2) v
    let v := if (genSettings w m g).valid then w else v.setB (TG_STATUS m g) 0 true
    (v.setB (TG_STATUS m g) 6 false).modGen g (fun t => { t with pend := [] })

/-! ## Distribution (R39, R40, R101, R248) -/

/-- Restarted cores of the coach whose reset is complete learn the tick at which they rejoin (R101). -/
def setJoinAt (g n : Nat) (v : Dev) : Dev :=
  (v.coachCores g).foldl (fun v e =>
    let k := v.core e.2
    if v.enabled e.2 && !k.joined && k.joinAt == none && !v.fb (NC_STATUS e.2) 5 then
      v.modCore e.2 (fun k => { k with joinAt := some n })
    else v) v

/-- Ticks that were distributed and have not begun are dropped, and with them the tick at which a restarted core was to rejoin (R101). -/
def dropJoins (g : Nat) (v : Dev) : Dev :=
  (v.coachCores g).foldl (fun v e => if (v.core e.2).joinAt.isSome then v.modCore e.2 (fun k => { k with joinAt := none }) else v) v

/-- The number of the next tick to be distributed: one above the last, or TG_TICK before the first (R46). -/
def Dev.nextNumber (v : Dev) (env : Env) (g : Nat) : Nat :=
  let t := v.gen g
  match t.next.getLast?, t.cur with
  | some x, _ => x.n + 1
  | none, some c => c.n + 1
  | none, none => v.tgTick env g

/-- The master distributes the number and start of a further tick; held settings apply from it, its start among them (R39, R45),
and an armed swap learns its tick (R248). -/
def distribute (env : Env) (g : Nat) (start : TickSet → Nat) (free : Bool) (v : Dev) : Dev :=
  let v := applyPending env g v
  let n := v.nextNumber env g
  let set := genSettings v env.master g
  let v := v.modGen g (fun t => { t with next := t.next ++ [⟨n, start set, set, free⟩], inForce := set })
  let v := if SMap.get none v.net.armed g = some none then
      v.modNet (fun t => { t with armed := SMap.set none t.armed g (some (some n)) })
    else v
  setJoinAt g n v

/-! ## Starting and stopping (R46, R47) -/

/-- TG_START_AT as a number. -/
def Dev.startAt (v : Dev) (env : Env) (g : Nat) : Nat := v.rd64 (TG_START_AT_LO env.master g) (TG_START_AT_HI env.master g)

/-- The start of the first tick with the internal source, and whether it sets START_LATE (R46). -/
def firstStart (now at' : Nat) : Nat × Bool :=
  if at' = 0 then (now + 10000, false) else if now + 2000 ≤ at' then (at', false) else (now + 10000, true)

/-- Compare channel `g` of the master die reads the generator's state while it runs from the internal source; what the channel held is
overwritten, and no halt freezes it (R37, R58, R63). -/
def showInCompare (env : Env) (g start : Nat) (v : Dev) : Dev :=
  let m := env.master
  if v.fb (TG_CTRL m g) 1 then v else
  let v := (v.setF (CMP_CTRL m g) 0 2 3).setB (CMP_CTRL m g) 19 false
  let v := v.wr (CMP_PERIOD m g) (v.rd (TG_PERIOD m g))
  let v := v.modCmp m g (fun h => { h with next := start, buf := start % 0x100000000, lateAt := none, haltAt := none })
  v.wr64 (CMP_MATCH_LO m g) (CMP_MATCH_HI m g) start

/-- The generator is armed: with a first start unless the slaved source waits for an edge (R46, R47). -/
def armGen (env : Env) (g : Nat) (stepping : Bool) (v : Dev) : Dev :=
  let m := env.master
  let slaved := v.fb (TG_CTRL m g) 1
  let st := if stepping then (env.now + 10000, false) else firstStart env.now (v.startAt env g)
  let v := v.setB (TG_CTRL m g) 0 true
  let v := v.setF (TG_STATUS m g) 4 2 0
  let v := v.modGen g (fun t =>
    { t with next := [], cur := none, prevEdge := none, stopReq := false, stepping := stepping, inForce := genSettings v m g })
  let v := dropJoins g v
  if slaved && !stepping then v
  else
    let v := if st.2 && !slaved then v.setB (TG_STATUS m g) 1 true else v
    showInCompare env g st.1 (distribute env g (fun _ => st.1) false v)

/-- The generator stops: no further tick (R47). R45 does not say what becomes of writes that are still held then: the model checks and
applies them as at a distribution (DESIGN CHOICE, log entry 127). -/
def stopGen (env : Env) (g : Nat) (v : Dev) : Dev :=
  let m := env.master
  let v := dropJoins g (applyPending env g v)
  let v := (v.setB (TG_CTRL m g) 0 false).setF (TG_STATUS m g) 4 2 0
  let v := if v.fb (TG_CTRL m g) 1 then v else cmpRefreeze env m g (v.setB (CMP_CTRL m g) 0 false)
  v.modGen g (fun t =>
    { t with next := [], cur := none, stopReq := false, stepping := false, reactNext := 0,
             lastTick := match t.cur with
               | some c => some c.n
               | none => t.lastTick })

/-! ## Edges (R41 to R44) -/

/-- EDGE_MISS is counted, a DL record is made for tick `n` and MISS_EDGE_ACT is taken (R43). -/
def missEdge (env : Env) (g n : Nat) (v : Dev) : Dev :=
  let m := env.master
  react env g (v.fd (TG_REACT m g) 4 2) (raiseDL env g 0x12 n 1 (v.inc (TG_EDGE_MISS m g) 1))

/-- No edge by the previous accepted edge + P + W: freewheel or stall (R43). -/
def edgeMissed (env : Env) (g e : Nat) (v : Dev) : Dev :=
  let m := env.master
  let set := (v.gen g).inForce
  let v := missEdge env g (v.nextNumber env g) v
  if set.stall then v.setB (TG_STATUS m g) 4 true
  else distribute env g (fun x => e + set.period + set.window + x.lead) true (v.setB (TG_STATUS m g) 5 true)

/-- No edge was accepted by the deadline of R43, which has come, and the generator neither freewheels nor stalls. -/
def missDue (env : Env) (g : Nat) (v : Dev) : Option Nat :=
  let m := env.master
  let t := v.gen g
  if v.genRuns env g && v.fb (TG_CTRL m g) 1 && !t.stepping && !v.fb (TG_STATUS m g) 4 && !v.fb (TG_STATUS m g) 5 then
    match t.prevEdge with
    | some e => if e + t.inForce.period + t.inForce.window ≤ env.now then some e else none
    | none => none
  else none

/-- The edge is accepted: it becomes the previous accepted edge and a start is distributed, LEAD after the edge and not before
`least` + LEAD (R41, R44). -/
def acceptEdge (env : Env) (g least : Nat) (v : Dev) : Dev :=
  distribute env g (fun x => max env.now least + x.lead) false (v.modGen g (fun t => { t with prevEdge := some env.now }))

/-- The action instant of the tick before the one that an edge starts: the last one distributed by an edge, or the current one. -/
def lastAction (t : TickGen) : Nat :=
  match t.next.getLast?, t.cur with
  | some x, _ => x.start + x.set.action
  | none, some c => c.start + c.set.action
  | none, none => 0

/-- An edge taken by a slaved generator (R41, R42, R44): one that comes after the deadline of R43 finds its predecessor missing. An edge
that ends a freewheel or stall replaces the freewheel ticks not yet started; ticks that earlier edges started keep their starts, and the
new one comes after the action instant of the last of them (log entry 128). -/
def takeEdge (env : Env) (g : Nat) (v : Dev) : Dev :=
  let m := env.master
  let now := env.now
  let v := match missDue env g v with
    | some e => if e + (v.gen g).inForce.period + (v.gen g).inForce.window < now then edgeMissed env g e v else v
    | none => v
  if v.fb (TG_STATUS m g) 4 || v.fb (TG_STATUS m g) 5 then
    let v := (v.setF (TG_STATUS m g) 4 2 0).modGen g (fun t => { t with next := t.next.filter (fun x => !x.free) })
    acceptEdge env g (lastAction (v.gen g)) v
  else
    let t := v.gen g
    match t.prevEdge with
    | none => acceptEdge env g 0 v
    | some e =>
      if now - e < t.inForce.period - t.inForce.window then
        raiseDL env g 0x12 (v.nextNumber env g) 0 (v.inc (TG_EDGE_EARLY m g) 1)
      else acceptEdge env g 0 v

/-- The edges that CAP_CTRL.EDGE selects: 0 rising, 1 falling, 2 both (R41). -/
def edgeTaken (sel : Nat) (rising : Bool) : Bool := sel == 2 || (sel == 0 && rising) || (sel == 1 && !rising)

/-- An edge on TICK_IN `pin`, after a pulse of `width` ns, at every running generator slaved to that pin (R41, R64). A latched
input is ignored (R452). -/
def tickInEdge (pin : Nat) (rising : Bool) (width : Nat) (env : Env) (v : Dev) : Dev :=
  let m := env.master
  let cap := CAP_CTRL m pin
  if edgeTaken (v.fd cap 1 2) rising && decide (v.fd cap 12 4 * 4 ≤ width) && !v.fb (PM_PAD_RELEASE m) 20 then
    (List.range 4).foldl (fun v g =>
      if v.genRuns env g && v.fb (TG_CTRL m g) 1 && v.fd (TG_CTRL m g) 2 2 == pin && !(v.gen g).stepping then
        takeEdge env g v
      else v) v
  else v

/-- The next freewheel tick is due for distribution: LEAD before its start, an interval P after the previous one (R43). What it counts
and takes, it counts and takes at its start. -/
def freewheelTick (g : Nat) (env : Env) (v : Dev) : Dev :=
  let m := env.master
  let t := v.gen g
  if v.genRuns env g && v.fb (TG_STATUS m g) 5 && !t.stopReq then
    match (t.next.getLast?.map (fun n => n.start)).orElse (fun _ => t.cur.map (fun c => c.start)) with
    | some s0 =>
      if s0 + t.inForce.period ≤ env.now + t.inForce.lead then
        distribute env g (fun _ => s0 + t.inForce.period) true v
      else v
    | none => v
  else v

/-! ## Writes (R45, R56, R57) -/

/-- The write reaches a generator's registers, or is dropped with an SE record (R36). -/
def tgWrite (env : Env) (who : Party) (g : Nat) (r : Reg) (f : Dev → Dev) (v : Dev) : Dev :=
  if mayWriteCoach v g who then f v else raiseSE env env.master (v.coachOrDevice g) who (regAddr v r) v

/-- A write to a timing register: held while the generator runs (R45). -/
def tgTimingWrite (who : Party) (g k : Nat) (x : Word) (env : Env) (v : Dev) : Dev :=
  let m := env.master
  tgWrite env who g (timingReg m g k) (fun v =>
    if v.genRuns env g then
      (v.setB (TG_STATUS m g) 6 true).modGen g (fun t => { t with pend := t.pend ++ [(k, timingMask k x)] })
    else v.wr (timingReg m g k) (timingMask k x)) v

/-- CLEAR_SAFE ends HOLD_SAFE; SAFE stays until a frame is then published on time (R56, R281; log entry 14). -/
def clearSafe (m g : Nat) (v : Dev) : Dev := v.setB (TG_STATUS m g) 3 false

/-- The counters of R57. -/
def tgCounters (m g : Nat) : List Reg :=
  [TG_LATE_LO m g, TG_LATE_HI m g, TG_STALE_LO m g, TG_STALE_HI m g, TG_LATE_SPIKES m g, TG_OVR_TICKS m g, TG_FRAME_MISS m g,
   TG_TT_ABANDON m g, TG_EDGE_EARLY m g, TG_EDGE_MISS m g]

/-! ## The commands -/

def execTickInEdge (pin : Fin 4) (rising : Bool) (width : Nat) (s : State) : Host.Outcome State Fault Refusal :=
  .next (s.onDev (tickInEdge pin.val rising width))

/-- EDGE_MISS: only when the edge is missing (R43). -/
def execEdgeMiss (g : Fin 4) (s : State) : Host.Outcome State Fault Refusal :=
  .next (s.onDev (fun env v => match missDue env g.val v with
    | some e => edgeMissed env g.val e v
    | none => v))

def execFreewheelTick (g : Fin 4) (s : State) : Host.Outcome State Fault Refusal := .next (s.onDev (freewheelTick g.val))

def execTickOutPulseEnd (k : Fin 4) (s : State) : Host.Outcome State Fault Refusal := .next (s.onDev (tickOutPulseEnd k.val))

def execTgTimingWrite (who : Party) (g : Fin 4) (k : Fin 5) (x : Word) (s : State) : Host.Outcome State Fault Refusal :=
  .next (s.onWrite who s.env.master (tgTimingWrite who g.val k.val x))

def execTgCtrlClearSafe (who : Party) (g : Fin 4) (s : State) : Host.Outcome State Fault Refusal :=
  .next (s.onWrite who s.env.master (fun env => tgWrite env who g.val (TG_CTRL env.master g.val) (clearSafe env.master g.val)))

def execTgCtrlClrCnt (who : Party) (g : Fin 4) (s : State) : Host.Outcome State Fault Refusal :=
  .next (s.onWrite who s.env.master (fun env => tgWrite env who g.val (TG_CTRL env.master g.val) (fun v => v.clearRegs (tgCounters env.master g.val))))

end Sys2Proof.Machine
end

