-- ==== Sys2Proof/Machine/Separator.lean ====
section
/-! DEFINITION. Separators: encoding, decoding and their enable check, and the records of the pail bus (R262 to R276, R285 to R289,
09_separators.md). Frame units stand in Frame.lean. -/
namespace Sys2Proof.Machine

open Sys2Proof

/-! ## Settings -/

/-- Only the command engine for the owning coach, firmware and the debug port write separators and their tables (R289). -/
def spWrite (env : Env) (who : Party) (d k : Nat) (r : Reg) (f : Dev → Dev) (v : Dev) : Dev :=
  let o := v.sepOwner d k
  let ok := match who with
    | .port _ => false
    | .engine q => decide (o < 4) && (v.coach o).port == q.val
    | _ => true
  blockGate env who d o ok (v.fb (SEC_BLOCK1 d) k) r f v

def spOn (v : Dev) (d k : Nat) : Bool := decide (v.sepOwner d k < 4) && v.fb (SP_CTRL d k) 0 && !v.blockFenced (mBlock d 2 k)
def spDecode (v : Dev) (d k : Nat) : Bool := v.fb (SP_CTRL d k) 1
def spIfmt (v : Dev) (d k : Nat) : Nat := v.fd (SP_CTRL d k) 2 2
def spLane (v : Dev) (d k : Nat) : Bool := v.fb (SP_CTRL d k) 4
def spNch (v : Dev) (d k : Nat) : Nat := v.fd (SP_SHAPE d k) 0 7 + 1
def spElems (v : Dev) (d k : Nat) : Nat := v.fd (SP_SHAPE d k) 8 15

/-- Elements of a word by format (R265). -/
def perWord : Nat → Nat
  | 0 => 128
  | 1 => 64
  | _ => 32

/-- Output elements of a word. -/
def outPerWord (v : Dev) (d k : Nat) : Nat := if v.fb (SP_CTRL d k) 5 then 64 else 128

/-- A channel's settings. -/
structure Chan where
  mode : Nat
  pay : Bool
  param : Nat
  sh : Nat
  evDelay : Nat
  zp : Int
  gain : Nat
  dthr : Nat
  axon : Nat
  safeVal : Nat
  deriving DecidableEq, Repr

def Dev.chan (v : Dev) (d k c : Nat) : Chan :=
  let a := v.rd (SP_CHAN d k (4 * c))
  let b := v.rd (SP_CHAN d k (4 * c + 1))
  let e := v.rd (SP_CHAN d k (4 * c + 2))
  { mode := fld a 0 3, pay := bit a 3, param := fld a 4 4, sh := fld a 8 4, evDelay := fld a 12 4, zp := toSigned 16 (fld a 16 16),
    gain := fld b 0 16, dthr := fld b 16 16, axon := fld e 0 16, safeVal := fld e 16 16 }

/-- The channel of an element (R263). -/
def Dev.elemChan (v : Dev) (d k i : Nat) : Chan := v.chan d k (i % spNch v d k)

/-- Gather entries of a separator that are valid. -/
def spEntries (v : Dev) (d k : Nat) : List Nat := ((List.range 512).map (entry8 v (SP_GATHER d k))).filter geValid
def sgElem (w : Nat) : Nat := fldN w 38 14
def sgKind (w : Nat) : Bool := fldN w 52 1 == 1

/-! ## The enable check (R285) -/

/-- A channel's settings suit the separator's direction, input and format. -/
def chanValid (v : Dev) (d k : Nat) (c : Chan) : Bool :=
  let dec := spDecode v d k
  let u8 := if dec then !v.fb (SP_CTRL d k) 5 else spIfmt v d k == 0
  (dec == decide (4 ≤ c.mode))
    && (!(dec && spLane v d k) || c.mode == 5 || c.mode == 6)
    && (!u8 || (decide (0 ≤ c.zp) && decide (c.zp ≤ 255)))
    && (match c.mode with
      | 0 => !c.pay || decide (c.param ≤ 8)
      | 1 => !c.pay
      | 2 => decide (c.param ≤ 4) && decide (c.evDelay + 2 ^ c.param - 1 ≤ 15)
      | 3 => decide (1 ≤ c.dthr) && decide (c.axon ≤ 65534)
      | _ => true)

/-- A gather entry's neurons lie in a core and its elements in the separator, of the entry's kind. -/
def sgValid (v : Dev) (d k : Nat) (entries : List Nat) (w : Nat) : Bool :=
  decide (geBase w + geCount w ≤ 1023) && decide (sgElem w + geCount w < spElems v d k)
    && (List.range (geCount w + 1)).all (fun i => sgKind w == ((v.elemChan d k (sgElem w + i)).mode == 6))
    && decide ((entries.filter (fun x => geCore x == geCore w)).length ≤ 4)

def spOk (v : Dev) (d k : Nat) : Bool :=
  let n := spElems v d k
  let nch := spNch v d k
  let entries := spEntries v d k
  decide (spIfmt v d k ≤ 2) && decide (1 ≤ n) && decide (n ≤ 16384) && decide ((n + nch - 1) / nch ≤ 1024)
    && (decide (spIfmt v d k ≠ 2) || (spDecode v d k && spLane v d k))
    && (List.range nch).all (fun c => chanValid v d k (v.chan d k c)) && entries.all (sgValid v d k entries)

/-- The counters of R288 at a separator. -/
def spCounters (d k : Nat) : List Reg :=
  [SP_ELEMS_LO d k, SP_ELEMS_HI d k, SP_EVENTS_LO d k, SP_EVENTS_HI d k, SP_MISSING d k, SP_DUP d k, SP_BAD_WORD d k, SP_IN_SAT d k,
   SP_OUT_SAT d k, SP_ELEM_SAFE d k, SP_REC_LATE d k, SP_REC_STALE d k, SP_XCOACH d k, SP_EMIT_WAIT d k, SP_MEM_CE d k]

/-- A write to SP_CTRL (R285, R286). Disabled, the separator emits nothing more: the input words and events that it held are lost (R264). -/
def spCtrlWrite (env : Env) (d k : Nat) (x : Word) (v : Dev) : Dev :=
  let r := SP_CTRL d k
  let v := if bit x 7 then v.clearRegs (spCounters d k) else v
  if v.fb r 0 then
    let v := if v.fd r 1 6 ≠ fld x 1 6 then raiseConfig env d (v.sepOwner d k) (mBlock d 2 k) r v else v
    let v := if bit x 0 then v else v.modSep d k (fun s => { s with inq := [], eout := [], waitAt := none, waited := 0, closeDue := false })
    v.setB r 0 (bit x 0)
  else
    let v := v.setF r 1 6 (fld x 1 6)
    if !bit x 0 then v
    else if spOk v d k then
      (v.setB r 0 true).modSep d k (fun s => { Sep.init with gen := s.gen, collTick := s.collTick, handed := s.handed, tick := s.tick })
    else raiseConfig env d (v.sepOwner d k) (mBlock d 2 k) r (v.setB (SP_STATUS d k) 0 true)

/-- SP_SEED written (R271). -/
def spSeedWrite (d k : Nat) (x : Word) (v : Dev) : Dev :=
  if x = 0 then v.setB (SP_STATUS d k) 1 true else v.modSep d k (fun s => { s with gen := x.toNat })

/-! ## Encoding (R268 to R271) -/

/-- The rounding term of R268. -/
def roundTerm (sh : Nat) : Int := if sh = 0 then 0 else ((2 ^ (sh - 1) : Nat) : Int)

/-- An event of an element: on which axon, payload and extra delay. -/
structure ElemEvent where
  axon : Nat
  payload : Nat
  extra : Nat
  deriving DecidableEq, Repr

/-- The normalised value before its clamp (R268). -/
def normalise (c : Chan) (x : Int) : Int := asr ((x - c.zp) * c.gain + roundTerm c.sh) c.sh

/-- One element of tick `n` with state `st`, normalised value `u` and draw `x` (R269): its new state and its event. -/
def encodeElem (c : Chan) (n : Nat) (st u : Int) (x : Nat) : Int × Option ElemEvent :=
  let up := max u 0
  match c.mode with
  | 0 =>
    if c.pay then
      let s := min 131071 (st + up)
      let k := min 255 (asr s (7 + c.param)).toNat
      if 1 ≤ k then (s - ((k * 2 ^ (7 + c.param) : Nat) : Int), some ⟨c.axon, k, 0⟩) else (s, none)
    else if 32768 ≤ st + up then (st + up - 32768, some ⟨c.axon, 1, 0⟩) else (st + up, none)
  | 1 => (st, if ((x % 32768 : Nat) : Int) < up then some ⟨c.axon, 1, 0⟩ else none)
  | 2 =>
    if n % 2 ^ c.param = 0 ∧ 1 ≤ up then
      (st, some ⟨c.axon, if c.pay then (max 1 (asr up 7)).toNat else 1, ((32767 - up).toNat * 2 ^ c.param) / 32768⟩)
    else (st, none)
  | _ =>
    let e := u - st
    if c.pay then
      let k := min 255 (e.natAbs / c.dthr)
      if 1 ≤ k then
        if 0 < e then (st + ((k * c.dthr : Nat) : Int), some ⟨c.axon, k, 0⟩) else (st - ((k * c.dthr : Nat) : Int), some ⟨c.axon + 1, k, 0⟩)
      else (st, none)
    else if (c.dthr : Int) ≤ e then (st + c.dthr, some ⟨c.axon, 1, 0⟩)
    else if e ≤ -(c.dthr : Int) then (st - c.dthr, some ⟨c.axon + 1, 1, 0⟩)
    else (st, none)

/-- The event leaves by the emission entry of the element's instance, once the interface takes it (R267, R270). -/
def emitElem (d k n i : Nat) (c : Chan) (e : ElemEvent) (v : Dev) : Dev :=
  let w := v.rdN (SP_EMIT d k (i / spNch v d k))
  if emValid w && !emBad w then
    let delta := c.evDelay + e.extra
    (v.inc64 (SP_EVENTS_LO d k) (SP_EVENTS_HI d k) 1).modSep d k (fun s =>
      { s with
        eout := s.eout ++ [{ dkind := emKind w, dest := emDest w, axon := e.axon, payload := e.payload, delay := delta, tag := (n + 1 + delta) % 256 }] })
  else v

/-- A bad emission entry that an element meets is reported once in a frame (R270). -/
def reportBadEmit (env : Env) (d k i : Nat) (v : Dev) : Dev :=
  let r := SP_EMIT d k (i / spNch v d k)
  if emBad (v.rdN r) && !(v.sep d k).ifRec then
    (raiseConfig env d (v.sepOwner d k) (mBlock d 2 k) r v).modSep d k (fun s => { s with ifRec := true })
  else v

/-- An encode element takes its value (R268 to R271). -/
def encodeTake (env : Env) (d k n i : Nat) (x : Int) (v : Dev) : Dev :=
  let c := v.elemChan d k i
  let u := normalise c x
  let v := if clampI (-32768) 32767 u = u then v else v.inc (SP_IN_SAT d k) 1
  let s := v.sep d k
  let draw := if c.mode = 1 then xorshift32 s.gen else s.gen
  let r := encodeElem c n (SMap.get 0 s.st i) (clampI (-32768) 32767 u) draw
  let v := v.modSep d k (fun s => { s with gen := draw, st := SMap.set 0 s.st i r.1 })
  let v := reportBadEmit env d k i v
  match r.2 with
  | some e => emitElem d k n i c e v
  | none => v

/-! ## Decoding (R273, R274, R276) -/

/-- State and raw value of a decode element of tick `n` (R273): `x` the sum of payloads or the lane value, `memb` the latest membrane. -/
def decodeRaw (c : Chan) (n : Nat) (st held x : Int) (memb : Option Int) : Int × Int :=
  let w := 2 ^ c.param
  match c.mode with
  | 4 =>
    let s := min 16777215 (st + x)
    if n % w = w - 1 then (0, s) else (s, held)
  | 5 =>
    let a := clampI (-140737488355328) 140737488355327 (st - asr st c.param + x)
    (a, asr a c.param)
  | 6 => (st, memb.getD held)
  | _ =>
    let f := if st = 0 ∧ 1 ≤ x then ((w - n % w : Nat) : Int) else st
    if n % w = w - 1 then (0, f) else (f, held)

/-- The output before its clamp (R274). -/
def outputOf (c : Chan) (r : Int) : Int := asr (r * c.gain + roundTerm c.sh) c.sh + c.zp

/-- A decode element in doubt keeps its state and outputs SAFE_VAL (R276). -/
def elemDoubt (d k i : Nat) (v : Dev) : Dev :=
  let c := v.elemChan d k i
  (v.inc (SP_ELEM_SAFE d k) 1).modSep d k (fun s => { s with out := SMap.set 0 s.out i c.safeVal, doubt := i :: s.doubt })

/-- A decode element computes its output (R273, R274). -/
def decodeTake (d k n i : Nat) (x : Int) (memb : Option Int) (v : Dev) : Dev :=
  let c := v.elemChan d k i
  let s := v.sep d k
  let r := decodeRaw c n (SMap.get 0 s.st i) (SMap.get 0 s.held i) x memb
  let lim := if v.fb (SP_CTRL d k) 5 then outRange 2 else outRange 0
  let y := outputOf c r.2
  let v := if clampI lim.1 lim.2 y = y then v else v.inc (SP_OUT_SAT d k) 1
  v.modSep d k (fun s =>
    { s with st := SMap.set 0 s.st i r.1, held := SMap.set 0 s.held i r.2, out := SMap.set 0 s.out i (ofSigned 16 (clampI lim.1 lim.2 y)) })

/-! ## Input words (R265 to R267) -/

/-- Element `i` of input word `j`, with its value, for every element of the word below NELEM. -/
def wordElems (v : Dev) (d k j data : Nat) : List (Nat × Int) :=
  let e := perWord (spIfmt v d k)
  let n := 1024 / e
  ((List.range e).filter (fun t => j * e + t < spElems v d k)).map (fun t =>
    (j * e + t, if spIfmt v d k = 0 then (fldN data (n * t) n : Int) else toSigned n (fldN data (n * t) n)))

/-- A delivered word is converted: every element it delivers first in its frame is taken (R266). -/
def spConvert (env : Env) (d k n j : Nat) (w : TWord) (v : Dev) : Dev :=
  if !w.valid then v
  else
    let s := v.sep d k
    let l := wordElems v d k j w.data
    let fresh := if n = s.tick then l.filter (fun e => !s.taken.contains e.1) else l
    let v := if fresh.length < l.length then v.inc (SP_DUP d k) 1 else v
    fresh.foldl (fun v e =>
      let v := (v.inc64 (SP_ELEMS_LO d k) (SP_ELEMS_HI d k) 1).modSep d k (fun s =>
        if n = s.tick then { s with taken := e.1 :: s.taken } else s)
      if spDecode v d k then decodeTake d k n e.1 e.2 (some e.2) v else encodeTake env d k n e.1 e.2 v) v

/-- SPI_WORD: the oldest word is converted, once the interface has taken the events of the word before, for which the separator waited `waited`
CHK cycles in all (R267). The last event packet closes when the last element has been converted (R135). -/
def spiWord (d k waited : Nat) (env : Env) (v : Dev) : Dev :=
  let v := sepEmission env d k v
  match (v.sep d k).inq with
  | [] => v
  | (n, j, w) :: rest =>
    if (v.sep d k).eout ≠ [] ∨ (v.sep d k).waited ≠ waited then v
    else
      let v := v.modSep d k (fun s => { s with inq := rest, waited := 0 })
      if !spOn v d k then v
      else
        let v := sepEmission env d k (spConvert env d k n j w v)
        let s := v.sep d k
        if !spDecode v d k && (s.taken.length == spElems v d k || (s.inq == [] && v.frame (v.sepOwner d k) == none)) then sepClose d k v
        else v

/-- The separator ends, as a word of frame slot `slot` is delivered to it (R264 to R267). `none` says the word was discarded because
the separator held 64 words. -/
def spiDeliver (d k tick slot j : Nat) (w : TWord) (v : Dev) : Option Dev :=
  if !spOn v d k then some v
  else if spDecode v d k && !spLane v d k then some (v.inc (SP_BAD_WORD d k) 1)
  else
    let v := v.modSep d k (fun s => { s with arrived := SMap.set 0 s.arrived j (slot + 1) })
    if !spDecode v d k && decide (64 ≤ (v.sep d k).inq.length) then none
    else some (v.modSep d k (fun s => { s with inq := s.inq ++ [(tick, j, w)] }))

/-! ## Output words (R265, R275, R276) -/

/-- Input words that feed output word `j`. -/
def feeding (v : Dev) (d k j : Nat) : List Nat :=
  let e := perWord (spIfmt v d k)
  let lo := j * outPerWord v d k
  let hi := min (lo + outPerWord v d k) (spElems v d k)
  ((List.range 1024).filter (fun i => decide (i * e < hi) && decide (lo < i * e + e)))

/-- The coach's active die table delivers input word `i` to the separator. -/
def spFed (v : Dev) (d k i : Nat) : Bool := match v.table d (v.sepOwner d k) with
  | some t => t.entries.any (fun e => decide (24 ≤ e.snk) && decide (e.snk < 28) &&
      (List.range (e.lastRound + 1 - e.firstRound)).any (fun r => (List.range (e.lenM1 + 1)).any (fun w =>
        snkAddrOf e (e.firstRound + r) w == i * 16 + k)))
  | none => false

/-- Output word `j` is ready for a read at frame slot `at'` (R275): an input word that no entry delivers holds nothing up, and its elements
are missing (R266, R276). -/
def spReady (v : Dev) (d k j at' : Nat) : Bool :=
  if spLane v d k then
    (feeding v d k j).all (fun i =>
      let a := SMap.get 0 (v.sep d k).arrived i
      if a = 0 then !spFed v d k i else decide (a - 1 + 8 ≤ at'))
      && !((v.sep d k).inq.any (fun e => (feeding v d k j).contains e.2.1))
  else (v.sep d k).computed == some (v.sep d k).tick && decide (8 + j ≤ at')

/-- An SPO read: the word, and whether it is valid. -/
def spoRead (d k j at' : Nat) (v : Dev) : (Nat × Bool) × Dev :=
  if !spOn v d k then ((0, false), v)
  else if !spDecode v d k || !spReady v d k j at' then ((0, false), v.inc (SP_BAD_WORD d k) 1)
  else
    let e := outPerWord v d k
    let n := 1024 / e
    let s := v.sep d k
    let idx := (List.range e).map (fun t => j * e + t)
    let here := idx.filter (fun i => i < spElems v d k)
    let bad (i : Nat) : Bool := s.doubt.contains i || (spLane v d k && !s.taken.contains i)
    let value (i : Nat) : Nat :=
      if spElems v d k ≤ i then 0
      else if bad i then (v.elemChan d k i).safeVal % 2 ^ n
      else SMap.get 0 s.out i % 2 ^ n
    let data := (idx.map (fun i => value i * 2 ^ (n * (i - j * e)))).foldl (· + ·) 0
    ((data, !(v.fb (SP_CTRL d k) 6 && here.any bad)), v)

/-! ## Ticks and frames -/

/-- Key of a collecting tick's input. -/
def spParity (n i : Nat) : Nat := n % 2 * 0x100000 + i

/-- An entry that maps to the element names a core that is fenced, in reset or absent (R276). -/
def elemInDoubt (env : Env) (v : Dev) (d : Nat) (entries : List Nat) (i : Nat) : Bool :=
  (entries.filter (fun w => decide (sgElem w ≤ i) && decide (i ≤ sgElem w + geCount w))).any (fun w =>
    match v.placedOn env (geCore w) with
    | some p => pDie p != d || v.isFenced p || v.fb (NC_STATUS p) 5
    | none => true)

/-- The pail instant at a separator: the collecting tick is closed, and with pail-bus input every element is computed (R272, R275). -/
def spPailInstant (env : Env) (d k n : Nat) (v : Dev) : Dev :=
  let v :=
    if spOn v d k && spDecode v d k && !spLane v d k then
      let entries := spEntries v d k
      let v := v.modSep d k (fun s => { s with doubt := [], computed := some n })
      (List.range (spElems v d k)).foldl (fun v i =>
        if elemInDoubt env v d entries i then elemDoubt d k i v
        else
          let s := v.sep d k
          decodeTake d k n i ((SMap.get 0 s.spikes (spParity n i) : Nat) : Int) (SMap.get none s.membr (spParity n i)) v) v
    else v
  v.modSep d k (fun s =>
    { s with
      collTick := n + 1, handed := some n, spikes := s.spikes.filter (fun e => e.1 / 0x100000 ≠ n % 2),
      membr := s.membr.filter (fun e => e.1 / 0x100000 ≠ n % 2) })

/-- Words still held when the next frame starts are converted then, by a separator that is enabled and owned (R264). -/
def spDrain (env : Env) (d k : Nat) (v : Dev) : Dev :=
  let l := (v.sep d k).inq
  let w := v.modSep d k (fun s => { s with inq := [] })
  if spOn v d k then sepEmission env d k (l.foldl (fun v e => spConvert env d k e.1 e.2.1 e.2.2 v) w) else w

/-- The coach's frame ends: elements that no valid word delivered are missing (R266, R276). -/
def spFrameEnd (d k : Nat) (v : Dev) : Dev :=
  if spOn v d k && (!spDecode v d k || spLane v d k) then
    let s := v.sep d k
    let waiting := (s.inq.map (fun e => if e.2.2.valid then (wordElems v d k e.2.1 e.2.2.data).map (·.1) else [])).flatten
    let missing := (List.range (spElems v d k)).filter (fun i => !s.taken.contains i && !waiting.contains i)
    let v := v.inc (SP_MISSING d k) missing.length
    let v := if spDecode v d k then v.inc (SP_ELEM_SAFE d k) missing.length else v
    if s.inq = [] ∧ ¬ spDecode v d k then sepClose d k v else v
  else v

/-- The frame of tick `n` starts at a separator of the coach (R266). -/
def spFrameStart (env : Env) (d k n : Nat) (v : Dev) : Dev :=
  let held := (v.sep d k).inq != []
  let v := spDrain env d k v
  let v := if held && !spDecode v d k then sepClose d k v else v
  v.modSep d k (fun s => { s with tick := n, taken := [], arrived := [], ifRec := false })

/-- R287, and the coach column of R460: the state memory, the tables and every register of a separator are cleared to zero
(log entry 123). -/
def spClear (d k : Nat) (v : Dev) : Dev :=
  (clearRange (SP_CTRL d k) 0x4000 v).modSep d k (fun _ => { Sep.init with gen := 0 })

/-! ## Records of the pail bus (R212, R272) -/

/-- What one separator does with a record on its die's pail bus. -/
def spTake (env : Env) (d k : Nat) (r : SpikeRec) (v : Dev) : Dev :=
  let g := v.sepOwner d k
  let s := v.sep d k
  if !spOn v d k || !spDecode v d k || spLane v d k then v
  else if r.coach ≠ g then
    let v := v.inc (SP_XCOACH d k) 1
    if s.seRec then v
    else (raiseSpikeSE env d g (mBlock d 2 k) r.coach v).modSep d k (fun s => { s with seRec := true })
  else if (v.placedOn env r.core).map pDie ≠ some d then v
  else
    let m := (spEntries v d k).filter (fun w => geCore w == r.core && decide (geBase w ≤ r.neuron)
      && decide (r.neuron ≤ geBase w + geCount w) && sgKind w == (r.membrane != none))
    if m = [] then v
    else
      let now := decide (r.tag = s.collTick % 256)
      if now || decide (s.handed.map (· % 256) = some r.tag) then
        let v := if now then v
          else
            let v := v.inc (SP_REC_LATE d k) 1
            if r.membrane = none then v.inc (TG_LATE_SPIKES env.master g) 1 else v
        m.foldl (fun v w =>
          let key := spParity s.collTick (sgElem w + (r.neuron - geBase w))
          v.modSep d k (fun s => match r.membrane with
            | some x => { s with membr := SMap.set none s.membr key (some x) }
            | none => { s with spikes := SMap.set 0 s.spikes key (SMap.get 0 s.spikes key + r.payload) })) v
      else v.inc (SP_REC_STALE d k) 1

/-- PAIL_RECORD: the oldest record on the pail bus of die `d` reaches every pail and separator of the die; a full buffer of a pail
whose image is being cleared holds the bus back. The place that it leaves in its tile's hub is taken at once by a record that waits (R212,
R214, R272). -/
def pailRecord (d : Nat) (env : Env) (v : Dev) : Dev :=
  match v.bus.find? (fun r => r.die == d) with
  | none => v
  | some r =>
    if (List.range 4).any (fun c => pailFull v d c) then v
    else
      let v := { v with bus := v.bus.erase r }
      let v := (List.range 4).foldl (fun v c => pailTake env d c r v) v
      hubFreed (r.src / 33) ((List.range 16).foldl (fun v k => spTake env d k r v) v)

def execPailRecord (d : Fin 8) (s : State) : Host.Outcome State Fault Refusal := .next (s.onClk d.val 0 (pailRecord d.val))
def execSpiWord (d : Fin 8) (k : Fin 16) (waited : Nat) (s : State) : Host.Outcome State Fault Refusal :=
  .next (s.onClk d.val 0 (spiWord d.val k.val waited))
/-- SP_CTRL_EN: EN is written 1 with the other fields as they stand. -/
def execSpCtrlEn (who : Party) (d : Fin 8) (k : Fin 16) (s : State) : Host.Outcome State Fault Refusal :=
  .next (s.onWrite who d.val (fun env => spWrite env who d.val k.val (SP_CTRL d.val k.val)
    (fun v => spCtrlWrite env d.val k.val (setBit (v.rd (SP_CTRL d.val k.val)) 0 true) v)))
def execSpSeedWrite (who : Party) (d : Fin 8) (k : Fin 16) (x : Word) (s : State) : Host.Outcome State Fault Refusal :=
  .next (s.onWrite who d.val (fun env => spWrite env who d.val k.val (SP_SEED d.val k.val) (spSeedWrite d.val k.val x)))

end Sys2Proof.Machine
end

