-- ==== Sys2Proof/Machine/Frame.lean ====
section
/-! DEFINITION. Frame units: the observation and action rings, publication, substitution, the action deadline and SAFE_N (R54, R277 to R286,
09_separators.md). -/
namespace Sys2Proof.Machine

open Sys2Proof

/-! ## Settings (R277, R285, R286) -/

/-- Only the command engine for the coach that holds the unit, firmware and the debug port write a frame unit (R289). -/
def frWrite (env : Env) (who : Party) (p : Nat) (r : Reg) (f : Dev → Dev) (v : Dev) : Dev :=
  let ok := match who with
    | .port _ => false
    | .engine q => match (v.fu p).holder with
      | some g => (v.coach g).port == q.val
      | none => false
    | _ => true
  let o := (v.fu p).holder.getD 4
  blockGate env who (portDie p) o ok (v.fb (SEC_BLOCK0 (portDie p)) (8 + portUnit p)) r f v

def frCtrl (p : Nat) : Reg := FR_CTRL (portDie p) (portUnit p)
def frStatus (p : Nat) : Reg := FR_STATUS (portDie p) (portUnit p)
def frOn (v : Dev) (p : Nat) : Bool := v.fb (frCtrl p) 0 && (v.fu p).holder != none
def frObsBase (v : Dev) (p : Nat) : Nat := v.rdN (FR_OBS_BASE (portDie p) (portUnit p))
def frObsSize (v : Dev) (p : Nat) : Nat := v.rdN (FR_OBS_SIZE (portDie p) (portUnit p))
def frActBase (v : Dev) (p : Nat) : Nat := v.rdN (FR_ACT_BASE (portDie p) (portUnit p))
def frActSize (v : Dev) (p : Nat) : Nat := v.rdN (FR_ACT_SIZE (portDie p) (portUnit p))
def frSafeBase (v : Dev) (p : Nat) : Nat := v.rdN (FR_SAFE_BASE (portDie p) (portUnit p))
/-- Slots of the rings. -/
def frObsSlots (v : Dev) (p : Nat) : Nat := 2 ^ v.fd (frCtrl p) 4 2
def frActSlots (v : Dev) (p : Nat) : Nat := 2 ^ v.fd (frCtrl p) 6 2

/-- The unit whose coach is `g`, if it holds one. -/
def unitOf (v : Dev) (g : Nat) : Option Nat := (List.range 4).find? (fun p => (v.fu p).holder == some g)

/-- The check of R285. -/
def frOk (v : Dev) (p : Nat) : Bool :=
  let obs := (frObsBase v p, frObsSlots v p * frObsSize v p)
  let act := (frActBase v p, frActSlots v p * frActSize v p)
  let safe := (frSafeBase v p, frActSize v p)
  let inside (r : Nat × Nat) : Bool := decide (r.1 + r.2 ≤ 262144)
  decide (2 ≤ frObsSize v p) && decide (frObsSize v p ≤ 262143) && decide (2 ≤ frActSize v p) && decide (frActSize v p ≤ 262143)
    && inside obs && inside act && inside safe && !overlaps obs act && !overlaps obs safe && !overlaps act safe
    && !(v.fb (frCtrl p) 1 && decide (frActSlots v p = 1))
    && (match (v.fu p).holder with
      | some g => v.fd (frCtrl p) 8 12 / 1024 == g
      | none => false)

/-- The counters of R288 at a frame unit. -/
def frCounters (d u : Nat) : List Reg := [FR_PUB d u, FR_SUB_SAFE d u, FR_SUB_STALE d u, FR_OBS_LATE d u, FR_DROP_WR d u]

/-- A write to FR_CTRL (R285, R286). A unit that is enabled after the pail instant of a tick works on that tick's frame (R281, R283). -/
def frCtrlWrite (env : Env) (p : Nat) (x : Word) (v : Dev) : Dev :=
  let r := frCtrl p
  let v := if bit x 20 then v.clearRegs (frCounters (portDie p) (portUnit p)) else v
  let owner := (v.fu p).holder.getD 4
  let master := mBlock (portDie p) 3 (portUnit p)
  if v.fb r 0 then
    let v := if v.fd r 1 19 ≠ fld x 1 19 then raiseConfig env (portDie p) owner master r v else v
    v.setB r 0 (bit x 0)
  else
    let v := v.setF r 1 19 (fld x 1 19)
    if !bit x 0 then v
    else if frOk v p then v.setB r 0 true
    else raiseConfig env (portDie p) owner master r (v.setB (frStatus p) 0 true)

/-! ## Rings (R278, R279) -/

/-- The word address that a PR or PW address stands for in the frame of tick `n` (R278). -/
def frRebase (v : Dev) (p n a : Nat) : Nat :=
  if !frOn v p then a
  else if frObsBase v p ≤ a ∧ a < frObsBase v p + frObsSize v p then a + n % frObsSlots v p * frObsSize v p
  else if frActBase v p ≤ a ∧ a < frActBase v p + frActSize v p then a + n % frActSlots v p * frActSize v p
  else a

/-- A substitute of tick `n` has begun and is not yet published. -/
def FrameUnit.copying (f : FrameUnit) (n : Nat) : Bool := f.copies.any (fun c => c.tick == n)

/-- The unit drops a PW write: to word 0 of an action slot, or to this tick's slot after its publication or substitution (R278). -/
def frDrops (v : Dev) (p n a : Nat) : Bool :=
  let b := frActBase v p
  let size := frActSize v p
  let f := v.fu p
  frOn v p && decide (b ≤ a) && decide (a < b + frActSlots v p * size)
    && (decide ((a - b) % size = 0) || (decide ((a - b) / size = n % frActSlots v p) && ((f.tick == n && f.published) || f.copying n)))

/-- The unit latches the bytes of VERSION and SEQ that a host writes to an observation slot's header (R279). -/
def obsLatch (p : Nat) : Nat → List Byte → Dev → Dev
  | _, [], v => v
  | a, b :: bs, v =>
    let w := a / 128
    let base := frObsBase v p
    let size := frObsSize v p
    let v :=
      if size ≠ 0 ∧ base ≤ w ∧ w < base + frObsSlots v p * size ∧ (w - base) % size = 0 then
        let slot := (w - base) / size
        if a % 128 = 0 then v.modFu p (fun f => { f with hdrVer := SMap.set 0 f.hdrVer slot b.toNat })
        else if 4 ≤ a % 128 ∧ a % 128 ≤ 7 then
          v.modFu p (fun f =>
            { f with hdrSeq := SMap.set 0 f.hdrSeq slot (setFldN (SMap.get 0 f.hdrSeq slot) (8 * (a % 128 - 4)) 8 b.toNat) })
        else v
      else v
    obsLatch p (a + 1) bs v

/-- The pail instant of tick `n` at the unit of coach `g`: the observation check of an enabled unit, and whether the frame is in doubt
(R279, R281). -/
def frPailInstant (env : Env) (g p n : Nat) (v : Dev) : Dev :=
  let f := v.fu p
  let slot := n % frObsSlots v p
  let late := frOn v p && (decide (SMap.get 0 f.hdrVer slot ≠ 2) || decide (SMap.get 0 f.hdrSeq slot ≠ n % 0x100000000))
  let doubt := v.fb (TG_STATUS env.master g) 3 || (late && v.fb (frCtrl p) 2)
  let v := if late then v.inc (FR_OBS_LATE (portDie p) (portUnit p)) 1 else v
  v.modFu p (fun f => { f with tick := n, doubt := doubt, obsLate := late, published := false })

/-! ## Publication and substitution (R280 to R283) -/

/-- The action slot of tick `n` as a byte address of the port's SRAM. -/
def actSlotAddr (v : Dev) (p slot : Nat) : Nat := sramMem p (128 * (frActBase v p + slot * frActSize v p))

/-- The action header of R280. -/
def writeHeader (env : Env) (p n flags srcSeq : Nat) (v : Dev) : Dev :=
  v.stCycle (v.cycle env (portDie p)) 0 (actSlotAddr v p (n % frActSlots v p))
    (leBytes 1 2 ++ leBytes 1 flags ++ leBytes 2 0 ++ leBytes 4 n ++ leBytes 8 (env.nowOf (portDie p)) ++ leBytes 4 srcSeq ++ leBytes 12 0)

/-- The frame of tick `n` is published: the coach's tick, the pins and the capture channels learn of it (R56, R64, R66). -/
def notePublished (env : Env) (g n time : Nat) (onTime : Bool) (v : Dev) : Dev :=
  let m := env.master
  let v := v.modGen g (fun t =>
    { t with cur := t.cur.map (fun c => if c.n = n then { c with published := some onTime } else c) })
  let v := if onTime && !v.fb (TG_STATUS m g) 3 then v.setB (TG_STATUS m g) 2 false else v
  env.dieList.foldl (fun v d => captureOn env d 3 g time v) (pulseCoach env 2 g time v)

/-- The values a substitute takes if its copy starts now: those of the slot last published under STALE, else the safe image (R282). -/
def copySource (v : Dev) (p : Nat) : Option (Nat × Nat) := if v.fb (frCtrl p) 1 then (v.fu p).last else none

/-- A substitute begins; it is copied after those that began before it. -/
def beginCopy (p n : Nat) (missed : Bool) (v : Dev) : Dev :=
  let src := copySource v p
  (v.setB (frStatus p) 3 true).modFu p (fun f => { f with copies := f.copies ++ [⟨n, f.obsLate, missed, src⟩] })

/-- The unit's READY_FLAG is set (R255, R281). -/
def readySet (v : Dev) (p : Nat) : Bool :=
  let i := v.fd (frCtrl p) 8 12
  v.fb (SN_FLAGS (portDie p) (i / 32)) (i % 32)

/-- The current tick of coach `g`, if its pail instant has passed and its action instant has not at the unit of port `p`, on that die's copy (R39). -/
def beforeAction (env : Env) (v : Dev) (g p n : Nat) : Option CurTick :=
  match (v.gen g).cur with
  | some c => if c.n = n ∧ ¬ c.acted ∧ c.pailedOn.contains (portDie p) = true ∧ env.nowOf (portDie p) < c.start + c.set.action then some c else none
  | none => none

/-- ACTION_PUBLISH: READY_FLAG of the unit of port `p` is set before the action instant (R281, R283). -/
def actionPublish (p : Nat) (env : Env) (v : Dev) : Dev :=
  let f := v.fu p
  match f.holder with
  | none => v
  | some g =>
    match beforeAction env v g p f.tick with
    | none => v
    | some c =>
      if !frOn v p || f.published || f.copying f.tick || !readySet v p then v
      else if f.doubt || decide (1 ≤ c.react) then beginCopy p f.tick false v
      else
        let n := f.tick
        let v := writeHeader env p n (4 * b2n f.obsLate) n v
        let v := (v.inc (FR_PUB (portDie p) (portUnit p)) 1).setB (frStatus p) 2 false
        let v := v.modFu p (fun f => { f with published := true, last := some (n % frActSlots v p, n % 0x100000000) })
        notePublished env g n (env.nowOf (portDie p)) true v

/-- The frame of the current tick is missed: counted, recorded, and MISS_ACT is taken (R54, R283). -/
def frameMissed (env : Env) (g p : Nat) (v : Dev) : Dev :=
  let f := v.fu p
  let v := if f.copying f.tick then
      v.modFu p (fun f => { f with copies := f.copies.map (fun c => if c.tick = f.tick then { c with missed := true } else c) })
    else beginCopy p f.tick true v
  let v := v.inc (TG_FRAME_MISS env.master g) 1
  let v := raiseDL env g 0x11 f.tick 0 v
  let v := v.modGen g (fun t => { t with cur := t.cur.map (fun c => { c with missed := true }) })
  react env g (v.fd (TG_REACT env.master g) 2 2) v

/-- Late events of the tick in progress, as the coach's cores have reported them (R57, R346). -/
def lateOfTick (env : Env) (v : Dev) (g : Nat) (c : CurTick) : Nat :=
  v.rd64 (TG_LATE_LO env.master g) (TG_LATE_HI env.master g) - c.late0

/-- The TICK_TRACE record of the tick in progress (R408). -/
def tickTrace (env : Env) (g : Nat) (v : Dev) : Dev :=
  match (v.gen g).cur with
  | some c =>
    traceRec env.master g 2 7 env.now
      (leBytes 8 c.n ++ leBytes 8 c.start ++ leBytes 4 (lateOfTick env v g c)
        ++ leBytes 1 (b2n c.overran + 2 * b2n c.missed + 4 * b2n (c.published = some false))) v
  | none => v

/-- The copy of the time base that decides the action instant of coach `g`: that of its unit's die, else the master's (R39). -/
def actionClock (env : Env) (v : Dev) (g : Nat) : Nat := match unitOf v g with
  | some p => env.nowOf (portDie p)
  | none => env.now

/-- ACTION_INSTANT of coach `g`: S + TG_ACTION has come (R54, R283). -/
def actionInstant (g : Nat) (env : Env) (v : Dev) : Dev :=
  match (v.gen g).cur with
  | none => v
  | some c =>
    if c.pailed env v && !c.acted && decide (c.start + c.set.action ≤ actionClock env v g) then
      let v := match unitOf v g with
        | some p => if frOn v p && (v.fu p).tick == c.n && !(v.fu p).published then frameMissed env g p v else v
        | none => v
      tickTrace env g (v.modGen g (fun t => { t with cur := t.cur.map (fun c => { c with acted := true }) }))
    else v

/-- The first copy ends, the next starts, and the header is written with SAFE or STALE (R282, R283); the port's SAFE alert is set (R315). -/
def endCopy (p : Nat) (env : Env) (v : Dev) : Dev :=
  let f := v.fu p
  match f.copies with
  | [] => v
  | c :: rest =>
    let d := portDie p
    let u := portUnit p
    let slot := c.tick % frActSlots v p
    let from' := match c.src with
      | some s => actSlotAddr v p s.1
      | none => sramMem p (128 * frSafeBase v p)
    let v := v.stCycle (v.cycle env d) 0 (actSlotAddr v p slot + 128) (v.ldBytes (from' + 128) (128 * (frActSize v p - 1)))
    let seq := match c.src with
      | some s => s.2
      | none => c.tick % 0x100000000
    let flags := (if c.src = none then 1 else 2) + 4 * b2n c.obsLate + 8 * b2n c.missed
    let v := writeHeader env p c.tick flags seq v
    let v := if c.src = none then v.inc (FR_SUB_SAFE d u) 1 else v.inc (FR_SUB_STALE d u) 1
    let v := ((v.setB (frStatus p) 2 true).setB (frStatus p) 3 (rest != [])).setB (HP_ALERT_STAT d u) 4 true
    let v := v.modFu p (fun f => { f with published := f.published || f.tick == c.tick, last := some (slot, seq) })
    let src := copySource v p
    let v := v.modFu p (fun f =>
      { f with copies := match rest with
          | [] => []
          | x :: l => { x with src := src } :: l })
    match f.holder with
    | some g => notePublished env g c.tick (env.nowOf d) false v
    | none => v

/-- SUBSTITUTE_DONE: a copy that ends at or after the action instant is a missed frame's (R54), then the copy ends. -/
def substituteDone (p : Nat) (env : Env) (v : Dev) : Dev :=
  match (v.fu p).holder with
  | some g => endCopy p env (actionInstant g env v)
  | none => endCopy p env v

/-! ## SAFE_N (R284) -/

/-- A unit's contribution is asserted, while its coach's generator is not running or TG_STATUS.SAFE is 1; a unit without a coach asserts
none. -/
def safeContrib (env : Env) (v : Dev) (p : Nat) : Bool := match (v.fu p).holder with
  | some g => !v.genRuns env g || v.fb (TG_STATUS env.master g) 2
  | none => false

/-- A package reset is in progress: PERST_N is low, or the reset of THERMTRIP_N holds. -/
def inReset (v : Dev) : Bool := !v.bu.perst || v.pw.thermtrip

/-- SAFE_N is asserted: of the units, those with SAFE_N_EN 1 count. -/
def safeAsserted (env : Env) (v : Dev) : Bool :=
  inReset v || v.fb (FR_SAFEN env.master) 0 || v.fb (FR_SAFEN env.master) 2 || (List.range 4).any (fun p => v.fb (frCtrl p) 3 && safeContrib env v p)

/-- Writes to FR_SAFEN: firmware and the debug port only (R289); none arrives while a package reset is in progress. -/
def safenWrite (env : Env) (who : Party) (f : Dev → Dev) (v : Dev) : Dev :=
  if inReset v then v else match who with
  | .port _ => raiseSE env env.master 4 who (regAddr v (FR_SAFEN env.master)) v
  | .engine _ => raiseSE env env.master 4 who (regAddr v (FR_SAFEN env.master)) v
  | _ => debugGate env who env.master 4 (FR_SAFEN env.master) f v

/-- RELEASE clears BOOT_HOLD, once the package has reached READY (R359, R373). -/
def safenRelease (env : Env) (v : Dev) : Dev :=
  if v.fb (BU_STATUS env.master) 8 then v.setB (FR_SAFEN env.master) 0 false else v

/-- R287, and the coach column of R460: the frame unit is disabled, and its state and every register of it are cleared to zero. -/
def frClear (p : Nat) (v : Dev) : Dev :=
  (clearRange (frCtrl p) 0x100 v).modFu p (fun _ => FrameUnit.init)

/-- FR_CTRL_EN: EN is written 1 with the other fields as they stand. -/
def execFrCtrlEn (who : Party) (p : Fin 4) (s : State) : Host.Outcome State Fault Refusal :=
  .next (s.onWrite who (portDie p.val) (fun env => frWrite env who p.val (frCtrl p.val)
    (fun v => frCtrlWrite env p.val (setBit (v.rd (frCtrl p.val)) 0 true) v)))
def execFrSafenRelease (who : Party) (s : State) : Host.Outcome State Fault Refusal :=
  .next (s.onWrite who s.env.master (fun env => safenWrite env who (safenRelease env)))
def execFrSafenForce (who : Party) (b : Bool) (s : State) : Host.Outcome State Fault Refusal :=
  .next (s.onWrite who s.env.master (fun env => safenWrite env who (fun v => v.setB (FR_SAFEN env.master) 2 b)))
def execActionInstant (g : Fin 4) (s : State) : Host.Outcome State Fault Refusal := .next (s.onDev (actionInstant g.val))
def execActionPublish (p : Fin 4) (s : State) : Host.Outcome State Fault Refusal := .next (s.onDev (actionPublish p.val))
def execSubstituteDone (p : Fin 4) (s : State) : Host.Outcome State Fault Refusal := .next (s.onDev (substituteDone p.val))

end Sys2Proof.Machine
end

