-- ==== Sys2Proof/Machine/Vat.lean ====
section
/-! DEFINITION. Vats: bank sets, the address hash, security regions, unscheduled access, spares (R230 to R239, R260, R261, R412, R413). -/
namespace Sys2Proof.Machine

open Sys2Proof

/-! ## Bank sets (R230 to R233) -/

def vsFirst (w : Word) : Nat := fld w 0 6
def vsLog (w : Word) : Nat := fld w 6 3
def vsOwner (w : Word) (port : Nat) : Nat := fld w (12 + 4 * port) 3
def vsValid (w : Word) : Bool := bit w 31

/-- The set covers the bank. -/
def vsCovers (w : Word) (bank : Nat) : Bool := vsValid w && decide (vsFirst w ≤ bank) && decide (bank < vsFirst w + 2 ^ vsLog w)

/-- The bank set of a bank: first bank, m and the owners of its ports; a bank of its own where no valid entry covers it. -/
def setOfBank (v : Dev) (d bank : Nat) : Nat × Nat × Nat × Nat :=
  match (List.range 16).find? (fun k => vsCovers (v.rd (VAT_SET d k)) bank) with
  | some k =>
    let w := v.rd (VAT_SET d k)
    (vsFirst w, vsLog w, vsOwner w 0, vsOwner w 1)
  | none => (bank, 0, 7, 7)

/-- The fold of R231 over fields of `m` bits. -/
def foldBits : Nat → Nat → Nat → Nat
  | 0, _, _ => 0
  | fuel + 1, m, row => if row = 0 then 0 else (row % 2 ^ m) ^^^ foldBits fuel m (row / 2 ^ m)

/-- The bank and row of a vat word (R231). -/
def bankOfWord (v : Dev) (d w : Nat) : Nat × Nat :=
  let s := setOfBank v d (w / 32768)
  let l := w - s.1 * 32768
  let row := l / 2 ^ s.2.1
  if s.2.1 = 0 then (s.1, row) else (s.1 + ((l % 2 ^ s.2.1) ^^^ foldBits 15 s.2.1 row), row)

/-- The word that lies in a row of a bank. -/
def wordAt (v : Dev) (d bank row : Nat) : Nat :=
  let s := setOfBank v d bank
  s.1 * 32768 + row * 2 ^ s.2.1 + (if s.2.1 = 0 then 0 else (bank - s.1) ^^^ foldBits 15 s.2.1 row)

/-- Where the vat byte at a model address lies once the bank sets are those of `new`: in the same row of the same bank. -/
def movedByte (d : Nat) (old new : Dev) (a : Nat) : Nat :=
  let o := a - vatMem d 0
  let x := bankOfWord old d (o / 128)
  vatMem d (wordAt new d x.1 x.2 * 128 + o % 128)

/-- A change of the bank sets of a die moves no data in the banks, so its bytes change their addresses (R233). -/
def changeSets (d : Nat) (f : Dev → Dev) (v : Dev) : Dev :=
  let w := f v
  let inVat (a : Nat) : Bool := decide (vatMem d 0 ≤ a) && decide (a < vatMem d 0x10000000)
  let rest := w.mem.filter (fun e => !inVat e.1)
  { w with mem := (w.mem.filter (fun e => inVat e.1)).foldl (fun m e => SMap.set 0 m (movedByte d v w e.1) e.2) rest }

/-- VAT_SET entry `k` takes a value. -/
def setVatSet (d k : Nat) (x : Word) (v : Dev) : Dev :=
  let old := v.rd (VAT_SET d k)
  if vsFirst old = vsFirst x ∧ vsLog old = vsLog x ∧ vsValid old = vsValid x then v.wr (VAT_SET d k) x
  else changeSets d (fun v => v.wr (VAT_SET d k) x) v

/-- The bytes of a bank read as bytes that nothing has written. -/
def clearBank (d bank : Nat) (v : Dev) : Dev :=
  let keeps (a : Nat) : Bool :=
    decide (a < vatMem d 0) || decide (vatMem d 0x10000000 ≤ a) || (bankOfWord v d ((a - vatMem d 0) / 128)).1 != bank
  { v with mem := v.mem.filter (fun e => keeps e.1) }

/-- The coach that owns a port of the bank's set, or 4 or more for none. -/
def portOwner (v : Dev) (d bank port : Nat) : Nat :=
  let s := setOfBank v d bank
  if port = 0 then s.2.2.1 else s.2.2.2

/-- Who writes the SN and VAT registers that no host may write (R261). -/
def snWrite (env : Env) (who : Party) (d : Nat) (debugToo : Bool) (r : Reg) (f : Dev → Dev) (v : Dev) : Dev :=
  if !env.has d then missWrite env who r v
  else match who with
    | .port _ => raiseSE env d 4 who (regAddr v r) v
    | .debug =>
      if debugToo then debugGate env who d 4 r f v
      else if debugOff v who then v else raiseSE env d 4 who (regAddr v r) v
    | .engine _ => if debugToo then v else f v
    | _ => f v

/-- A new value of VAT_SET entry `k` is accepted (R233). -/
def vatSetOk (env : Env) (v : Dev) (d k : Nat) (x : Word) : Bool :=
  let old := v.rd (VAT_SET d k)
  let ownerOk (o : Nat) : Bool := decide (o < 4) || o == 7
  let shape := vsFirst old == vsFirst x && vsLog old == vsLog x && vsValid old == vsValid x
  let touches (p : Nat) : Bool :=
    let g := vsOwner old p
    vsValid old && decide (g < 4) && v.genRuns env g && !(shape && vsOwner x p == g)
  decide (vsLog x ≤ 6) && decide (vsFirst x % 2 ^ vsLog x = 0) && ownerOk (vsOwner x 0) && ownerOk (vsOwner x 1)
    && !touches 0 && !touches 1
    && (!vsValid x || (List.range 16).all (fun j =>
      let w := v.rd (VAT_SET d j)
      j == k || !vsValid w || !overlaps (vsFirst w, 2 ^ vsLog w) (vsFirst x, 2 ^ vsLog x)))

/-- VAT_SET written (R233): accepted, or refused with SET_ERR. -/
def vatSetWrite (env : Env) (d k : Nat) (x : Word) (v : Dev) : Dev :=
  if vatSetOk env v d k x then setVatSet d k (x &&& 0x800771FF) v else v.setB (VAT_STATUS d) 0 true

/-- VAT_BANK_SEL written: the per-bank counters clear (R260). -/
def bankSelWrite (d : Nat) (x : Word) (v : Dev) : Dev :=
  (v.wrN (VAT_BANK_SEL d) (fld x 0 6)).clearRegs
    [VAT_BANK_SCHED_LO d, VAT_BANK_SCHED_HI d, VAT_BANK_UNSCHED_LO d, VAT_BANK_UNSCHED_HI d, VAT_BANK_WAIT_LO d, VAT_BANK_WAIT_HI d]

def vatCounters (d : Nat) : List Reg :=
  [VAT_CE d, VAT_UE d, VAT_WW_COLLIDE d, VAT_BANK_SCHED_LO d, VAT_BANK_SCHED_HI d, VAT_BANK_UNSCHED_LO d, VAT_BANK_UNSCHED_HI d,
   VAT_BANK_WAIT_LO d, VAT_BANK_WAIT_HI d]

def snCounters (d : Nat) : List Reg :=
  [SN_WORDS_LO d, SN_WORDS_HI d, SN_EMPTY d, SN_XCOACH d, SN_JOIN_SAT d, SN_JOIN_MISMATCH d, SN_GUARD_MISS d, SN_CPL_EMPTY d, SN_CPL_OVF d,
   SN_ABANDON d, SN_LANE_CE d, SN_LANE_UE d]

/-! ## Security regions (R412, R413) -/

/-- A region entry. Its limits are in bytes of the die's space; port SRAM offsets count from the die's first port (log entry 15). -/
structure Rgn where
  base : Nat
  limit : Nat
  space : Nat
  secure : Bool
  valid : Bool
  owner : Nat
  readers : Nat
  wr : Bool
  share : Bool
  deriving DecidableEq, Repr

def Dev.rgn (v : Dev) (d r : Nat) : Rgn :=
  let a := v.rd (SEC_RGN_A d r)
  let b := v.rd (SEC_RGN_B d r)
  { base := fld a 0 16 * 4096, limit := fld a 16 16 * 4096 + 4095, space := fld b 0 2, secure := bit b 2, valid := bit b 3,
    owner := fld b 4 3, readers := fld b 8 4, wr := bit b 12, share := bit b 13 }

def Rgn.covers (x : Rgn) (space off : Nat) : Bool := x.valid && x.space == space && decide (x.base ≤ off) && decide (off ≤ x.limit)

/-- The coach may reach a byte: as owner (to write, with WR) or, to read, as reader. -/
def coachReaches (v : Dev) (d g space off : Nat) (write : Bool) : Bool :=
  (List.range 64).any (fun r =>
    let x := v.rgn d r
    x.covers space off && !x.secure && ((x.owner == g && (!write || x.wr)) || (!write && fldN x.readers g 1 == 1)))

/-- The byte lies in a secure region. -/
def inSecure (v : Dev) (d space off : Nat) : Bool := (List.range 64).any (fun r => (v.rgn d r).covers space off && (v.rgn d r).secure)

/-- The 4 KiB pages of a range. -/
def pagesOf (off n : Nat) : List Nat :=
  if n = 0 then [] else (List.range ((off + n - 1) / 4096 - off / 4096 + 1)).map (fun i => (off / 4096 + i) * 4096)

/-- The coach may reach every byte of a range (R413): pages are the unit of a region. -/
def rangeReaches (v : Dev) (d g space off n : Nat) (write : Bool) : Bool :=
  (pagesOf off n).all (fun a => coachReaches v d g space a write)

def rangeSecure (v : Dev) (d space off n : Nat) : Bool := (pagesOf off n).any (fun a => inSecure v d space a)

/-- A requester of R235 may reach a byte of the vat (R413). -/
def partyReaches (env : Env) (v : Dev) (d space off : Nat) (write : Bool) : Party → Bool
  | .monitor _ => true
  | .port _ => false
  | .engine p => (List.range 4).any (fun g => v.isOpen g && (v.coach g).port == p.val && coachReaches v d g space off write)
  | .debug =>
    match v.fd (SEC_DEBUG env.master) 0 2 with
    | 0 => false
    | 1 => (List.range 64).any (fun r => (v.rgn d r).covers space off && !(v.rgn d r).secure)
    | _ => (List.range 64).any (fun r => (v.rgn d r).covers space off)
  | _ => (List.range 64).any (fun r => (v.rgn d r).covers space off && !(v.rgn d r).secure && (v.rgn d r).owner == 4)

/-! ## Unscheduled access (R235) -/

/-- The rounds and words of an entry that fall in a frame slot: at most two rounds overlap there. -/
def wordsAt (t : DieTable) (e : TEntry) (slot : Nat) : List (Nat × Nat) :=
  if slot < t.offset + e.start then []
  else
    let k := slot - t.offset - e.start
    let r := k / t.slots
    ([(r, k % t.slots), (r - 1, k % t.slots + t.slots)]).filter (fun x =>
      decide (e.firstRound ≤ x.1) && decide (x.1 ≤ e.lastRound) && decide (x.2 ≤ e.lenM1) && decide (slotOf t e x.1 x.2 = slot))

/-- A die table makes an access through a port of a bank 32 cycles before frame slot `at' - 64`: a write in its slot, a read 32 cycles before
it, the latter only where `reads` says that the frame still reads (R241, R247). Slots count from 32 here, so that reads before slot 0 have one. -/
def tableUses (v : Dev) (d bank port slot32 : Nat) (reads : Bool) (t : DieTable) : Bool :=
  t.entries.any (fun e =>
    (decide (e.snk < 4) && e.snkPort == port && decide (32 ≤ slot32)
      && (wordsAt t e (slot32 - 32)).any (fun x => (bankOfWord v d (snkAddrOf e x.1 x.2)).1 == bank))
    || (reads && decide (e.src < 8) && e.srcPort == port
      && (wordsAt t e slot32).any (fun x => (bankOfWord v d (srcAddrOf e x.1 x.2)).1 == bank)))

/-- The cycle of slot 0 of the frame that starts next, where the coach's tick has begun and its pail instant is still to come on the die. -/
def nextFrameCycle (v : Dev) (d g : Nat) : Option Nat := match (v.gen g).cur with
  | some c => if c.pailedOn.contains d then none else some (chkCycle (v.chkAt d (c.start + c.set.pail)))
  | none => none

/-- An armed swap is due at the pail instant of tick `n` (R248). -/
def swapDue (v : Dev) (g n : Nat) : Bool := match SMap.get none v.net.armed g with
  | some (some m) => decide (m ≤ n)
  | _ => false

/-- The die table with which the coach's next frame runs. -/
def nextTable (v : Dev) (d g : Nat) : Option DieTable :=
  if v.frame g != (none : Option Frame) && ((v.frame g).map (·.tick)) == ((v.gen g).cur.map (·.n)) then v.table d g
  else if swapDue v g (((v.gen g).cur.map (·.n)).getD 0) then SMap.get none v.net.inactive (d * 4 + g) else v.table d g

/-- Coach `g` makes a scheduled access through a port of a bank in a CHK cycle: for its running frame, or a read ahead of slot 0 for the next,
before which the running one reads no more (R235, R247). -/
def coachUses (v : Dev) (d g bank port cyc : Nat) : Bool :=
  let next := nextFrameCycle v d g
  let ahead := match next with
    | some c => decide (c ≤ cyc + 32)
    | none => false
  (match v.frame g, v.table d g with
    | some f, some t =>
      let c := chkCycle (v.chkAt d f.start)
      next != some c && decide (c ≤ cyc + 32) && tableUses v d bank port (cyc + 32 - c) (!ahead) t
    | _, _ => false)
  || (match next, nextTable v d g with
    | some c, some t => ahead && tableUses v d bank port (cyc + 32 - c) true t
    | _, _ => false)

/-- A CHK cycle is a gap slot of the port (R235). -/
def isGapIn (v : Dev) (d bank port cyc : Nat) : Bool :=
  let g := portOwner v d bank port
  decide (4 ≤ g) || !coachUses v d g bank port cyc

/-- The port is free for an unscheduled access in the current cycle: a gap slot that none has used. -/
def portFree (env : Env) (v : Dev) (d bank port : Nat) : Bool :=
  isGapIn v d bank port (v.cycle env d) && SMap.get 0 v.net.vatServed ((d * 64 + bank) * 2 + port) != v.cycle env d + 1

/-- Priority of a requester (R235). -/
def vatPriority : Party → Nat
  | .engine p => p.val
  | .port p => p.val
  | .coachman _ => 4
  | .monitor _ => 4
  | .ostler _ k => 5 + k.val
  | .debug => 9

/-- The request counts at the selected bank. -/
def countBank (d bank : Nat) (lo hi : Reg) (v : Dev) : Dev := if v.fd (VAT_BANK_SEL d) 0 6 = bank then v.inc64 lo hi 1 else v

/-- A write to a vat word through a bank port. Where the other port writes the word in the same cycle, P1's bytes stand (R234). -/
def vatWrite (d cyc port a : Nat) (bs : List Byte) (v : Dev) : Dev :=
  let meets (w : RecentWrite) : Bool :=
    w.cyc == cyc && w.rank != port && decide (w.addr / 128 ≤ (a + bs.length - 1) / 128) && decide (a / 128 ≤ (w.addr + w.data.length - 1) / 128)
  let v := if v.net.recentWr.any meets then v.inc (VAT_WW_COLLIDE d) 1 else v
  v.stCycle cyc port a bs

/-- An access of R230: a read of the word that holds byte `off`, or a write of 8 to 128 bytes, aligned to 8 bytes, within one word. A row of
another shape is no request (DESIGN CHOICE, log entry 131). -/
def unschedShape (off : Nat) (data : Option (List Byte)) : Bool := match data with
  | none => true
  | some bs => decide (off % 8 = 0) && decide (bs.length % 8 = 0) && decide (8 ≤ bs.length) && decide (off % 128 + bs.length ≤ 128)

/-- The bank port that a request gets in the current cycle: P1 where both have a gap slot, unless requests of higher priority wait for every
free port (R235). -/
def vatPort (env : Env) (who : Party) (d bank : Nat) (v : Dev) : Option Nat :=
  ([1, 0].filter (portFree env v d bank))[((SMap.get [] v.net.vatWait d).filter (fun q => q.bank == bank && decide (q.who < vatPriority who))).length]?

/-- The cycles before `upto` that a request for a bank has waited and that are not yet counted; `fresh` of them for a request that is new. -/
def vatWaited (v : Dev) (who : Party) (d bank upto fresh : Nat) : Nat :=
  match (SMap.get [] v.net.vatWait d).find? (fun q => q.who == vatPriority who && q.bank == bank) with
  | some q => upto - q.upto
  | none => fresh

/-- `n` cycles of waiting for a bank count (R260). -/
def countWaits (d bank n : Nat) (v : Dev) : Dev :=
  if v.fd (VAT_BANK_SEL d) 0 6 = bank then v.inc64 (VAT_BANK_WAIT_LO d) (VAT_BANK_WAIT_HI d) n else v

/-- The requests that wait at a die without the requester's for a bank. -/
def vatOthers (v : Dev) (who : Party) (d bank : Nat) : List VatReq :=
  (SMap.get [] v.net.vatWait d).filter (fun q => !(q.who == vatPriority who && q.bank == bank))

/-- The access is made through a bank port. -/
def vatServe (who : Party) (d off port : Nat) (data : Option (List Byte)) (env : Env) (v : Dev) : Dev :=
  let bank := (bankOfWord v d (off / 128)).1
  let c := v.cycle env d
  let v := countWaits d bank (vatWaited v who d bank c 0) (v.awake d)
  let v := v.modNet (fun n =>
    { n with
      vatWait := SMap.set [] n.vatWait d (vatOthers v who d bank)
      vatServed := SMap.set 0 n.vatServed ((d * 64 + bank) * 2 + port) (c + 1) })
  let v := countBank d bank (VAT_BANK_UNSCHED_LO d) (VAT_BANK_UNSCHED_HI d) v
  match data with
  | some bs => vatWrite d c port (vatMem d off) bs v
  | none =>
    v.modNet (fun n => { n with vatRead := SMap.set 0 n.vatRead (partyNum who) (ofLeBytes (v.ldCycle c (vatMem d (off / 128 * 128)) 128)) })

/-- The request waits the current cycle: it stands among those that wait, and the cycles that it has waited count (R235, R260). -/
def vatDelay (who : Party) (d bank : Nat) (env : Env) (v : Dev) : Dev :=
  let c := v.cycle env d
  let v := countWaits d bank (vatWaited v who d bank (c + 1) 1) (v.awake d)
  v.modNet (fun n => { n with vatWait := SMap.set [] n.vatWait d (vatOthers v who d bank ++ [⟨vatPriority who, bank, c + 1⟩]) })

/-- The requester reads 0. -/
def vatReads0 (who : Party) (data : Option (List Byte)) (v : Dev) : Dev :=
  if data != none then v else v.modNet (fun n => { n with vatRead := SMap.set 0 n.vatRead (partyNum who) 0 })

/-- VAT_UNSCHED_ACCESS: it is served in a gap slot of its bank, through P1 where both ports have one, unless requests of higher priority
wait for every free port; else it waits one cycle (R235). A denied request, and one that reaches no vat, reads 0 and drops its write (R25,
R415). -/
def vatUnsched (who : Party) (d off : Nat) (data : Option (List Byte)) (env : Env) (v : Dev) : Dev :=
  let access := if data != none then accWrite else accRead
  if debugOff v who || !unschedShape off data then v
  else if !env.has d || decide (0x10000000 ≤ off) then raiseMiss env who 4 access (vatMem d off) (vatReads0 who data v)
  else if !partyReaches env v d 0 off (data != none) who then
    raiseRegion env d 4 who access (vatMem d off) (vatReads0 who data v)
  else
    let bank := (bankOfWord v d (off / 128)).1
    match vatPort env who d bank v with
    | some port => vatServe who d off port data env v
    | none => vatDelay who d bank env v

/-! ## Spares (R238) -/

/-- A bank is fenced: no spare is left. -/
def fenceBank (d bank : Nat) (v : Dev) : Dev :=
  (v.setB (VAT_STATUS d) 1 true).modNet (fun n =>
    { n with fencedBanks := if n.fencedBanks.contains (d * 64 + bank) then n.fencedBanks else (d * 64 + bank) :: n.fencedBanks })

/-- The next free spare bank takes the place of a bank, else the bank is fenced. -/
def mapSpareBank (d bank : Nat) (v : Dev) : Dev :=
  let w := v.rd (VAT_SPARE d)
  if !bit w 6 then v.wr (VAT_SPARE d) (setBit (setFld w 0 6 bank) 6 true)
  else if !bit w 14 then v.wr (VAT_SPARE d) (setBit (setFld w 8 6 bank) 14 true)
  else fenceBank d bank v

/-- Spare rows of a bank come into use, at most 16; a bank that needs more takes a spare bank. -/
def mapSpareRows (d bank rows : Nat) (v : Dev) : Dev :=
  let n := SMap.get 0 v.net.rowsUsed (d * 64 + bank) + rows
  if n ≤ 16 then v.modNet (fun t => { t with rowsUsed := SMap.set 0 t.rowsUsed (d * 64 + bank) n }) else mapSpareBank d bank v

/-- A die table uses a port of the set of banks from `first`, 2^`m` of them, for some word of some round. -/
def tableUsesSet (v : Dev) (d first m port : Nat) (t : DieTable) : Bool :=
  let inSet (w : Nat) : Bool := let b := (bankOfWord v d w).1; decide (first ≤ b) && decide (b < first + 2 ^ m)
  t.entries.any (fun e =>
    (List.range (e.lastRound - e.firstRound + 1)).any (fun k => (List.range (e.lenM1 + 1)).any (fun i =>
      (decide (e.src < 8) && e.srcPort == port && inSet (srcAddrOf e (e.firstRound + k) i))
        || (decide (e.snk < 4) && e.snkPort == port && inSet (snkAddrOf e (e.firstRound + k) i)))))

/-- No frame runs that uses a port of the bank's set. -/
def setIdle (v : Dev) (d bank : Nat) : Bool :=
  let s := setOfBank v d bank
  let used (g port : Nat) : Bool := match v.frame g, v.table d g with
    | some _, some t => tableUsesSet v d s.1 s.2.1 port t
    | _, _ => false
  !used s.2.2.1 0 && !used s.2.2.2 1

/-- VAT_SPARE_MAP: `rows` 0 maps a spare bank. -/
def vatSpareMap (d bank rows : Nat) (env : Env) (v : Dev) : Dev :=
  if env.has d && setIdle v d bank then (if rows = 0 then mapSpareBank d bank v else mapSpareRows d bank rows v) else v

def execVatSetWrite (who : Party) (d : Fin 8) (k : Fin 16) (x : Word) (s : State) : Host.Outcome State Fault Refusal :=
  .next (s.onWrite who d.val (fun env => snWrite env who d.val false (VAT_SET d.val k.val) (vatSetWrite env d.val k.val x)))
def execVatBankSelWrite (who : Party) (d : Fin 8) (x : Word) (s : State) : Host.Outcome State Fault Refusal :=
  .next (s.onWrite who d.val (fun env => snWrite env who d.val true (VAT_BANK_SEL d.val) (bankSelWrite d.val x)))
def execVatSpareMap (d : Fin 8) (bank : Fin 64) (rows : Nat) (s : State) : Host.Outcome State Fault Refusal :=
  .next (s.onDev (vatSpareMap d.val bank.val rows))

end Sys2Proof.Machine
end

