-- ==== Sys2Proof/Machine/Timetable.lean ====
section
/-! DEFINITION. The timetable network: words from source to sink, join units, couplings, flags and barriers, and frames (R240 to R258,
08_vats_and_timetable.md). -/
namespace Sys2Proof.Machine

open Sys2Proof

/-! ## Ends and owners (R240, R250) -/

/-- Egress quarters of a coupling that a coach owns (R250). -/
def quarters (v : Dev) (d edge g : Nat) : Nat := ((List.range 4).filter (fun q => v.fd (SN_OWN_CPL d edge) (3 * q) 3 == g)).length

/-- The coach owns a sink end. -/
def sinkOwned (v : Dev) (d code g : Nat) : Bool :=
  if code < 4 then v.fd (SN_OWN_VWJ d) (3 * code) 3 == g
  else if code = 8 ∨ code = 9 then decide (d < 2) && (v.fu (2 * d + (code - 8))).holder == some g
  else if code < 16 then false
  else if code < 20 then v.churnOwner d (code - 16) == g
  else if code < 24 then v.churnOwner d (code - 20) == g
  else if code < 28 then v.fd (SN_OWN_SP d) (12 + 3 * (code - 24)) 3 == g
  else if code < 32 then decide (0 < quarters v d (code - 28) g)
  else if code < 40 then v.fd (SN_OWN_VWJ d) (12 + 3 * ((code - 32) / 2)) 3 == g
  else false

/-- The coach owns a source end; the facing die's egress owns an ingress (R250). -/
def sourceOwned (env : Env) (v : Dev) (d code g : Nat) : Bool :=
  if code < 8 then v.fd (SN_OWN_VR d) (3 * code) 3 == g
  else if code < 10 then decide (d < 2) && (v.fu (2 * d + (code - 8))).holder == some g
  else if code < 12 then false
  else if code < 16 then v.churnOwner d (code - 12) == g
  else if code < 20 then v.churnOwner d (code - 16) == g
  else if code < 24 then v.fd (SN_OWN_SP d) (3 * (code - 20)) 3 == g
  else if code < 28 then
    match neighbour env.hw.part d (code - 24) with
    | some n => decide (0 < quarters v n (opposite (code - 24)) g)
    | none => false
  else if code < 32 then v.fd (SN_OWN_VWJ d) (12 + 3 * (code - 28)) 3 == g
  else false

/-- The owner of a sink end as an error's owner: the device where no coach owns it, or several do (R378). -/
def sinkOwner (v : Dev) (d code : Nat) : Nat := match (List.range 4).filter (sinkOwned v d code) with
  | [g] => g
  | _ => 4

/-- Key of a channel's buffers at a die (R251). -/
def channel (d edge g : Nat) : Nat := (d * 4 + edge) * 4 + g

/-! ## Frames and their records -/

def Dev.modFrame (v : Dev) (g : Nat) (f : Frame → Frame) : Dev := v.setFrame g ((v.frame g).map f)

/-- A DL record at a die's node, at most one in a frame for each `kind` (R252, R254, R256, R267). -/
def dlOnce (env : Env) (d g kind tick endNo inst : Nat) (v : Dev) : Dev :=
  match v.frame g with
  | none => v
  | some f =>
    if f.dlMade.contains (d * 8 + kind) then v
    else
      raise env { die := d, cls := clsDL, owner := g, source := 0x16, master := mBlock d 5 inst, access := accTransit, addr := 0,
                  info := tick % 0x100000000 + endNo % 64 * 0x100000000 }
        (v.modFrame g (fun f => { f with dlMade := (d * 8 + kind) :: f.dlMade }))

/-! ## Memory ends (R234, R241) -/

/-- The 128-byte word at a model address as it stood at the start of a bank cycle (R241). -/
def wordAtCycle (v : Dev) (a cyc : Nat) : Nat := ofLeBytes (v.ldCycle cyc a 128)

/-- The coach's scheduled traffic reaches the bank of a vat word through a port: it owns that port (R232). -/
def portServes (v : Dev) (d g w port : Nat) : Bool := portOwner v d (bankOfWord v d w).1 port == g

/-- A vat read of a scheduled entry: one access for several reads of one word through one port in one cycle (R234, R242). -/
def vatReadSched (d w cyc port : Nat) (v : Dev) : Nat × Dev :=
  let a := vatMem d (w * 128)
  let x := wordAtCycle v a cyc
  let me : RecentRead := ⟨a, cyc, port⟩
  if v.net.recentRd.contains me then (x, v)
  else
    let v := countBank d (bankOfWord v d w).1 (VAT_BANK_SCHED_LO d) (VAT_BANK_SCHED_HI d) v
    (x, v.modNet (fun n => { n with recentRd := me :: n.recentRd.filter (fun r => memDie r.addr != d || r.cyc == cyc) }))

/-! ## Join units (R253, R254) -/

def joinKey (d unit slot : Nat) : Nat := (d * 8 + unit) * 0x100000000 + slot

/-- The elementwise sum of two words of 32 INT32, and how many elements saturated (R253). -/
def joinSum (a b : Nat) : Nat × Nat :=
  let xs := (List.range 32).map (fun i => toSigned 32 (fldN a (32 * i) 32) + toSigned 32 (fldN b (32 * i) 32))
  (((List.range 32).map (fun i => ofSigned 32 (sat32 (xs.getD i 0)) * 2 ^ (32 * i))).foldl (· + ·) 0,
   (xs.filter (fun x => decide (sat32 x ≠ x))).length)

/-- One join unit in one slot (R253, R254). -/
def joinSlot (env : Env) (d g j slot : Nat) (v : Dev) : Dev :=
  let a := SMap.get none v.net.joinIn (joinKey d (2 * j) slot)
  let b := SMap.get none v.net.joinIn (joinKey d (2 * j + 1) slot)
  let out (w : TWord) (v : Dev) : Dev := v.modNet (fun n =>
    { n with
      joinIn := SMap.set none (SMap.set none n.joinIn (joinKey d (2 * j) slot) none) (joinKey d (2 * j + 1) slot) none,
      joinOut := SMap.set none n.joinOut (joinKey d j (slot + 4)) (some w) })
  let bad : TWord := ⟨0, false, 0, g⟩
  let mismatch (v : Dev) : Dev :=
    let tick := ((v.frame g).map (·.tick)).getD 0
    dlOnce env d g 1 tick (32 + 2 * j) (1 + j) (out bad (v.inc (SN_JOIN_MISMATCH d) 1))
  match a, b with
  | none, none => v
  | some x, some y =>
    if x.valid && y.valid && x.tag == y.tag then
      let r := joinSum x.data y.data
      out ⟨r.1, true, x.tag, g⟩ (v.inc (SN_JOIN_SAT d) r.2)
    else if x.valid || y.valid then mismatch v else out bad v
  | some x, none => if x.valid then mismatch v else out bad v
  | none, some y => if y.valid then mismatch v else out bad v

/-- Join outputs of slots before `upTo` are formed, in slot order, at the units of coach `g` on die `d`. -/
def joinSettle (env : Env) (d g upTo : Nat) (v : Dev) : Dev :=
  let due := (v.net.joinIn.filter (fun e => e.1 / 0x100000000 / 8 == d && decide (e.1 % 0x100000000 < upTo)
    && sinkOwned v d (32 + e.1 / 0x100000000 % 8) g)).map (fun e => (e.1 / 0x100000000 % 8 / 2, e.1 % 0x100000000))
  due.foldl (fun v x => joinSlot env d g x.1 x.2 v) v

/-! ## Couplings (R251, R252) -/

def Dev.chanOut (v : Dev) (c : Nat) : List (Nat × TWord) := SMap.get [] v.net.egress c
def Dev.chanIn (v : Dev) (c : Nat) : List (Nat × TWord) := SMap.get [] v.net.ingress c

/-- A word enters egress in its slot, or is discarded where the buffer is full (R251, R252). -/
def egressEnter (env : Env) (d edge g slot : Nat) (w : TWord) (v : Dev) : Dev :=
  let c := channel d edge g
  if (v.chanOut c).length < 1024 then v.modNet (fun n => { n with egress := SMap.set [] n.egress c (v.chanOut c ++ [(slot, w)]) })
  else dlOnce env d g 2 (((v.frame g).map (·.tick)).getD 0) (28 + edge) 0 (v.inc (SN_CPL_OVF d) 1)

/-- The earliest slot in which the head word of a channel may be released (R251). -/
def releaseSlot (v : Dev) (d edge g entered : Nat) (f : Frame) : Nat :=
  let rel := SMap.get [] v.net.released (channel d edge g)
  let q := quarters v d edge g
  let after := match rel with
    | r :: _ => r + 1
    | [] => 0
  let rate := match rel[10 * q - 1]? with
    | some r => if q = 0 then 0 else r + 44
    | none => 0
  let resumed := SMap.get 0 v.net.resumed (d * 4 + edge)
  let pause := if f.start < resumed then (v.chkAt d resumed - v.chkAt d f.start + 999) / 1000 else 0
  max (max entered after) (max rate pause)

/-- COUPLING_RELEASE: the head word of a channel's egress leaves in its slot and is available at the far ingress 32 slots later. A full
ingress buffer loses it (log entry 16). -/
def couplingRelease (d edge g : Nat) (env : Env) (v : Dev) : Dev :=
  let c := channel d edge g
  let m := d * 4 + edge
  match v.frame g, v.chanOut c, neighbour env.hw.part d edge with
  | some f, (slot, w) :: rest, some far =>
    if v.net.downMods.contains m || v.net.pausedMods.contains m || quarters v d edge g == 0 then v
    else
      let s := releaseSlot v d edge g slot f
      if !slotDue env v d f s then v
      else
        let c' := channel far (opposite edge) g
        let v := v.modNet (fun n =>
          { n with
            egress := SMap.set [] n.egress c rest,
            released := SMap.set [] n.released c ((s :: SMap.get [] n.released c).take 40) })
        if (v.chanIn c').length < 1024 then
          v.modNet (fun n => { n with ingress := SMap.set [] n.ingress c' (v.chanIn c' ++ [(s + 32, w)]) })
        else dlOnce env far g 2 f.tick (24 + opposite edge) 0 (v.inc (SN_CPL_OVF far) 1)
  | _, _, _ => v

/-! ## Flags, barriers and signals (R255, R256) -/

def flagSet (v : Dev) (d i : Nat) : Bool := v.fb (SN_FLAGS d (i / 32)) (i % 32)
/-- A signal sets a flag: its time is that of the first signal since the flag was clear. -/
def setFlag (d i time : Nat) (v : Dev) : Dev :=
  if flagSet v d i then v
  else (v.setB (SN_FLAGS d (i / 32)) (i % 32) true).modNet (fun n => { n with flagTimes := SMap.set 0 n.flagTimes (d * 4096 + i) time })
/-- The flag was set by a CHK time. -/
def flagBy (v : Dev) (d i time : Nat) : Bool := flagSet v d i && decide (SMap.get 0 v.net.flagTimes (d * 4096 + i) ≤ time)

/-- Couplings crossed on the die route from `d` to `t` (R138, R256). -/
def hops (env : Env) (v : Dev) (t : Nat) : Nat → Nat → Nat
  | 0, _ => 0
  | fuel + 1, d =>
    if d = t then 0
    else match nextEdge (drouteOf env v d t % 8) with
      | some e => match neighbour env.hw.part d e with
        | some n => 1 + hops env v t fuel n
        | none => 0
      | none => 0

/-- BARRIER_SIGNAL: the `k`-th pending signal reaches its flag or barrier (R255, R256). -/
def barrierSignal (k : Nat) (env : Env) (v : Dev) : Dev :=
  match v.net.signals[k]? with
  | none => v
  | some s =>
    if v.chkAt s.die (env.nowOf s.die) < s.due then v
    else
      let v := v.modNet (fun n => { n with signals := n.signals.eraseIdx k })
      if !s.barrier then setFlag s.die s.index s.due v
      else
        let b := s.index % 256
        let r := SN_BAR s.die b
        let count := v.fd r 0 16
        let target := v.fd r 16 16
        if target = 0 ∨ target ≤ count then v
        else
          let v := v.setF r 0 16 (count + 1)
          if count + 1 = target then
            let flag := match v.table s.die (b / 64) with
              | some t => fldN (t.barriers.getD (b % 64) 0) 16 12
              | none => 0
            setFlag s.die flag s.due v
          else v

/-- A coach's flags and barrier counts on a die clear (R255). -/
def clearFlags (g : Nat) (v : Dev) (d : Nat) : Dev :=
  let v := (List.range 32).foldl (fun v i => v.wr (SN_FLAGS d (32 * g + i)) 0) v
  let v := v.modNet (fun n => { n with flagTimes := n.flagTimes.filter (fun e => e.1 / 1024 ≠ d * 4 + g) })
  (List.range 64).foldl (fun v i => v.setF (SN_BAR d (64 * g + i)) 0 16 0) v

/-- FLAGS_CLEAR: 32 cycles before slot 0 of a frame of the coach, on every die by its own copy (R255). -/
def flagsClear (g : Nat) (env : Env) (v : Dev) : Dev :=
  match (v.gen g).cur with
  | some c =>
    (env.dieList.filter (fun d => !c.pailedOn.contains d && decide (v.chkAt d (c.start + c.set.pail) ≤ v.chkAt d (env.nowOf d) + 32000))).foldl (clearFlags g) v
  | none => v

/-! ## One word (R245, R256 to R258) -/

/-- The word a source end gives for frame slot `slot` of coach `g`'s frame: taken 4 cycles before it, memory 32 cycles before (R241). A port
that the coach does not own reaches no bank (R232), and what its read gives is not stated: a free word and VALID (DESIGN CHOICE, log entry
179). -/
def takeSource (env : Env) (d g : Nat) (f : Frame) (e : TEntry) (r i slot : Nat) (v : Dev) : TWord × Dev :=
  let a := srcAddrOf e r i
  let plain (data : Nat) (valid : Bool) : TWord := ⟨data, valid, e.tag, g⟩
  let none' : TWord := plain 0 false
  if e.src < 8 then
    if portServes v d g a e.srcPort then
      let x := vatReadSched d a (chkCycle (slotTime v d f slot - 32000)) e.srcPort v
      (plain x.1 true, x.2)
    else
      let x := v.takeFree
      (plain (x.1 / 2 % 2 ^ 1024) (x.1 % 2 == 1), x.2)
  else if e.src < 10 then
    let p := 2 * d + (e.src - 8)
    (plain (wordAtCycle v (sramMem p (128 * frRebase v p f.tick a)) (chkCycle (slotTime v d f slot - 32000))) true, v)
  else if e.src < 16 then (plain (pailWord v d (e.src - 12) a) true, v)
  else if e.src < 20 then
    match portWord (v.churn d (e.src - 16)).oport (slot - 4) with
    | some w => if 4 ≤ slot then (plain w true, v) else (none', v)
    | none => (none', v)
  else if e.src < 24 then
    let x := spoRead d (a % 16) (a / 16) slot v
    (plain x.1.1 x.1.2, x.2)
  else if e.src < 28 then
    let c := channel d (e.src - 24) g
    match v.chanIn c with
    | (avail, w) :: ws =>
      if avail + 4 ≤ slot then (w, v.modNet (fun n => { n with ingress := SMap.set [] n.ingress c ws }))
      else (none', dlOnce env d g 3 f.tick e.src 0 (v.inc (SN_CPL_EMPTY d) 1))
    | [] => (none', dlOnce env d g 3 f.tick e.src 0 (v.inc (SN_CPL_EMPTY d) 1))
  else
    match SMap.get none v.net.joinOut (joinKey d (e.src - 28) (slot - 4)) with
    | some w => (w, v)
    | none => (none', v)

/-- The source end belongs to a fenced churn or join unit: its words are invalid (R394). -/
def sourceFenced (v : Dev) (d src : Nat) : Bool :=
  (decide (12 ≤ src) && decide (src < 20) && v.blockFenced (mBlock d 0 (src % 4)))
    || (decide (28 ≤ src) && v.blockFenced (mBlock d 5 (1 + (src - 28))))

/-- A source end other than memory or a pail gives a coach one word in a slot, to every sink it feeds there (R242). Each entry stamps its
own TAG on a word that does not come from a coupling or a join unit (R245). -/
def readSource (env : Env) (d g : Nat) (f : Frame) (e : TEntry) (r i slot : Nat) (v : Dev) : TWord × Dev :=
  let at' := slotTime v d f slot
  match v.net.recentTake.find? (fun x => x.die == d && x.coach == g && x.src == e.src && x.at' == at') with
  | some x => (if e.src < 24 then { x.word with tag := e.tag } else x.word, v)
  | none =>
    let x := takeSource env d g f e r i slot v
    let x := if sourceFenced v d e.src then ({ x.1 with valid := false }, x.2) else x
    if e.src < 16 then x
    else (x.1, x.2.modNet (fun n => { n with recentTake := ⟨d, g, e.src, at', x.1⟩ :: n.recentTake.filter (fun y => y.die != d || y.at' == at') }))

/-- The word reaches its sink (R257). -/
def writeSink (env : Env) (d g : Nat) (f : Frame) (e : TEntry) (r i slot : Nat) (w : TWord) (v : Dev) : Dev :=
  let a := snkAddrOf e r i
  if e.snk < 4 then
    if w.valid && portServes v d g a e.snkPort then
      let v := countBank d (bankOfWord v d a).1 (VAT_BANK_SCHED_LO d) (VAT_BANK_SCHED_HI d) v
      vatWrite d (chkCycle (slotTime v d f slot)) e.snkPort (vatMem d (a * 128)) (leBytes 128 w.data) v
    else v
  else if e.snk < 10 then
    let p := 2 * d + (e.snk - 8)
    let a := frRebase v p f.tick a
    if !w.valid then v
    else if frDrops v p f.tick a then v.inc (FR_DROP_WR d (portUnit p)) 1
    else v.stCycle (chkCycle (slotTime v d f slot)) 0 (sramMem p (128 * a)) (leBytes 128 w.data)
  else if e.snk < 20 then v.modChurn d (e.snk - 16) (fun h => { h with wport := h.wport ++ [w] })
  else if e.snk < 24 then
    v.modChurn d (e.snk - 20) (fun h => if 0 < h.skip then { h with skip := h.skip - 1 } else { h with dport := h.dport ++ [w] })
  else if e.snk < 28 then
    match spiDeliver d (a % 16) f.tick slot (a / 16) w v with
    | some v => v
    | none => dlOnce env d g 4 f.tick e.snk 0 v
  else if e.snk < 32 then egressEnter env d (e.snk - 28) g slot w v
  else v.modNet (fun n => { n with joinIn := SMap.set none n.joinIn (joinKey d (e.snk - 32) slot) (some w) })

/-- The CHK time at which the word of a slot is taken from its source: 32 cycles before it from memory, else 4 (R241). -/
def takenAt (v : Dev) (d : Nat) (f : Frame) (src slot : Nat) : Nat := slotTime v d f slot - (if src < 10 then 32000 else 4000)

/-- GUARD is tested in the cycle in which the first word of a round instance is taken from its source (R241, R256). -/
def testGuard (env : Env) (d g : Nat) (f : Frame) (k : Nat) (e : TEntry) (i slot : Nat) (v : Dev) : Dev :=
  if i = 0 ∧ e.guard ∧ ¬ flagBy v d e.waitFlag (takenAt v d f e.src slot) then
    dlOnce env d g 5 f.tick e.snk 0 ((v.inc (SN_GUARD_MISS d) 1).modFrame g (fun f => { f with guarded := k :: f.guarded }))
  else v

/-- After the last word of a round instance whose every word was valid, SIGNAL sends its signal (R256). -/
def sendSignal (env : Env) (d g : Nat) (f : Frame) (k : Nat) (e : TEntry) (i slot : Nat) (v : Dev) : Dev :=
  let ok := match v.frame g with
    | some f => !f.invalid.contains k
    | none => false
  if decide (i = e.lenM1) && e.signal && ok then
    let delay := if e.sigDie = d then 1 else 8 + 40 * hops env v e.sigDie 8 d
    v.modNet (fun n => { n with signals := n.signals ++ [⟨slotTime v e.sigDie f (slot + delay), g, e.sigDie, e.sigIndex, e.sigBarrier⟩] })
  else v

/-- A word of a running frame is taken from its source and delivered to its sink. -/
def deliver (env : Env) (d g : Nat) (f : Frame) (en : Nat) (t : DieTable) (e : TEntry) (r i : Nat) (v : Dev) : Dev :=
  let slot := slotOf t e r i
  let k := instKey d en r
  let v := joinSettle env d g (slot - 3) v
  let v := testGuard env d g f k e i slot v
  let x := readSource env d g f e r i slot v
  let v := x.2
  let guarded := match v.frame g with
    | some f => f.guarded.contains k
    | none => false
  let owned := sinkOwned v d e.snk x.1.coach
  let v := if owned then v
    else raise env { die := d, cls := clsSE, owner := sinkOwner v d e.snk, source := 0x30, master := mBlock d 5 0, access := accCheck, addr := 0,
                     info := x.1.coach % 4 + 4 } (v.inc (SN_XCOACH d) 1)
  let valid := x.1.valid && !guarded && owned
  let w : TWord := { x.1 with data := if valid then x.1.data % 2 ^ 1024 else 0, valid := valid }
  let v := v.inc64 (SN_WORDS_LO d) (SN_WORDS_HI d) 1
  let v := if valid then v else (v.inc (SN_EMPTY d) 1).modFrame g (fun f => { f with invalid := k :: f.invalid })
  let v := writeSink env d g f e r i slot w v
  let v := v.modFrame g (fun f => { f with done := SMap.set 0 f.done k (i + 1) })
  sendSignal env d g f k e i slot v

/-- The frame has started on die `d`. -/
def frameOn (v : Dev) (g d : Nat) (f : Frame) : Bool := match (v.gen g).cur with
  | some c => decide (c.n ≠ f.tick) || c.pailedOn.contains d
  | none => true

/-- TT_WORD_DELIVER: word `i` of round `r` of entry `en` of coach `g`'s table on die `d`, in or after its slot and in the entry's order. -/
def ttWord (d g en r i : Nat) (env : Env) (v : Dev) : Dev :=
  match v.frame g, v.table d g with
  | some f, some t =>
    match t.entries[en]? with
    | some e =>
      if e.firstRound ≤ r ∧ r ≤ e.lastRound ∧ i ≤ e.lenM1 ∧ SMap.get 0 f.done (instKey d en r) = i ∧ slotDue env v d f (slotOf t e r i) ∧ frameOn v g d f = true then
        deliver env d g f en t e r i v
      else v
    | none => v
  | _, _ => v

/-! ## Frames (R247 to R249) -/

/-- Separators of a coach. -/
def coachSeps (env : Env) (v : Dev) (g : Nat) : List (Nat × Nat) :=
  (env.dieList.map (fun d => ((List.range 16).filter (fun k => v.sepOwner d k == g)).map (fun k => (d, k)))).flatten

/-- Churns of a coach. -/
def coachChurns (env : Env) (v : Dev) (g : Nat) : List (Nat × Nat) :=
  (env.dieList.map (fun d => ((List.range 4).filter (fun c => v.churnOwner d c == g)).map (fun c => (d, c)))).flatten

/-- Every word of the frame has been delivered, and every churn of the coach has begun every pass of its list, but for fenced ones. -/
def frameDone (env : Env) (v : Dev) (g : Nat) (f : Frame) : Bool :=
  wordsDone env v g f && (coachChurns env v g).all (fun x =>
    let h := v.churn x.1 x.2
    v.fb (CHN_STATUS x.1 x.2) 3 || (h.frameOf == some f.tick && decide (h.list.length ≤ h.pos)) || h.list.isEmpty)

/-- What ends with a frame, however it ends: join outputs still due, and the separators' count of missing elements (R254, R266). -/
def endFrame (env : Env) (g : Nat) (v : Dev) : Dev :=
  let v := env.dieList.foldl (fun v d => joinSettle env d g 0x100000000 v) v
  let v := (coachSeps env v g).foldl (fun v x => spFrameEnd x.1 x.2 v) v
  v.setFrame g none

/-- FRAME_END (R247); the passes of the frame start before it, in the order of the commands (log entry 152). -/
def frameEnd (g : Nat) (env : Env) (v : Dev) : Dev :=
  match v.frame g with
  | some f => if frameDone env v g f then endFrame env g v else v
  | none => v

/-- Join pipelines, coupling buffers and pending signals of a coach are cleared (R249). -/
def clearPipes (env : Env) (g : Nat) (v : Dev) : Dev :=
  let mine (k : Nat) : Bool := sinkOwned v (k / 0x100000000 / 8) (32 + k / 0x100000000 % 8) g
  let mineOut (k : Nat) : Bool := sourceOwned env v (k / 0x100000000 / 8) (28 + k / 0x100000000 % 8) g
  v.modNet (fun n =>
    { n with
      joinIn := n.joinIn.filter (fun e => !mine e.1), joinOut := n.joinOut.filter (fun e => !mineOut e.1),
      egress := n.egress.filter (fun e => e.1 % 4 ≠ g), ingress := n.ingress.filter (fun e => e.1 % 4 ≠ g),
      released := n.released.filter (fun e => e.1 % 4 ≠ g), signals := n.signals.filter (fun s => s.coach ≠ g) })

/-- The tick whose timetable work still runs: words or passes of the frame, or output stages of its passes (R55). -/
def workOf (env : Env) (v : Dev) (g : Nat) : Option Nat := match v.frame g with
  | some f => some f.tick
  | none => ((coachChurns env v g).flatMap (fun x => (v.churn x.1 x.2).due ++ (v.churn x.1 x.2).running)).head?.map (·.tick)

/-- Every die of the coach: those on which it owns resources or has an active table (R249, R486). -/
def diesOf (env : Env) (v : Dev) (g : Nat) : List Nat := env.dieList.filter (fun d => v.ownsOnDie g d || v.table d g != none)

/-- The timetable work of coach `g` still runs at the next pail instant (R55, R249). -/
def abandonFrame (env : Env) (g : Nat) (v : Dev) : Dev :=
  match workOf env v g with
  | none => v
  | some n =>
    let v := if v.frame g = none then v else endFrame env g v
    let v := clearPipes env g v
    let v := (coachChurns env v g).foldl (fun v x => dropWork x.1 x.2 v) v
    let v := (diesOf env v g).foldl (fun v d => (clearFlags g v d).inc (SN_ABANDON d) 1) v
    let v := v.inc (TG_TT_ABANDON env.master g) 1
    raiseDL env g 0x13 n 0 v

/-- An armed swap: the inactive tables and pass lists become active on every die (R248). -/
def swapTables (env : Env) (g : Nat) (v : Dev) : Dev :=
  let v := env.dieList.foldl (fun v d =>
    let a := SMap.get none v.net.active (d * 4 + g)
    let b := SMap.get none v.net.inactive (d * 4 + g)
    let v := v.modNet (fun n =>
      { n with active := SMap.set none n.active (d * 4 + g) b, inactive := SMap.set none n.inactive (d * 4 + g) a })
    let v := (List.range 64).foldl (fun v i =>
      v.setF (SN_BAR d (64 * g + i)) 16 16 (match b with
        | some t => fldN (t.barriers.getD i 0) 0 16
        | none => 0)) v
    v.setB (SN_STATUS d) g (!v.fb (SN_STATUS d) g)) v
  let v := (coachChurns env v g).foldl (fun v x =>
    v.modChurn x.1 x.2 (fun h => { h with list := h.listNext, listNext := h.list })) v
  v.modNet (fun n => { n with armed := SMap.set none n.armed g none })

/-- The frame of tick `n` begins at time `start` (R247). -/
def frameBegin (env : Env) (g n start : Nat) (v : Dev) : Dev := (clearPipes env g v).setFrame g (some ⟨n, start, [], [], [], []⟩)

/-- The frame of tick `n` starts at the separators and churns of a die. -/
def frameStartOn (env : Env) (g n d : Nat) (v : Dev) : Dev :=
  let v := ((coachSeps env v g).filter (fun x => x.1 == d)).foldl (fun v x => spFrameStart env x.1 x.2 n v) v
  ((coachChurns env v g).filter (fun x => x.1 == d)).foldl (fun v x => churnFrame x.1 x.2 n v) v

/-- A coach without an entry in its tables or a pass in its lists has no work, so its frame ends once it has started on every die. -/
def frameEmpty (env : Env) (g : Nat) (v : Dev) : Dev :=
  match v.frame g with
  | some f => if env.dieList.all (fun d => ((v.table d g).map (fun t => t.entries.isEmpty)).getD true) && frameDone env v g f then endFrame env g v else v
  | none => v

def execTtWordDeliver (d : Fin 8) (g : Fin 4) (en : Fin 1024) (r : Fin 65536) (i : Fin 4096) (s : State) :
    Host.Outcome State Fault Refusal :=
  .next (s.onClk d.val 0 (ttWord d.val g.val en.val r.val i.val))
def execCouplingRelease (d : Fin 8) (edge g : Fin 4) (s : State) : Host.Outcome State Fault Refusal :=
  .next (s.onDev (couplingRelease d.val edge.val g.val))
def execBarrierSignal (k : Nat) (s : State) : Host.Outcome State Fault Refusal := .next (s.onDev (barrierSignal k))
def execFlagsClear (g : Fin 4) (s : State) : Host.Outcome State Fault Refusal := .next (s.onDev (flagsClear g.val))
def execFrameEnd (g : Fin 4) (s : State) : Host.Outcome State Fault Refusal := .next (s.onDev (frameEnd g.val))

end Sys2Proof.Machine
end

