-- ==== Sys2Proof/Machine/BlockRegs.lean ====
section
/-! DEFINITION. Writes to the registers and tables of churns, separators and frame units by offset in their block (R10, R211, R218, R219,
R224, R286, R289). -/
namespace Sys2Proof.Machine

open Sys2Proof

/-- PAIL_CTRL: MODE only while EN is 0; EN is checked when it goes from 0 to 1 (R211). -/
def pailCtrlWrite (env : Env) (d c : Nat) (x : Word) (v : Dev) : Dev :=
  let r := PAIL_CTRL d c
  if pailOn v d c then
    let v := if pailGraded v d c ≠ bit x 1 then raiseConfig env d (v.churnOwner d c) (mBlock d 1 c) r v else v
    v.setB r 0 (bit x 0)
  else
    let v := v.setB r 1 (bit x 1)
    if bit x 0 then pailEnable d c v else v

/-- A word of a pail's gather table: only while EN is 0 (R211). -/
def pailGatherWrite (env : Env) (d c : Nat) (r : Reg) (x : Word) (v : Dev) : Dev :=
  if pailOn v d c then raiseConfig env d (v.churnOwner d c) (mBlock d 1 c) r v else v.wr r x

/-- A write at an offset of a churn's block, once it reaches the churn. -/
def churnPageWrite (env : Env) (d c off : Nat) (x : Word) (v : Dev) : Dev :=
  let r := dieReg d (0x60000 + 0x10000 * c + off)
  if off = 0 then if bit x 0 then v.clearRegs (chnCounters d c) else v
  else if off = 0xC then mseWinWrite d c x v
  else if off = 0x40 then pailCtrlWrite env d c x v
  else if 0x100 ≤ off ∧ off < 0x140 then seedWrite d c ((off - 0x100) / 4) x v
  else if 0x4000 ≤ off ∧ off < 0x8000 then pailGatherWrite env d c r x v
  else plainWrite r x v

/-- A write at an offset of a separator's block, once it reaches the separator (R286). -/
def sepPageWrite (env : Env) (d k off : Nat) (x : Word) (v : Dev) : Dev :=
  let r := dieReg d (0xC0000 + 0x4000 * k + off)
  let locked := off = 4 ∨ (0x800 ≤ off ∧ off < 0x1000) ∨ (0x2000 ≤ off ∧ off < 0x3000)
  if off = 0 then spCtrlWrite env d k x v
  else if off = 0xC then spSeedWrite d k x v
  else if locked ∧ v.fb (SP_CTRL d k) 0 = true then raiseConfig env d (v.sepOwner d k) (mBlock d 2 k) r v
  else plainWrite r x v

/-- A write at an offset of the block of port `p`'s frame unit, once it reaches the unit: while EN is 1 no register but FR_CTRL is written
(R286). -/
def framePageWrite (env : Env) (p off : Nat) (x : Word) (v : Dev) : Dev :=
  let r := dieReg (portDie p) (0x100000 + 0x100 * portUnit p + off)
  if off = 0 then frCtrlWrite env p x v
  else if (regRow r).isSome = true ∧ v.fb (frCtrl p) 0 = true then
    raiseConfig env (portDie p) ((v.fu p).holder.getD 4) (mBlock (portDie p) 3 (portUnit p)) r v
  else plainWrite r x v

/-- A register write of a churn, separator or frame unit: who may make it, then what it does (R229, R289). -/
def blockWrite (env : Env) (who : Party) (d off : Nat) (x : Word) (v : Dev) : Dev :=
  let r := dieReg d off
  if 0x60000 ≤ off ∧ off < 0xA0000 then
    let c := (off - 0x60000) / 0x10000
    chnWrite env who d c r (churnPageWrite env d c ((off - 0x60000) % 0x10000) x) v
  else if 0xC0000 ≤ off ∧ off < 0x100000 then
    let k := (off - 0xC0000) / 0x4000
    spWrite env who d k r (sepPageWrite env d k ((off - 0xC0000) % 0x4000) x) v
  else if 0x100000 ≤ off ∧ off < 0x100200 ∧ d < 2 then
    let p := 2 * d + (off - 0x100000) / 0x100
    frWrite env who p r (framePageWrite env p ((off - 0x100000) % 0x100) x) v
  else v

end Sys2Proof.Machine
end

