-- ==== Sys2Proof/Machine/Phases.lean ====
section
/-! DEFINITION. The phases of a tick (R39, R46, R48 to R57, R86, R146, 02_ticks_and_time.md) and the couplings' modules going down and
being repaired (R154, R158, R252). Stops of a generator stand with the commands they complete. -/
namespace Sys2Proof.Machine

open Sys2Proof

/-! ## The start of a tick (R39, R46) -/

/-- A core's open tick as NC_STATUS shows it. -/
def setOpenTick (n p : Nat) (v : Dev) : Dev := (v.setF (NC_STATUS p) 8 8 n).modCore p (fun k => { k with openTick := n })

/-- Restarted cores of a die rejoin at the tick they were given (R101). -/
def rejoin (g n d : Nat) (v : Dev) : Dev :=
  (v.coachCores g).foldl (fun v e =>
    if pDie e.2 = d ∧ (v.core e.2).joinAt = some n then
      (setOpenTick n e.2 v).modCore e.2 (fun k => { k with joined := true, joinAt := none })
    else v) v

/-- The tick in progress, if any, has passed all its instants. -/
def tickPassed (env : Env) (v : Dev) (t : TickGen) : Bool := match t.cur with
  | some c => c.closed env v && c.pailed env v && c.acted
  | none => true

/-- Records that are made at most once in a tick may be made again: a coach's record of a coupling in discard in its own tick (R154), the
record of a source without a coach, which has no tick of its own, in any (R133; DESIGN CHOICE, log entry 43). -/
def freshRecords (g : Nat) (v : Dev) : Dev :=
  v.modFab (fun b =>
    { b with
      cplRec := b.cplRec.filter (fun x => x ≠ g),
      ifaces := (b.ifaces.map (fun e => (e.1, { e.2 with noCoachRec := false }))).filter (fun e => e.2 != Iface.init) })

/-- What the master does as it begins a tick: TG_TICK and TG_CUR_START, the compare channel and the pins, what a freewheel tick counts and
takes, and the distribution of the next (R37, R40, R43, R46, R66). -/
def masterBegin (env : Env) (g : Nat) (c : CurTick) (v : Dev) : Dev :=
  let m := env.master
  let v := v.wr64 (TG_TICK_LO m g) (TG_TICK_HI m g) (c.n + 1)
  let v := v.wr64 (TG_CUR_START_LO m g) (TG_CUR_START_HI m g) c.start
  let v := pulseCoach env 1 g c.start v
  let v := if c.set.slaved then v else cmpFire env m g c.start v
  let v := if c.free && c.set.slaved then missEdge env g c.n v else v
  if c.set.slaved || (v.gen g).stepping then v
  else showInCompare env g (c.start + c.set.period) (distribute env g (fun _ => c.start + c.set.period) false v)

/-- A die begins the tick, at its start on its own copy (R39). -/
def beginOn (env : Env) (g : Nat) (c : CurTick) (v : Dev) (d : Nat) : Dev :=
  let v := v.modGen g (fun t => { t with cur := t.cur.map (fun c => { c with begun := c.begun ++ [d] }) })
  let v := if v.ownsOnDie g d then v.awake d else v
  let v := if c.first then
      rejoin g c.n d ((v.coachCores g).foldl (fun v e =>
        if pDie e.2 = d ∧ (v.core e.2).joined = true then setOpenTick c.n e.2 v else v) v)
    else v
  let v := ((coachChurns env v g).filter (fun x => x.1 == d)).foldl (fun v x =>
    (mseTick x.1 x.2 v).modChurn x.1 x.2 (fun h => { h with seRec := false })) v
  let v := ((coachSeps env v g).filter (fun x => x.1 == d)).foldl (fun v x => v.modSep x.1 x.2 (fun s => { s with seRec := false })) v
  let v := captureOn env d 0 g c.start v
  if d = env.master then masterBegin env g c v else v

/-- Dies that have reached a time on their own copies and are not in a list. -/
def diesDue (env : Env) (v : Dev) (time : Nat) (done : List Nat) : List Nat :=
  (v.liveDies env).filter (fun d => decide (time ≤ env.nowOf d) && !done.contains d)

/-- The head of the distributed starts becomes the tick in progress once a die has reached it (R39, R40, R46). -/
def takeNext (env : Env) (g : Nat) (v : Dev) : Dev :=
  let t := v.gen g
  match t.next with
  | [] => v
  | x :: rest =>
    if !v.genRuns env g || t.stopReq || !tickPassed env v t || diesDue env v x.start [] = [] then v
    else
      freshRecords g (v.modGen g (fun t =>
        { t with
          next := rest, reactNext := 0, stopReq := decide (t.reactNext = 3),
          cur := some ⟨x.n, x.start, x.set, t.cur == none, x.free, [], [], [], false, none, t.reactNext, false,
            v.rd64 (TG_LATE_LO env.master g) (TG_LATE_HI env.master g), false⟩ }))

/-- TICK_START of coach `g`: every die that has reached the start begins the tick. -/
def tickStart (g : Nat) (env : Env) (v : Dev) : Dev :=
  let v := takeNext env g v
  match (v.gen g).cur with
  | none => v
  | some c => (diesDue env v c.start c.begun).foldl (beginOn env g c) v

/-! ## Close and fire (R48, R51, R52, R86) -/

/-- A die closes the tick: its cores of the coach start their folds (R48). -/
def closeOn (env : Env) (g : Nat) (c : CurTick) (v : Dev) (d : Nat) : Dev :=
  let v := (v.coachCores g).foldl (fun v e =>
    if pDie e.2 = d ∧ (v.core e.2).joined = true ∧ v.enabled e.2 = true ∧ v.still d 1 = false then emission env e.2 (closeCore env e.2 c.n v) else v) v
  let v := captureOn env d 1 g (c.start + c.set.close) (rejoin g (c.n + 1) d v)
  v.modGen g (fun t => { t with cur := t.cur.map (fun c => { c with closedOn := c.closedOn ++ [d] }) })

/-- CLOSE of coach `g`'s tick: every die whose own copy has reached S + TG_CLOSE closes it (R39, R48). -/
def closeTick (g : Nat) (env : Env) (v : Dev) : Dev :=
  match (v.gen g).cur with
  | none => v
  | some c => ((diesDue env v (c.start + c.set.close) c.closedOn).filter (fun d => c.begun.contains d)).foldl (closeOn env g c) v

/-- The group counts of a fire (R183). -/
def groupCounts (f : Fire) : List Nat := (List.range 8).map (fun k => SMap.get 0 f.groups k)

/-- Cycles of a fire by the fan-out entries it emitted (R95, R125). -/
def fireCycles (f : Fire) : Nat := if f.quiet then 4 else 24 + max f.cycles f.sent

/-- A fire ends, every event handed over or dropped: reports, traces, epoch, triggers, held writes, and the events held for the next tick (R57, R72,
R86, R110, R115, R182). -/
def endFire (env : Env) (p : Nat) (f : Fire) (v : Dev) : Dev :=
  let m := env.master
  let g := v.coreOwner p
  let k := v.core p
  let v := closePacket v p
  let v := if g < 4 then
      (v.inc64 (TG_LATE_LO m g) (TG_LATE_HI m g) k.lateN).inc64 (TG_STALE_LO m g) (TG_STALE_HI m g) k.staleN
    else v
  let v := noteCycles (NC_FIRE_CYCLES p) (fireCycles f) v
  let v := v.setB (NC_STATUS p) 6 false
  let v := epochTick env p (decayPre p v)
  let v := fireTriggers p f.tick (groupCounts f) v
  let v := v.modCore p (fun k => { k with fire := none, fresh := false, lateN := 0, staleN := 0 })
  let v := afterFire env p f.tick (stateWriteApply p v)
  match (v.core p).closes with
  | [] => v
  | n :: rest => emission env p (foldCore env p n (v.modCore p (fun k => { k with closes := rest })))

/-- FIRE_END of a core, once its last event and its last pail record have been handed over (R86, R212). -/
def fireEnd (p : Nat) (env : Env) (v : Dev) : Dev :=
  let v := emission env p v
  match (v.core p).fire with
  | none => v
  | some f => if f.out = [] && f.recs.isEmpty then endFire env p f v else v

/-- The fire has not been able to hand an event for EF_EMIT_LIMIT ns; a limit of 0 is disarmed (R146). -/
def emitStalled (env : Env) (v : Dev) (p : Nat) (f : Fire) : Bool :=
  !fireHeld env v p && v.rd (EF_EMIT_LIMIT (pDie p)) != 0 && (match f.stallAt with
    | some t => decide (t + v.rdN (EF_EMIT_LIMIT (pDie p)) ≤ env.nowOf (pDie p))
    | none => false)

/-- EMIT_STALL_LIMIT: a fire that has stalled after `handed` events drops those not yet handed over, and ends, unless pail records wait as
well (R146, R212). -/
def emitStall (p handed : Nat) (env : Env) (v : Dev) : Dev :=
  match (v.core p).fire with
  | none => v
  | some f =>
    if f.out = [] || f.sent != handed || !emitStalled env v p f then v
    else
      let v := v.inc (EF_EMIT_DROP (pDie p)) f.out.length
      let v := raise env { die := pDie p, cls := clsDL, owner := v.coreOwner p, source := 0x15, master := mCore p, access := accEvent,
                           addr := 0, info := f.tick % 0x100000000 } v
      if f.recs.isEmpty then endFire env p { f with out := [] } v
      else closePacket (v.modCore p (fun k => { k with fire := some { f with out := [], stallAt := none } })) p

/-! ## The pail instant (R52 to R55, R214, R247, R248, R279) -/

/-- Cores of a die that overrun in the tick: their fire has not completed (R52, R100). -/
def overruns (v : Dev) (g d : Nat) : List Nat :=
  ((v.coachCores g).map (·.2)).filter (fun p =>
    let k := v.core p
    pDie p == d && v.enabled p && k.joined && !k.fresh && k.fire != none)

/-- The overrun check of a die: each core that overran counts it and sets OVERRAN, and the tick is an overrun tick (R52, R53). -/
def overrunOn (g d : Nat) (v : Dev) : Dev :=
  let l := overruns v g d
  let v := l.foldl (fun v p => (v.inc (NC_OVERRUN p) 1).setB (NC_STATUS p) 7 true) v
  if l = [] then v else v.modGen g (fun t => { t with cur := t.cur.map (fun c => { c with overran := true }) })

/-- Every die has made its check: overrun ticks are counted, and in a run of OVR_LIMIT of them the reaction is taken (R53). -/
def overrunTick (env : Env) (g : Nat) (c : CurTick) (v : Dev) : Dev :=
  let m := env.master
  if !c.overran then v.setF (TG_STATUS m g) 8 8 0
  else
    let v := v.inc (TG_OVR_TICKS m g) 1
    let run := min 255 (v.fd (TG_STATUS m g) 8 8 + 1)
    let limit := v.fd (TG_REACT m g) 8 8
    if limit ≠ 0 ∧ limit ≤ run then
      react env g (v.fd (TG_REACT m g) 0 2) (raiseDL env g 0x10 c.n 0 (v.setF (TG_STATUS m g) 8 8 0))
    else v.setF (TG_STATUS m g) 8 8 run

/-- The pail instant of the tick on a die: the overrun check, pails, separators and the frame unit, and the frame's start (R52, R214, R247,
R279). -/
def pailInstantOn (env : Env) (g : Nat) (c : CurTick) (v : Dev) (d : Nat) : Dev :=
  let v := overrunOn g d v
  let v := ((coachChurns env v g).filter (fun x => x.1 == d)).foldl (fun v x => pailHandOver x.1 x.2 c.n v) v
  let v := ((coachSeps env v g).filter (fun x => x.1 == d)).foldl (fun v x => spPailInstant env x.1 x.2 c.n v) v
  let v := match unitOf v g with
    | some p => if portDie p = d then frPailInstant env g p c.n v else v
    | none => v
  let v := captureOn env d 2 g (c.start + c.set.pail) (frameStartOn env g c.n d v)
  v.modGen g (fun t => { t with cur := t.cur.map (fun c => { c with pailedOn := c.pailedOn ++ [d] }) })

/-- PAIL_INSTANT of coach `g`: every die whose own copy has reached S + TG_PAIL. With the first of them unfinished work is abandoned, an
armed swap is made and the frame begins; with the last the tick's overruns are counted (R53, R55, R247, R248). -/
def pailInstant (g : Nat) (env : Env) (v : Dev) : Dev :=
  match (v.gen g).cur with
  | none => v
  | some c =>
    let l := (diesDue env v (c.start + c.set.pail) c.pailedOn).filter (fun d => c.closedOn.contains d)
    if l = [] then v
    else
      let v := if c.pailedOn = [] then
          let v := abandonFrame env g v
          let v := if swapDue v g c.n then swapTables env g v else v
          frameBegin env g c.n (c.start + c.set.pail) v
        else v
      let v := l.foldl (pailInstantOn env g c) v
      match (v.gen g).cur with
      | some x => if x.pailed env v then frameEmpty env g (overrunTick env g x v) else v
      | none => v

/-! ## Coupling modules (R154, R158, R252): module 0 carries the event fabric, module 1 the timetable network -/

/-- A timetable module goes down at both ends, with a US record for each coach that owns quarters on it. -/
def ttModuleDown (env : Env) (d edge : Nat) (v : Dev) : Dev :=
  match neighbour env.hw.part d edge with
  | none => v
  | some e =>
    let ends := [d * 4 + edge, e * 4 + opposite edge]
    let v := v.modNet (fun n =>
      { n with downMods := n.downMods.filter (fun x => !ends.contains x) ++ ends, pausedMods := n.pausedMods.filter (fun x => !ends.contains x) })
    raiseEach env ((List.range 4).filter (fun g => decide (0 < quarters v d edge g) || decide (0 < quarters v e (opposite edge) g)))
      { die := d, cls := clsUS, owner := 4, source := 0x08, master := mBlock d 13 (edge * 2 + 1), access := accEvent, addr := 0,
        info := edge + 4 } v

/-! ## Frozen shadows (R303) -/

/-- The management path to a die is retraining or down: a coupling of the die route to it is (R310, R154, R158). -/
def pathBroken (env : Env) (v : Dev) (t : Nat) : Nat → Nat → Bool
  | 0, _ => true
  | fuel + 1, d =>
    if d = t then false
    else match nextEdge (drouteOf env v d t % 8) with
      | none => true
      | some e =>
        match neighbour env.hw.part d e with
        | none => true
        | some n => v.fd (EF_CPL_STATUS d e) 1 3 != 1 || pathBroken env v t fuel n

/-- The shadow of die `d` in port `p` is frozen now. -/
def freezes (env : Env) (v : Dev) (p d : Nat) : Bool := v.dieDown.contains d || pathBroken env v d 8 (portDie p)

/-- Shadows that freeze stay frozen until a complete recapture. -/
def noteFrozen (env : Env) (v : Dev) : Dev :=
  (List.range 4).foldl (fun v p =>
    v.modPort p (fun h => { h with frozen := env.dieList.filter (fun d => h.frozen.contains d || freezes env v p d) })) v

/-- COUPLING_DOWN. -/
def couplingDown (d edge mdl : Nat) (env : Env) (v : Dev) : Dev :=
  if mdl = 0 then noteFrozen env (bothEnds env d edge eventModuleDown v) else ttModuleDown env d edge v

/-- LANE_REPAIR: by retraining, at most four times for a module (R158). -/
def laneRepair (d edge mdl : Nat) (env : Env) (v : Dev) : Dev :=
  if mdl = 0 then noteFrozen env (bothEnds env d edge eventModuleRepair v)
  else match neighbour env.hw.part d edge with
    | none => v
    | some e =>
      let n := SMap.get 0 v.net.ttRepairs (d * 4 + edge)
      if 4 ≤ n then ttModuleDown env d edge v
      else
        let ends := [d * 4 + edge, e * 4 + opposite edge]
        v.modNet (fun t =>
          { t with
            ttRepairs := ends.foldl (fun m x => SMap.set 0 m x (n + 1)) t.ttRepairs,
            pausedMods := t.pausedMods.filter (fun x => !ends.contains x) ++ ends })

/-- COUPLING_RETRAIN_DONE: the module carries traffic again (R158, R303). -/
def retrainDone (d edge mdl : Nat) (env : Env) (v : Dev) : Dev :=
  if mdl = 0 then bothEnds env d edge (fun d e v => v.setB (EF_CPL_STATUS d e) 2 false) v
  else match neighbour env.hw.part d edge with
    | none => v
    | some e =>
      let ends := [d * 4 + edge, e * 4 + opposite edge]
      if ends.all (fun x => v.net.pausedMods.contains x) then
        v.modNet (fun t =>
          { t with
            pausedMods := t.pausedMods.filter (fun x => !ends.contains x),
            resumed := ends.foldl (fun m x => SMap.set 0 m x env.now) t.resumed })
      else v

def execTickStart (g : Fin 4) (s : State) : Host.Outcome State Fault Refusal := .next (s.onDev (tickStart g.val))
def execClose (g : Fin 4) (s : State) : Host.Outcome State Fault Refusal := .next (s.onDev (closeTick g.val))
def execFireEnd (p : Phys) (s : State) : Host.Outcome State Fault Refusal := .next (s.onClk (pDie p.idx) 1 (fireEnd p.idx))
def execEmitStallLimit (p : Phys) (handed : Nat) (s : State) : Host.Outcome State Fault Refusal :=
  .next (s.onClk (pDie p.idx) 1 (emitStall p.idx handed))
def execPailInstant (g : Fin 4) (s : State) : Host.Outcome State Fault Refusal := .next (s.onDev (pailInstant g.val))
def execCouplingDown (d : Fin 8) (edge : Fin 4) (mdl : Fin 2) (s : State) : Host.Outcome State Fault Refusal :=
  .next (s.onDev (couplingDown d.val edge.val mdl.val))
def execLaneRepair (d : Fin 8) (edge : Fin 4) (mdl : Fin 2) (s : State) : Host.Outcome State Fault Refusal :=
  .next (s.onDev (laneRepair d.val edge.val mdl.val))
def execCouplingRetrainDone (d : Fin 8) (edge : Fin 4) (mdl : Fin 2) (s : State) : Host.Outcome State Fault Refusal :=
  .next (s.onDev (retrainDone d.val edge.val mdl.val))

end Sys2Proof.Machine
end

