-- ==== Sys2Proof/Machine/Commands.lean ====
section
/-! DEFINITION. How a port carries out commands: form and state checks, lanes, completions (R5 to R8, R329, R332 to R341, R345, R346,
11_commands_and_coaches.md). -/
namespace Sys2Proof.Machine

open Sys2Proof

/-- How a command ends: at once with STATUS, DETAIL and RESULT, or later, with a number that its completion needs. -/
inductive Ans where
  | done (st detail : Nat) (result : List Byte)
  | later (aux : Nat)
  /-- Word by word, as the vats serve the port's dispatcher, with STATUS and DETAIL after the last (R235). -/
  | copying (l : List VatCopy) (st detail : Nat)
  deriving DecidableEq, Repr

/-- The meaning of an opcode for a port: the environment, the port, and the 64 bytes. -/
abbrev Handler := Env → Nat → List Byte → Dev → Ans × Dev

/-- A command that has done what was asked. -/
def okay (v : Dev) : Ans × Dev := (.done stOk 0 [], v)
/-- A command that ends with a code and DETAIL. -/
def fail (st detail : Nat) (v : Dev) : Ans × Dev := (.done st detail [], v)

/-- DETAIL of an offset in the command's buffer (R333). -/
def inBuf (off : Nat) : Nat := 0x80000000 + off

/-! ## The command entry (R332, R346) -/

def opOf (bs : List Byte) : Nat := leAt bs 1 1
def coachByte (bs : List Byte) : Nat := leAt bs 2 1
def coachOf (bs : List Byte) : Nat := coachByte bs % 4

/-- Device-level opcodes; MARCH_RUN and BIST_RUN are device-level with SCOPE 1 (R345). -/
def deviceLevel (bs : List Byte) : Bool :=
  let op := opOf bs
  (decide (0x15 ≤ op) && decide (op ≤ 0x1A)) || ((op == 0x13 || op == 0x14) && leAt bs 8 1 == 1)

/-- Opcodes that the master die's coachman carries out: marked F, and QUERY with WHAT 4 (R335). -/
def byFirmware (bs : List Byte) : Bool :=
  let op := opOf bs
  (decide (0x13 ≤ op) && decide (op ≤ 0x19)) || (op == 0x1A && leAt bs 8 1 == 4)

/-- Parameter fields of an opcode: offset, length in bytes, bits that are not reserved (R346). -/
def cmdFields : Nat → List (Nat × Nat × Nat)
  | 0x01 => [(8, 4, 18), (12, 4, 18), (16, 4, 32), (20, 8, 64)]
  | 0x03 => [(8, 4, 32), (12, 4, 32), (16, 8, 64)]
  | 0x04 => [(8, 4, 32), (12, 8, 64)]
  | 0x05 => [(8, 4, 32), (12, 8, 64)]
  | 0x06 => [(8, 1, 3), (12, 4, 28), (16, 8, 64)]
  | 0x07 => [(8, 8, 64)]
  | 0x08 => [(8, 4, 32), (12, 8, 64)]
  | 0x0A => [(8, 1, 1), (12, 4, 32)]
  | 0x0E => [(8, 1, 8), (12, 4, 18), (16, 4, 18), (20, 8, 64)]
  | 0x0F => [(8, 1, 8), (9, 1, 8), (16, 8, 64), (24, 8, 64)]
  | 0x10 => [(8, 1, 8), (9, 1, 8), (16, 8, 64), (24, 8, 64)]
  | 0x11 => [(8, 4, 18)]
  | 0x12 => [(8, 4, 18), (12, 8, 64)]
  | 0x13 => [(8, 1, 8), (9, 1, 8)]
  | 0x14 => [(8, 1, 8)]
  | 0x15 => [(8, 4, 32), (12, 4, 32), (16, 8, 64)]
  | 0x16 => [(8, 4, 32), (12, 8, 64), (20, 1, 1)]
  | 0x17 => [(8, 1, 1)]
  | 0x18 => [(8, 1, 8), (10, 2, 16)]
  | 0x19 => [(8, 8, 64)]
  | 0x1A => [(8, 1, 8), (9, 1, 8), (16, 8, 64)]
  | 0x1B => [(8, 1, 8), (9, 1, 3), (10, 1, 8), (12, 4, 32)]
  | 0x1C => [(8, 4, 18), (12, 4, 25), (16, 8, 64), (24, 2, 11)]
  | _ => []

/-- The parameter fields of a command: READ_STATE of a vat names a die and an offset of 28 bits (R7, R23, R346). -/
def fieldsOf (bs : List Byte) : List (Nat × Nat × Nat) :=
  if opOf bs = 0x0E ∧ leAt bs 8 1 = 2 then [(8, 1, 8), (12, 4, 3), (16, 4, 28), (20, 8, 64)] else cmdFields (opOf bs)

/-- A field at offset `i` has a reserved bit that is not 0; bits [30:24] of FW_STAGE's image offset are reserved below its top bit. -/
def fieldBroken (bs : List Byte) (f : Nat × Nat × Nat) : Bool :=
  decide (2 ^ f.2.2 ≤ leAt bs f.1 f.2.1) || (opOf bs == 0x16 && f.1 == 8 && fldN (leAt bs 8 4) 24 7 != 0)

/-- The byte or field at an offset breaks a reserved rule (R7). -/
def reservedBroken (bs : List Byte) (i : Nat) : Bool :=
  if i < 2 then false
  else if i = 2 then if deviceLevel bs then coachByte bs != 0 else decide (4 ≤ coachByte bs)
  else if i = 3 then leAt bs 3 1 != 0
  else if i < 8 then false
  else match (fieldsOf bs).find? (fun f => decide (f.1 ≤ i) && decide (i < f.1 + f.2.1)) with
    | some f => f.1 == i && fieldBroken bs f
    | none => leAt bs i 1 != 0

/-- Offset of the first reserved field that is not 0. -/
def reservedAt (bs : List Byte) : Option Nat := (List.range 64).find? (reservedBroken bs)

/-- What completes a command at once, in no lane: VERSION, OPCODE, reserved fields (R5, R7, R335, R346). -/
def formCheck (bs : List Byte) : Option (Nat × Nat) :=
  if leAt bs 0 1 ≠ 2 then some (stRefusedVersion, 0)
  else if opOf bs = 0 ∨ 0x1C < opOf bs then some (stBadOpcode, 0)
  else (reservedAt bs).map (fun o => (stBadParam, o))

/-! ## Coach states (R341) -/

/-- The state that COACH[g].STATE shows: a stop that is asked for shows STOPPING. -/
def coachState (v : Dev) (g : Nat) : CoachState :=
  let s := (v.coach g).state
  if s = .running ∧ (v.gen g).stopReq = true then .stopping else s

/-- The number of a state. -/
def CoachState.code : CoachState → Nat
  | .none => 0
  | .opened => 1
  | .running => 2
  | .stopping => 3
  | .stopped => 4
  | .stepping => 5
  | .closing => 6

/-- The States column of R346 for coach opcodes other than OPEN_COACH, in an open coach. -/
def opAllowed (op : Nat) (s : CoachState) : Bool :=
  match op with
  | 0x03 => s == .opened || s == .running || s == .stopped
  | 0x04 => s == .opened || s == .running || s == .stopped
  | 0x05 => s == .opened || s == .running || s == .stopped
  | 0x0B => s == .opened || s == .stopped
  | 0x0C => s != .opened
  | 0x0D => s == .opened || s == .stopped
  | 0x0F => s == .opened || s == .stopped
  | 0x10 => s == .opened || s == .stopped
  | 0x13 => s == .opened || s == .stopped
  | 0x14 => s == .opened || s == .stopped
  | _ => true

/-- The bring-up port (R15, R299). -/
def Env.bringUpPort (e : Env) : Nat := e.master * 2

/-- Opcodes of the bring-up port alone. -/
def bringUpOnly (bs : List Byte) : Bool :=
  deviceLevel bs && (opOf bs != 0x15 && opOf bs != 0x1A)

/-- The state check of R341, and the ports of R345: a status and DETAIL, or none. -/
def stateCheck (env : Env) (v : Dev) (p : Nat) (bs : List Byte) : Option (Nat × Nat) :=
  if deviceLevel bs then
    if bringUpOnly bs && p != env.bringUpPort then some (stNotOwner, 1) else none
  else
    let g := coachOf bs
    if v.isOpen g then
      if (v.coach g).port ≠ p then some (stNotOwner, 2)
      else if opOf bs = 1 ∨ opAllowed (opOf bs) (coachState v g) = false then some (stBusy, 0)
      else none
    else if opOf bs = 1 then none else some (stClosed, 0)

/-! ## Buffers (R334) -/

/-- Port SRAM below the host page. -/
abbrev hostPage : Nat := 0x1FFE000
abbrev statusPage : Nat := 0x1FFF000

/-- The command, completion and log rings of a port: base and size. -/
def Port.rings (h : Port) : List (Nat × Nat) :=
  (h.bases.zip (h.logs.zip [64, 32, 64])).map (fun x => (x.1, x.2.2 * 2 ^ x.2.1))

/-- Base and size exponent of ring `k`: 0 command, 1 completion, 2 log. -/
def Port.base (h : Port) (k : Nat) : Nat := h.bases.getD k 0
def Port.slots (h : Port) (k : Nat) : Nat := 2 ^ h.logs.getD k 0

/-- A buffer descriptor. -/
structure Buf where
  off : Nat
  len : Nat
  deriving DecidableEq, Repr

def bufAt (bs : List Byte) (o : Nat) : Buf := ⟨leAt bs o 4, leAt bs (o + 4) 4⟩

/-- The rules of R334. -/
def bufOk (v : Dev) (p : Nat) (b : Buf) (written : Bool) : Bool :=
  decide (b.off % 64 = 0) && decide (b.off + b.len ≤ hostPage)
    && (!written || (v.port p).rings.all (fun r => decide (b.len = 0) || !overlaps r (b.off, b.len)))

/-- A little-endian number in a buffer. -/
def bufN (v : Dev) (p : Nat) (b : Buf) (o n : Nat) : Nat := v.ldN (sramMem p (b.off + o)) n

/-- The bytes of a buffer: a dispatcher reads them in cycles in which no host writes them (R237; DESIGN CHOICE, log entry 181). -/
def bufBytes (v : Dev) (p : Nat) (b : Buf) : List Byte := v.ldBytes (sramMem p b.off) b.len

/-! ## Completions (R329, R333, R335) -/

/-- The lane of a command: its coach, or 4 for the device lane. -/
def laneOf (bs : List Byte) : Nat := if deviceLevel bs then 4 else coachOf bs

/-- The alert causes of a port (R315). -/
def setAlert (p cause : Nat) (v : Dev) : Dev := v.setB (HP_ALERT_STAT (portDie p) (portUnit p)) cause true

/-- The 32 bytes of a completion. -/
def completionBytes (r : Running) (st detail : Nat) (result : List Byte) : List Byte :=
  leBytes 1 2 ++ leBytes 1 r.op ++ leBytes 1 st ++ leBytes 1 r.coachByte ++ leBytes 4 r.tag ++ leBytes 4 r.seq ++ leBytes 4 detail
    ++ (result ++ leBytes 16 0).take 16

/-- The CMD_TRACE record of a command of a coach (R408). -/
def cmdTrace (env : Env) (p : Nat) (r : Running) (st : Nat) (v : Dev) : Dev :=
  if r.coach < 4 then
    traceRec (portDie p) r.coach 1 5 (env.nowOf (portDie p))
      (leBytes 1 r.op ++ leBytes 1 st ++ leBytes 1 r.coach ++ leBytes 1 p ++ leBytes 4 r.tag ++ leBytes 8 r.time
        ++ leBytes 8 (env.nowOf (portDie p))) v
  else v

/-- A completion is written to the ring in force, the index advances, and COMP is set. -/
def complete (env : Env) (p : Nat) (r : Running) (st detail : Nat) (result : List Byte) (v : Dev) : Dev :=
  let h := v.port p
  let v := if h.bases = [] then v else
    let v := v.stSram env p (h.base 1 + h.cplProd % h.slots 1 * 32) (completionBytes r st detail result)
    setAlert p 0 (v.modPort p (fun h => { h with cplProd := (h.cplProd + 1) % 0x100000000 }))
  cmdTrace env p r st v

/-- The command as a running one. -/
def runningOf (env : Env) (p : Nat) (c : Cmd) : Running :=
  { op := opOf c.bytes, coach := laneOf c.bytes, coachByte := coachByte c.bytes, tag := leAt c.bytes 4 4, seq := c.seq,
    time := env.nowOf (portDie p), aux := 0 }

def Dev.lane (v : Dev) (p k : Nat) : List Taken := SMap.get [] (v.port p).lanes k
def Dev.setLane (v : Dev) (p k : Nat) (l : List Taken) : Dev :=
  v.modPort p (fun h => { h with lanes := SMap.set [] h.lanes k l })

/-- The port takes and starts commands: IF_STATE is OPEN and it is not lost (R326). -/
def Port.serves (h : Port) : Bool := h.ifState == 1 && h.loss == none

/-! ## The host page (R322) -/

/-- A number in a port's host page. -/
def hostN (v : Dev) (p o n : Nat) : Nat := v.ldN (sramMem p (hostPage + o)) n

/-- The host asks for a device open: OPEN_SEQ has changed since the last (R324). -/
def openPending (v : Dev) (p : Nat) : Bool := (v.port p).openAsked || hostN v p 4 4 != (v.port p).openSeq

/-- The dispatcher of a port runs: OPEN_PORTS has opened the port (R299, R360), and the package is not in HOLD. -/
def dispatching (v : Dev) (p : Nat) : Bool := v.fb (HP_STATUS (portDie p) (portUnit p)) 0 && v.pw.phase != .hold

/-- The coachman of the master die is running, and its fault handler, which carries out the F commands (R335, R400, R407). -/
def Dev.fwUp (v : Dev) (env : Env) : Bool :=
  v.fd (FW_STATUS env.master) 0 2 == 0 && !v.still env.master 3 && !v.tick.halted.contains (env.master * 8 + 1) && !v.fw.compDown.contains (env.master * 2)

/-- A command starts when it heads its lane, nothing of its lane runs, the dispatcher of the port runs with no device open asked for, the
port serves, and firmware runs where it is needed (R324, R335, R450). -/
def startable (env : Env) (v : Dev) (p : Nat) (c : Cmd) (op : Nat) : Bool :=
  let k := laneOf c.bytes
  dispatching v p && !openPending v p && (v.port p).serves && opOf c.bytes == op
    && ((v.lane p k).head?.map (fun t => (t.seq, t.bytes))) == some (c.seq, c.bytes)
    && !(v.port p).running.any (fun r => r.coach == k) && (!byFirmware c.bytes || v.fwUp env)

/-- A command of a port is carried out: it leaves its lane, its coach's state is checked, and it completes or goes on. An identifier out of
range is refused here, after the check of R341, which R8 and R335 leave open (DESIGN CHOICE, log entry 168). -/
def runCommand (op p : Nat) (c : Cmd) (h : Handler) (env : Env) (v : Dev) : Dev :=
  if startable env v p c op then
    let k := laneOf c.bytes
    let v := (v.setLane p k ((v.lane p k).drop 1)).awake (portDie p)
    let r := runningOf env p c
    match stateCheck env v p c.bytes with
    | some x => complete env p r x.1 x.2 [] v
    | none =>
      match h env p c.bytes v with
      | (.done st detail result, v) => complete env p r st detail result v
      | (.later aux, v) => v.modPort p (fun h => { h with running := h.running ++ [{ r with aux := aux }] })
      | (.copying l st detail, v) =>
        v.modPort p (fun h => { h with running := h.running ++ [{ r with copies := l, st := st, detail := detail }] })
  else v

/-- The running command of an opcode in a lane. -/
def Dev.runningOp (v : Dev) (p op k : Nat) : Option Running := (v.port p).running.find? (fun r => r.op == op && r.coach == k)

/-- A command that runs completes. -/
def finish (env : Env) (p op k st detail : Nat) (result : Running → List Byte) (v : Dev) : Dev :=
  match v.runningOp p op k with
  | some r => complete env p r st detail (result r) (v.modPort p (fun h => { h with running := h.running.erase r }))
  | none => v

/-- A command of coach `g` that runs completes. -/
def finishCoach (env : Env) (g op st : Nat) (result : Running → List Byte) (v : Dev) : Dev :=
  finish env (v.coach g).port op g st 0 result v

/-- A command of coach `g` with the opcode runs. -/
def Dev.runs (v : Dev) (g op : Nat) : Option Running := v.runningOp (v.coach g).port op g

end Sys2Proof.Machine
end

