-- ==== Sys2Proof/Machine/CoachOpen.lean ====
section
/-! DEFINITION. Claiming and releasing what a coach owns: OPEN_COACH and CLOSE_COACH (R227, R287, R339 to R343, R412, R414), SET_RANKS
(R22) and SET_PLACEMENT (R347). -/
namespace Sys2Proof.Machine

open Sys2Proof

/-- A step of a claim: a status and DETAIL, or the state with the claim made. -/
abbrev Claim := Except (Nat × Nat) Dev

/-- The claims of a list made in order, until one fails. -/
def claimAll {α : Type} (f : α → Dev → Claim) : List α → Dev → Claim
  | [], v => .ok v
  | x :: xs, v => match f x v with
    | .ok v => claimAll f xs v
    | .error e => .error e

/-- The registers of a window of a die at their reset values. -/
def Dev.resetBlock (v : Dev) (d off len : Nat) : Dev :=
  let lo := (dieReg d off).key
  { v with regs := v.regs.filter (fun e => decide (e.1 < lo) || decide (lo + len ≤ e.1)) }

/-! ## The configuration record (R340, R414) -/

/-- A little-endian number of a configuration record. -/
abbrev Getter := Nat → Nat → Nat

/-- The header of the record: a failing offset, or none. -/
def headerError (get : Getter) : Option Nat :=
  if get 0 1 ≠ 2 then some 0
  else if get 1 1 = 0 ∨ 8 < get 1 1 then some 1
  else if 512 < get 2 2 then some 2
  else if 2 ≤ get 4 1 then some 4
  else (List.range 59).findSome? (fun i => if get (5 + i) 1 ≠ 0 then some (5 + i) else none)

/-- A VSET request: FIRST, LOG2N, claims of P0 and P1. -/
structure VReq where
  first : Nat
  log : Nat
  p0 : Bool
  p1 : Bool
  deriving DecidableEq, Repr

def vreqAt (get : Getter) (o i : Nat) : VReq :=
  let w := get (o + 12 + 4 * i) 4
  ⟨fldN w 0 6, fldN w 6 3, fldN w 9 1 == 1, fldN w 10 1 == 1⟩

/-- Two requests overlap without matching. -/
def VReq.clashes (a b : VReq) : Bool :=
  overlaps (a.first, 2 ^ a.log) (b.first, 2 ^ b.log) && !(a.first == b.first && a.log == b.log)

/-- A die entry at offset `o`: a failing offset, or none. -/
def dieError (env : Env) (get : Getter) (o : Nat) : Option Nat :=
  let vn := get (o + 9) 1
  if env.dies ≤ get o 1 then some o
  else if 16 ≤ get (o + 5) 1 then some (o + 5)
  else if 4 < vn then some (o + 9)
  else if get (o + 10) 2 ≠ 0 then some (o + 10)
  else if get (o + 28) 4 ≠ 0 then some (o + 28)
  else if get (o + 1) 8 = 0 ∧ (List.range vn).all (fun i => !(vreqAt get o i).p0 && !(vreqAt get o i).p1) = true then some o
  else (List.range vn).findSome? (fun i =>
    let w := get (o + 12 + 4 * i) 4
    let q := vreqAt get o i
    if 2048 ≤ w ∨ q.log = 7 ∨ q.first % 2 ^ q.log ≠ 0 ∨ ((List.range i).any (fun j => q.clashes (vreqAt get o j))) = true then
      some (o + 12 + 4 * i)
    else none)

/-- A region request at offset `o`: a status and failing offset, or none. -/
def regionError (env : Env) (p : Nat) (get : Getter) (o : Nat) : Option (Nat × Nat) :=
  let base := get (o + 4) 4
  let len := get (o + 8) 4
  if env.dies ≤ get o 1 then some (stBadParam, o)
  else if 2 ≤ get (o + 1) 1 then some (stBadParam, o + 1)
  else if 8 ≤ get (o + 2) 1 then some (stBadParam, o + 2)
  else if get (o + 3) 1 ≠ 0 then some (stBadParam, o + 3)
  else if base % 4096 ≠ 0 then some (stBadParam, o + 4)
  else if len = 0 ∨ len % 4096 ≠ 0 then some (stBadParam, o + 8)
  else if get (o + 12) 4 ≠ 0 then some (stBadParam, o + 12)
  else if get (o + 1) 1 = 1 then
    if get o 1 ≠ portDie p then some (stNotOwner, o) else if 0x2000000 < base + len then some (stNotOwner, o + 8) else none
  else if 0x10000000 < base + len then some (stBadParam, o + 8)
  else none

/-- Offsets of the die entries and the region requests. -/
def dieEntries (get : Getter) : List Nat := (List.range (get 1 1)).map (fun i => 64 + 32 * i)
def regionRequests (get : Getter) : List Nat := (List.range (get 2 2)).map (fun i => 64 + 32 * get 1 1 + 16 * i)

/-- Die entries after the first that name a die again. -/
def dieTwice (get : Getter) : Option Nat :=
  (dieEntries get).find? (fun o => (dieEntries get).any (fun q => decide (q < o) && get q 1 == get o 1))

/-- The structure of a record of `len` bytes: a status and DETAIL, or none. -/
def recordError (env : Env) (p len : Nat) (get : Getter) : Option (Nat × Nat) :=
  match headerError get with
  | some o => some (stBadParam, inBuf o)
  | none =>
    if len < 64 + 32 * get 1 1 then some (stBadParam, inBuf 1)
    else if len < 64 + 32 * get 1 1 + 16 * get 2 2 then some (stBadParam, inBuf 2)
    else match (dieEntries get).findSome? (dieError env get) with
      | some o => some (stBadParam, inBuf o)
      | none => match dieTwice get with
        | some o => some (stBadParam, inBuf o)
        | none => ((regionRequests get).findSome? (regionError env p get)).map (fun x => (x.1, inBuf x.2))

/-! ## Claims (R339, R340, R411, R414) -/

/-- Bits set in a mask of `n` bits. -/
def bitsOf (mask n : Nat) : List Nat := (List.range n).filter (fun i => fldN mask i 1 == 1)

/-- An end, join unit or quarter with a three-bit owner field, named by the byte of the record at `x.2.2`. -/
def claimField (g : Nat) (x : Reg × Nat × Nat) (v : Dev) : Claim :=
  if v.fd x.1 x.2.1 3 = 7 then .ok (v.setF x.1 x.2.1 3 g) else .error (stNoResource, inBuf x.2.2)

/-- The owner fields of the `n` bits from bit `lo` on of byte `o` of a record: each three bits wide, from bit `first` of a register on. -/
def ownerFields (get : Getter) (r : Reg) (first o lo n : Nat) : List (Reg × Nat × Nat) :=
  (bitsOf (fldN (get o 1) lo n) n).map (fun i => (r, first + 3 * i, o))

/-- The join units that a die entry names. -/
def joinFields (get : Getter) (o : Nat) : List (Reg × Nat × Nat) := ownerFields get (SN_OWN_VWJ (get o 1)) 12 (o + 1) 4 4

/-- The signal-network ends that a die entry names. -/
def endFields (get : Getter) (o : Nat) : List (Reg × Nat × Nat) :=
  let d := get o 1
  ownerFields get (SN_OWN_VR d) 0 (o + 4) 0 8 ++ ownerFields get (SN_OWN_VWJ d) 0 (o + 5) 0 4
    ++ ownerFields get (SN_OWN_SP d) 0 (o + 6) 0 4 ++ ownerFields get (SN_OWN_SP d) 12 (o + 6) 4 4

/-- The coupling quarters that a die entry names. -/
def quarterFields (get : Getter) (o : Nat) : List (Reg × Nat × Nat) :=
  (bitsOf (get (o + 7) 2) 16).map (fun i => (SN_OWN_CPL (get o 1) (i / 4), 3 * (i % 4), o + 7))

/-- A whole churn with its pail. -/
def claimChurn (g o d c : Nat) (v : Dev) : Claim :=
  if v.fb (SEC_BLOCK0 d) c then .error (stSecurity, inBuf (o + 1))
  else if v.churnOwner d c ≠ 4 ∨ v.blockFenced (mBlock d 0 c) = true then .error (stNoResource, inBuf (o + 1))
  else .ok (v.wr (CHN_CTRL d c) (setOwnerField (v.rd (CHN_CTRL d c)) g))

/-- A whole separator. -/
def claimSep (g o d k : Nat) (v : Dev) : Claim :=
  if v.fb (SEC_BLOCK1 d) k then .error (stSecurity, inBuf (o + 2))
  else if v.sepOwner d k ≠ 4 ∨ v.blockFenced (mBlock d 2 k) = true then .error (stNoResource, inBuf (o + 2))
  else .ok (v.wr (SP_CTRL d k) (setOwnerField (v.rd (SP_CTRL d k)) g))

/-- A fenced bank lies in the set (R238). -/
def setFenced (v : Dev) (d first log : Nat) : Bool :=
  v.net.fencedBanks.any (fun x => x / 64 == d && decide (first ≤ x % 64) && decide (x % 64 < first + 2 ^ log))

/-- Ports of a bank set: on a set in force that matches, else on a new set (R233, R340). -/
def claimVset (g d o : Nat) (q : VReq) (v : Dev) : Claim :=
  let e : Nat × Nat := (stNoResource, inBuf o)
  let own (w : Word) : Word :=
    let w := if q.p0 then setFld w 12 3 g else w
    if q.p1 then setFld w 16 3 g else w
  if setFenced v d q.first q.log then .error e
  else match (List.range 16).find? (fun k =>
      let w := v.rd (VAT_SET d k)
      vsValid w && vsFirst w == q.first && vsLog w == q.log) with
    | some k =>
      let w := v.rd (VAT_SET d k)
      let held (port : Nat) : Bool := vsOwner w port != 7 && vsOwner w port != g
      if (q.p0 && held 0) || (q.p1 && held 1) then .error e else .ok (v.wr (VAT_SET d k) (own w))
    | none =>
      if (List.range 16).any (fun k =>
          let w := v.rd (VAT_SET d k)
          vsValid w && overlaps (vsFirst w, 2 ^ vsLog w) (q.first, 2 ^ q.log)) then .error e
      else match (List.range 16).find? (fun k => !vsValid (v.rd (VAT_SET d k))) with
        | some k => .ok (setVatSet d k (own (w32 (q.first + q.log * 64 + 7 * 4096 + 7 * 65536 + 0x80000000))) v)
        | none => .error e

/-- The churns and join units of a die entry. -/
def claimLower (g : Nat) (get : Getter) (o : Nat) (v : Dev) : Claim :=
  let d := get o 1
  let joins := bitsOf (fldN (get (o + 1) 1) 4 4) 4
  if joins.any (fun j => v.fb (SEC_BLOCK0 d) (4 + j)) then .error (stSecurity, inBuf (o + 1))
  else if joins.any (fun j => v.blockFenced (mBlock d 5 (1 + j))) then .error (stNoResource, inBuf (o + 1))
  else match claimAll (claimChurn g o d) (bitsOf (get (o + 1) 1) 4) v with
    | .error e => .error e
    | .ok v => claimAll (claimField g) (joinFields get o) v

/-- The coupling quarters of a die entry: a quarter of a coupling the part does not have is no resource. -/
def claimQuarters (env : Env) (g : Nat) (get : Getter) (o : Nat) (v : Dev) : Claim :=
  if (bitsOf (get (o + 7) 2) 16).any (fun i => (neighbour env.hw.part (get o 1) (i / 4)) == none) then .error (stNoResource, inBuf (o + 7))
  else claimAll (claimField g) (quarterFields get o) v

/-- Everything a die entry claims, in the order of its fields. -/
def claimDie (env : Env) (g : Nat) (get : Getter) (o : Nat) (v : Dev) : Claim :=
  let d := get o 1
  match claimLower g get o v with
  | .error e => .error e
  | .ok v => match claimAll (claimSep g o d) (bitsOf (get (o + 2) 2) 16) v with
    | .error e => .error e
    | .ok v => match claimAll (claimField g) (endFields get o) v with
      | .error e => .error e
      | .ok v => match claimQuarters env g get o v with
        | .error e => .error e
        | .ok v => claimAll (fun i => claimVset g d (o + 12 + 4 * i) (vreqAt get o i)) (List.range (get (o + 9) 1)) v

/-- The SEC_RGN_B word of a new region. -/
def rgnAttrs (space owner readers : Nat) (write share : Bool) : Word :=
  w32 (space + 8 + owner * 16 + readers * 256 + b2n write * 4096 + b2n share * 8192)

/-- A region request: a new entry among 8–63, or a join as reader (R412, R414). Port SRAM offsets count from the die's first port. -/
def claimRegion (g p : Nat) (get : Getter) (o : Nat) (v : Dev) : Claim :=
  let d := get o 1
  let space := get (o + 1) 1
  let flags := get (o + 2) 1
  let base := get (o + 4) 4 + (if space = 1 then portUnit p * 0x2000000 else 0)
  let limit := base + get (o + 8) 4 - 1
  if fldN flags 2 1 = 1 then
    match (List.range 64).find? (fun r =>
        let x := v.rgn d r
        x.valid && !x.secure && x.space == space && x.base == base && x.limit == limit && x.share && fldN flags 0 1 == 0) with
    | some r => .ok (v.setF (SEC_RGN_B d r) (8 + g) 1 1)
    | none => .error (stNoResource, inBuf o)
  else if (List.range 64).any (fun r =>
      let x := v.rgn d r
      x.valid && x.space == space && decide (x.base ≤ limit) && decide (base ≤ x.limit)) then .error (stNoResource, inBuf o)
  else match (List.range 56).find? (fun i => !(v.rgn d (8 + i)).valid) with
    | some i =>
      .ok ((v.wrN (SEC_RGN_A d (8 + i)) (base / 4096 + limit / 4096 * 65536)).wr (SEC_RGN_B d (8 + i))
        (rgnAttrs space g 0 (fldN flags 0 1 == 1) (fldN flags 1 1 == 1)))
    | none => .error (stNoResource, inBuf o)

/-- The port's frame unit. -/
def claimUnit (g p : Nat) (v : Dev) : Claim :=
  if v.fb (SEC_BLOCK0 (portDie p)) (8 + portUnit p) then .error (stSecurity, inBuf 4)
  else if (v.fu p).holder ≠ none then .error (stNoResource, inBuf 4)
  else .ok (v.modFu p (fun f => { f with holder := some g }))

/-- Everything a record claims. -/
def claimRecord (env : Env) (g p : Nat) (get : Getter) (v : Dev) : Claim :=
  match claimAll (claimDie env g get) (dieEntries get) v with
  | .error e => .error e
  | .ok v => match (if get 4 1 = 1 then claimUnit g p v else .ok v) with
    | .error e => .error e
    | .ok v => claimAll (claimRegion g p get) (regionRequests get) v

/-! ## OPEN_COACH (R342) -/

/-- A core number's range meets an open coach's. -/
def rangeTaken (v : Dev) (lo hi : Nat) : Bool :=
  (List.range 4).any (fun h => v.isOpen h && decide ((v.coach h).rankBase ≤ hi) && decide (lo ≤ (v.coach h).rankLimit))

/-- A claimed core: owned, disabled, its queues closed and its channels disarmed. -/
def ownCore (g : Nat) (v : Dev) (p : Nat) : Dev :=
  let v := coreDisable p v
  let v := v.wr (NC_CTRL p) (setOwnerField (v.rd (NC_CTRL p)) g)
  let v := (List.range 16).foldl (closeQueue p) v
  (List.range 16).foldl (fun v c => v.setB (QM_C_CTRL p c) 0 false) v

/-- The route entries of the coach's numbers and the group entries it owns, in one version, invalid (R149). -/
def dropRoutes (g : Nat) (version : Bool) (v : Dev) : Dev :=
  let k := b2n version
  v.modFab (fun f =>
    { f with
      routes := f.routes.filter (fun e => !(e.1 / 0x40000 == k && v.inRange g (e.1 % 0x40000))),
      groups := f.groups.filter (fun e => !(e.1 / 4096 == k && (e.2.map (·.owner)) == some g)) })

/-- Both timetable buffers of the coach invalid, its pass lists empty, no swap armed, no frame. -/
def dropTables (env : Env) (g : Nat) (v : Dev) : Dev :=
  let v := v.modNet (fun n =>
    { n with
      active := n.active.filter (fun e => e.1 % 4 ≠ g), inactive := n.inactive.filter (fun e => e.1 % 4 ≠ g),
      armed := SMap.set none n.armed g none, frames := SMap.set none n.frames g none,
      signals := n.signals.filter (fun s => s.coach ≠ g) })
  env.dieList.foldl (fun v d => v.setB (SN_STATUS d) g false) v

/-- The coach claims a vat bank that a reset left as it was: by a port of its set, or by a region on the set's words (R454). -/
def claimsBank (v : Dev) (g x : Nat) : Bool :=
  let d := x / 64
  let s := setOfBank v d (x % 64)
  s.2.2.1 == g || s.2.2.2 == g || (List.range 64).any (fun r =>
    let y := v.rgn d r
    y.valid && y.space == 0 && (y.owner == g || fldN y.readers g 1 == 1) && decide (y.base < (s.1 + 2 ^ s.2.1) * 0x400000)
      && decide (s.1 * 0x400000 ≤ y.limit))

/-- Memories held for the bring-up port that the coach claims: cleared for a coach of another port, and held no longer (R454). -/
def takeHeld (env : Env) (g p : Nat) (v : Dev) : Dev :=
  let cores := (v.coachCores g).map (·.2)
  let banks := v.pw.heldBanks.filter (claimsBank v g)
  let u : Dev := { v with pw := { v.pw with
    heldCores := v.pw.heldCores.filter (fun q => !cores.contains q), heldBanks := v.pw.heldBanks.filter (fun x => !claimsBank v g x) } }
  if p = env.bringUpPort then u
  else banks.foldl (fun v x => clearBank (x / 64) (x % 64) v)
    ((v.pw.heldCores.filter (fun q => cores.contains q)).foldl (fun v q => v.clearMem (coreMem q 0) 0x40000) u)

/-- OPEN_COACH with every claim made. -/
def openCoach (env : Env) (g p : Nat) (bs : List Byte) (v : Dev) : Dev :=
  let m := env.master
  let v := v.modCoach g (fun _ =>
    { Coach.init with
      state := .opened, port := p, rankBase := leAt bs 8 4, rankLimit := leAt bs 12 4, rankCount := leAt bs 16 4 })
  let v := takeHeld env g p v
  let v := ((v.coachCores g).map (·.2)).foldl (ownCore g) v
  let v := v.resetBlock m (0x20800 + 0x100 * g) 0x100
  let v := v.modGen g (fun _ => TickGen.init)
  let v := v.setF (CMP_CTRL m g) 28 3 g
  let v := ((v.setB (EF_EPOCH m) g false).setB (EF_EPOCH m) (4 + g) false).setB (EF_EPOCH m) (8 + g) false
  let v := dropTables env g (dropRoutes g true (dropRoutes g false v))
  let v := env.dieList.foldl (fun v d =>
    let v := v.clearRegs ((List.range 7).map (fun c => FC_CNT d g c))
    v.setF (FW_TRACE d g) 24 8 0) v
  setHold env g false v

/-- The operating-point table (R439): VCORE in mV, CHK, NCK, FCK in MHz, churns, cores, VN2-2 budget in W. -/
def oppTable : List (List Nat) := [
  [800, 2200, 1100, 1600, 4, 2048, 266], [760, 2000, 1000, 1600, 4, 2048, 215], [720, 1800, 900, 1400, 4, 2048, 178],
  [680, 1600, 800, 1400, 4, 2048, 140], [640, 1400, 700, 1200, 3, 2048, 108], [600, 1100, 550, 1000, 2, 1536, 72],
  [580, 800, 400, 800, 1, 1024, 44], [550, 550, 275, 800, 1, 512, 32]]
def oppCol (e i : Nat) : Nat := (oppTable.getD e []).getD i 0

/-- A die holds more owned churns, or more owned cores, than an entry allows (R443). -/
def churnsOn (v : Dev) (d : Nat) : Nat := ((List.range 4).filter (fun c => decide (v.churnOwner d c < 4))).length
def coresOn (v : Dev) (d : Nat) : Nat := (((List.range 4).flatMap (fun g => v.coachCores g)).filter (fun e => pDie e.2 == d)).length
def overChurns (v : Dev) (e d : Nat) : Bool := decide (oppCol e 4 < churnsOn v d)
def overCores (v : Dev) (e d : Nat) : Bool := decide (oppCol e 5 < coresOn v d)

/-- DETAIL of a claim above the ceiling entry's limits: the churns of the die entry, else the core numbers. -/
def ceilingDetail (get : Getter) (v : Dev) (e : Nat) : Nat :=
  match (dieEntries get).find? (fun o => overChurns v e (get o 1) && get (o + 1) 1 % 16 != 0) with
  | some o => inBuf (o + 1)
  | none => 8

/-- OPEN_COACH. -/
def openCoachCmd : Handler := fun env p bs v =>
  let g := coachOf bs
  let lo := leAt bs 8 4
  let hi := leAt bs 12 4
  let n := leAt bs 16 4
  let b := bufAt bs 20
  let get : Getter := fun o k => bufN v p b o k
  if env.cores ≤ lo then fail stBadParam 8 v
  else if env.cores ≤ hi ∨ hi < lo then fail stBadParam 12 v
  else if n = 0 ∨ 65536 < n then fail stBadParam 16 v
  else if !bufOk v p b false then fail stBadParam 20 v
  else if b.len < 64 then fail stBadParam 24 v
  else match recordError env p b.len get with
    | some e => fail e.1 e.2 v
    | none =>
      if rangeTaken v lo hi then fail stNoResource 8 v
      else match claimRecord env g p get v with
        | .ok w =>
          let w := openCoach env g p bs w
          let e := v.fd (PM_STATUS env.master) 12 3
          if env.dieList.any (fun d => overChurns w e d || overCores w e d) then fail stNoResource (ceilingDetail get w e) v else okay w
        | .error e =>
          fail e.1 e.2 (if e.1 = stSecurity then
            raiseRegion env (portDie p) 4 (.engine ⟨p % 4, Nat.mod_lt _ (by decide)⟩) accCheck 0 v else v)

/-! ## CLOSE_COACH (R343) -/

/-- A released core: reset, disabled and unowned. -/
def releaseCore (v : Dev) (p : Nat) : Dev :=
  let v := coreReset p v
  let v := coreDisable p v
  let v := v.wr (NC_CTRL p) (setOwnerField (v.rd (NC_CTRL p)) 4)
  (List.range 16).foldl (fun v c => v.setB (QM_C_CTRL p c) 0 false) v

/-- The address of a region's first byte. -/
def rgnMem (d : Nat) (x : Rgn) : Nat := if x.space = 0 then vatMem d x.base else dieSpace d + 0x1000000000 + x.base

/-- A coach leaves a region entry: the lowest-numbered reader follows an owner, without WR; the last user's region is cleared and
released (R343, R414). -/
def leaveRegion (g d : Nat) (v : Dev) (r : Nat) : Dev :=
  let x := v.rgn d r
  if !x.valid || r < 8 then v
  else
    let readers := setFldN x.readers g 1 0
    if x.owner = g then
      match (List.range 4).find? (fun h => fldN readers h 1 == 1) with
      | some h => v.wr (SEC_RGN_B d r) (rgnAttrs x.space h (setFldN readers h 1 0) false x.share)
      | none =>
        let v := v.clearMem (rgnMem d x) (x.limit + 1 - x.base)
        (v.resetReg (SEC_RGN_A d r)).resetReg (SEC_RGN_B d r)
    else v.setF (SEC_RGN_B d r) 8 4 readers

/-- A vat port of the coach is released; a set whose last owned port that was is invalid (R343). -/
def leaveVset (g d : Nat) (v : Dev) (k : Nat) : Dev :=
  let w := v.rd (VAT_SET d k)
  if !vsValid w || !ownsField w g [12, 16] then v
  else
    let w := if vsOwner w 0 = g then setFld w 12 3 7 else w
    let w := if vsOwner w 1 = g then setFld w 16 3 7 else w
    if vsOwner w 0 = 7 ∧ vsOwner w 1 = 7 then setVatSet d k (regReset (VAT_SET d k)) v else v.wr (VAT_SET d k) w

/-- Fields of a register that hold the coach go back to 7. -/
def leaveFields (g : Nat) (lows : List Nat) (r : Reg) (v : Dev) : Dev :=
  lows.foldl (fun v lo => if v.fd r lo 3 = g then v.setF r lo 3 7 else v) v

/-- Everything the coach owns on a die but its cores and its churns, separators and regions. -/
def leaveDie (env : Env) (g : Nat) (v : Dev) (d : Nat) : Dev :=
  let ends := [0, 3, 6, 9, 12, 15, 18, 21]
  let v := (List.range 64).foldl (leaveRegion g d) v
  let v := (List.range 16).foldl (leaveVset g d) v
  let v := leaveFields g ends (SN_OWN_SP d) (leaveFields g ends (SN_OWN_VWJ d) (leaveFields g ends (SN_OWN_VR d) v))
  let v := (List.range 4).foldl (fun v k => leaveFields g [0, 3, 6, 9] (SN_OWN_CPL d k) v) v
  let v := (List.range 64).foldl (fun v c =>
    if d = env.master ∧ c < 4 then (if c = g then v.setF (CMP_CTRL d c) 28 3 7 else v) else leaveFields g [28] (CMP_CTRL d c) v) v
  let v := (List.range 8).foldl (fun v k => leaveFields g [28] (CAP_CTRL d k) v) v
  clearFlags g v d

/-- A pin of the coach is released: TO_CTRL is at its reset value, so the pin is low (R67). -/
def leavePin (env : Env) (g : Nat) (v : Dev) (k : Nat) : Dev :=
  let m := env.master
  if v.fd (TO_OWNER m) (4 * k) 3 = g then
    ((v.setF (TO_OWNER m) (4 * k) 3 7).resetReg (TO_CTRL m k)).modTick (fun t => { t with pulse := SMap.set none t.pulse k none })
  else v

/-- Steps 3 to 7 of R343. -/
def closeCoach (env : Env) (g : Nat) (v : Dev) : Dev :=
  let v := ((v.coachCores g).map (·.2)).foldl releaseCore v
  let v := (coachChurns env v g).foldl (fun v x => churnClear x.1 x.2 v) v
  let v := (coachSeps env v g).foldl (fun v x => spClear x.1 x.2 v) v
  let v := match unitOf v g with
    | some p => frClear p v
    | none => v
  let v := env.dieList.foldl (leaveDie env g) v
  let v := (List.range 4).foldl (leavePin env g) v
  let v := dropTables env g (dropRoutes g true (dropRoutes g false v))
  let v := setHold env g false v
  v.modCoach g (fun _ => Coach.init)

/-- The drain of CLOSE_COACH is over: the close goes on and completes. -/
def closeEnd (env : Env) (g : Nat) (v : Dev) : Dev :=
  let p := (v.coach g).port
  finish env p 0x02 g stOk 0 (fun _ => []) (closeCoach env g v)

/-- The generator has stopped: the coach's traffic is held and drained (R343 step 2). -/
def closeDrain (env : Env) (g : Nat) (v : Dev) : Dev :=
  (setHold env g true v).modCoach g (fun c => { c with state := .closing, closeAt := some env.now })

/-- CLOSE_COACH. -/
def closeCoachCmd : Handler := fun env _ bs v =>
  let g := coachOf bs
  if v.genRuns env g then
    (.later 0, (v.modGen g (fun t => { t with stopReq := true })).modCoach g (fun c => { c with state := .closing }))
  else (.later 0, closeDrain env g v)

/-- CLOSE_DRAIN_LIMIT: EF_DRAIN_LIMIT microseconds have passed since the drain began (R343). -/
def closeDrainLimit (g : Nat) (env : Env) (v : Dev) : Dev :=
  match (v.coach g).closeAt with
  | some t => if t + 1000 * v.rdN (EF_DRAIN_LIMIT env.master) ≤ env.now then closeEnd env g v else v
  | none => v

/-! ## SET_RANKS (R22) -/

/-- Entry `i` of a list of 32-bit core numbers: an error of BAD_PARAM at it, or none. -/
def coreListError (v : Dev) (p g : Nat) (b : Buf) (o i : Nat) : Bool :=
  let x := bufN v p b (o + 4 * i) 4
  decide (0x40000 ≤ x) || !v.inRange g x

/-- SET_RANKS: all entries or none. -/
def setRanksCmd : Handler := fun _ p bs v =>
  let g := coachOf bs
  let first := leAt bs 8 4
  let count := leAt bs 12 4
  let b := bufAt bs 16
  if (v.coach g).rankCount < first + count then fail stBadParam 12 v
  else if !bufOk v p b false then fail stBadParam 16 v
  else if count = 0 then fail stOkEmpty 0 v
  else if b.len < 4 * count then fail stBadParam 12 v
  else match (List.range count).find? (coreListError v p g b 0) with
    | some i => fail stBadParam (inBuf (4 * i)) v
    | none =>
      okay (v.modCoach g (fun c =>
        { c with ranks := (List.range count).foldl (fun m i => SMap.set 0 m (first + i) (bufN v p b (4 * i) 4 + 1)) c.ranks }))

/-! ## SET_PLACEMENT (R347) -/

/-- The physical core of an R131 word, if the part has it. -/
def physOf (env : Env) (x : Nat) : Option Nat :=
  if x % 64 ≤ 32 ∧ x / 0x1000 % 8 < env.dies ∧ x < 0x8000 then some (pMake (x / 0x1000 % 8) (x / 64 % 64) (x % 64)) else none

/-- The R131 word of a physical core. -/
def r131 (p : Nat) : Nat := pDie p * 0x1000 + pTile p * 64 + pSlot p

/-- The spare of a tile is unused: it holds no core number and none was placed on it (R347). -/
def unusedSpare (v : Dev) (p : Nat) : Bool :=
  SMap.get 0 v.place.spare (p / 33) == p + 1 && v.numberOf p == none && !v.place.spareUsed.contains (p / 33)

/-- Core number `n` stands on physical core `p`, alone. -/
def putNumber (n p : Nat) (v : Dev) : Dev :=
  v.modPlace (fun t => { t with place := SMap.set 0 t.place n (p + 1), number := SMap.set 0 t.number p (n + 1),
                                last := SMap.set 0 t.last n (p + 1) })

/-- Physical core `p` holds no number. -/
def takeNumber (p : Nat) (v : Dev) : Dev := v.modPlace (fun t => { t with number := SMap.set 0 t.number p 0 })

/-- One exchange of R347, if it is accepted: a core of a die that is out of service is held in reset as a fenced one is (R363). A number left unplaced last stood on the fenced core it was exchanged to, else on the target
(DEDUCED from R347 and the worked example of chapter 13; entry 120). -/
def exchange (env : Env) (g n p : Nat) (v : Dev) : Option Dev :=
  if v.placeOf n = some p then some v
  else
    let m := v.numberOf p
    let taken := match m with
      | some k => (v.coachOfNumber k).isSome
      | none => false
    if v.isFenced p || unusedSpare v p || taken || !env.hasCore p || decide (3 ≤ v.fd (BU_DIE_STATE env.master) (4 * pDie p) 4) then none
    else
      let q := v.placeOf n
      let v := match q with
        | some q => releaseCore (takeNumber q v) q
        | none => v
      let v := match m with
        | some k => v.modPlace (fun t => { t with place := SMap.set 0 t.place k 0, last := SMap.set 0 t.last k (q.getD p + 1) })
        | none => v
      let v := ownCore g (coreReset p (putNumber n p v)) p
      match m, q with
      | some k, some q => if v.isFenced q then some v else some (putNumber k q v)
      | _, _ => some v

/-- The entries of SET_PLACEMENT: core number, physical core, reserved bits. -/
def placeEntry (v : Dev) (p : Nat) (b : Buf) (i : Nat) : Nat × Nat × Nat :=
  let x := bufN v p b (8 * i) 8
  (fldN x 0 18, fldN x 18 18, fldN x 36 28)

/-- A status for an entry before anything is changed; DETAIL names the byte in which the offending field begins (R333). -/
def placeError (env : Env) (v : Dev) (g p : Nat) (b : Buf) (i : Nat) : Option (Nat × Nat) :=
  let e := placeEntry v p b i
  let earlier (f : Nat × Nat × Nat → Nat) : Bool := (List.range i).any (fun j => f (placeEntry v p b j) == f e)
  if env.cores ≤ e.1 then some (stBadParam, inBuf (8 * i))
  else if physOf env e.2.1 = none then some (stBadParam, inBuf (8 * i + 2))
  else if e.2.2 ≠ 0 then some (stBadParam, inBuf (8 * i + 4))
  else if !v.inRange g e.1 then some (stNotOwner, inBuf (8 * i))
  else if earlier (·.1) then some (stBadParam, inBuf (8 * i))
  else if earlier (·.2.1) then some (stBadParam, inBuf (8 * i + 2))
  else if coachState v g = .running ∧ ((v.placeOf e.1).map v.enabled) = some true then some (stBusy, 0)
  else none

/-- The entries applied in order; none if one is not accepted, with its index. -/
def exchangeAll (env : Env) (g p : Nat) (b : Buf) (v0 : Dev) : List Nat → Dev → Except Nat Dev
  | [], v => .ok v
  | i :: is, v =>
    let e := placeEntry v0 p b i
    match exchange env g e.1 ((physOf env e.2.1).getD 0) v with
    | some v => exchangeAll env g p b v0 is v
    | none => .error i

/-- SET_PLACEMENT. -/
def setPlacementCmd : Handler := fun env p bs v =>
  let g := coachOf bs
  let count := leAt bs 8 4
  let b := bufAt bs 12
  if !bufOk v p b false then fail stBadParam 12 v
  else if count = 0 then fail stOkEmpty 0 v
  else if b.len < 8 * count then fail stBadParam 8 v
  else match (List.range count).findSome? (placeError env v g p b) with
    | some e => fail e.1 e.2 v
    | none => match exchangeAll env g p b v (List.range count) v with
      | .ok w => okay w
      | .error i => fail stNoResource (inBuf (8 * i + 2)) v

/-! ## The commands -/

def execOpenCoach (p : Fin 4) (c : Cmd) (s : State) : Host.Outcome State Fault Refusal :=
  .next (s.onDev (runCommand 0x01 p.val c openCoachCmd))
def execCloseCoach (p : Fin 4) (c : Cmd) (s : State) : Host.Outcome State Fault Refusal :=
  .next (s.onDev (runCommand 0x02 p.val c closeCoachCmd))
def execCloseDrainLimit (g : Fin 4) (s : State) : Host.Outcome State Fault Refusal := .next (s.onDev (closeDrainLimit g.val))
def execSetRanks (p : Fin 4) (c : Cmd) (s : State) : Host.Outcome State Fault Refusal :=
  .next (s.onDev (runCommand 0x03 p.val c setRanksCmd))
def execSetPlacement (p : Fin 4) (c : Cmd) (s : State) : Host.Outcome State Fault Refusal :=
  .next (s.onDev (runCommand 0x04 p.val c setPlacementCmd))

end Sys2Proof.Machine
end

