-- ==== Sys2Proof/Machine/CoreLoad.lean ====
section
/-! DEFINITION. Commands that write and read cores and vats: LOAD_CORES and core records (R348), LOAD_VAT (R235, R346), READ_STATE (R346),
FENCE_CORE and BRING_SPARE (R352), QUEUE_INJECT (R193), and the end of a core reset (R99, R101). -/
namespace Sys2Proof.Machine

open Sys2Proof

/-- SNAP_GEN of a coach increases (R350). -/
def bumpGen (g : Nat) (v : Dev) : Dev := v.modCoach g (fun c => { c with snapGen := (c.snapGen + 1) % 0x100000000 })

/-! ## Core records (R348) -/

/-- The end of a record in its buffer: the next multiple of 64 bytes. -/
def recordSize (v : Dev) (p : Nat) (b : Buf) (o : Nat) : Nat :=
  (64 + bufN v p b (o + 12) 4 + 8 * bufN v p b (o + 20) 2 + 63) / 64 * 64

/-- The core number that a record names, with BY_RANK through the rank table. -/
def recordCore (v : Dev) (g p : Nat) (b : Buf) (o : Nat) : Option Nat :=
  let x := bufN v p b (o + 4) 4
  if fldN (bufN v p b (o + 1) 1) 0 1 = 1 then
    if x < (v.coach g).rankCount then
      match SMap.get 0 (v.coach g).ranks x with
      | 0 => none
      | k + 1 => some k
    else none
  else some x

/-- Form of a record at offset `o`: a failing offset with DETAIL, or none. -/
def recordForm (v : Dev) (p : Nat) (b : Buf) (o : Nat) : Option Nat :=
  if b.len < o + 64 then some 8
  else if bufN v p b o 1 ≠ 2 then some (inBuf o)
  else if 8 ≤ bufN v p b (o + 1) 1 then some (inBuf (o + 1))
  else if bufN v p b (o + 2) 2 ≠ 0 then some (inBuf (o + 2))
  else if bufN v p b (o + 22) 42 ≠ 0 then some (inBuf (o + 22))
  else if 0x40000 < bufN v p b (o + 8) 4 + bufN v p b (o + 12) 4 then some (inBuf (o + 8))
  else if b.len < o + 64 + bufN v p b (o + 12) 4 then some (inBuf (o + 12))
  else if b.len < o + 64 + bufN v p b (o + 12) 4 + 8 * bufN v p b (o + 20) 2 then some (inBuf (o + 20))
  else none

/-- A register pair may not name RESTART, COACH or an offset outside NC, NC_PL and QM, the three blocks of the register page; a write to an
offset of them that no table lists is ignored (R11). That they fill the page, and that an offset is a word's, is DEDUCED (log entry 180). -/
def pairOk (off : Nat) (x : Word) : Bool :=
  decide (off < 0x1000) && off % 4 == 0 && !(off == 0 && (bit x 2 || fld x 8 3 != 0))

/-- One pair is written; a queue's OPEN bit is left to the record's OPEN_QUEUES. -/
def writePair (env : Env) (who : Party) (q : Nat) (v : Dev) (e : Nat × Word) : Dev :=
  if 0x500 ≤ e.1 ∧ e.1 < 0x600 ∧ e.1 % 16 = 0 then corePageWrite env who q e.1 (setBit e.2 0 false) v
  else corePageWrite env who q e.1 e.2 v

/-- The pairs are written in order; one that sets NC_CTRL.ENABLE and fails the check of R70 ends them with its index (R70, R348). -/
def writePairs (env : Env) (who : Party) (q : Nat) : List (Nat × Word) → Nat → Dev → Option Nat × Dev
  | [], _, v => (none, v)
  | e :: es, i, v =>
    let v := writePair env who q v e
    if e.1 = 0 ∧ bit e.2 0 = true ∧ v.enabled q = false then (some i, v) else writePairs env who q es (i + 1) v

/-- The image CRC of the core image header holds (R71): it is the CRC-32 of the bytes of local memory that it covers, which the spec does
not name (log entry 136). -/
def imageOk (v : Dev) (q : Nat) : Bool :=
  let span := Config.imageSpan (v.ldBytes (coreMem q 0) 64)
  v.ldN (coreMem q 8) 4 == crc32 (v.ldBytes (coreMem q (span.1 % 0x40000)) (span.2 % 0x40001))

/-- Queues whose OPEN the pairs set. -/
def pairQueues (l : List (Nat × Word)) : List Nat :=
  (l.filter (fun e => decide (0x500 ≤ e.1) && decide (e.1 < 0x600) && e.1 % 16 == 0 && bit e.2 0)).map (fun e => (e.1 - 0x500) / 16)

/-- The command engine of a port. -/
def engine (p : Nat) : Party := .engine ⟨p % 4, Nat.mod_lt _ (by decide)⟩

/-- Every queue of a list is opened in turn; one that fails its check ends it. -/
def openQueues (env : Env) (q : Nat) : List Nat → Dev → Bool × Dev
  | [], v => (true, v)
  | x :: xs, v =>
    let v := queueOpen env q x v
    if v.qOpen q x then openQueues env q xs v else (false, v)

/-- The data and pairs of a record at offset `o` go to physical core `q`, and a core that it enables has its image CRC checked (R71): the
failing offset, if any, with the core left with ENABLE 0; `queues` says whether queues are opened here. -/
def loadRecord (env : Env) (p : Nat) (b : Buf) (o q : Nat) (queues : Bool) (v : Dev) : Option Nat × Dev :=
  let flags := bufN v p b (o + 1) 1
  let n := bufN v p b (o + 12) 4
  let data := v.ldBytes (sramMem p (b.off + o + 64)) n
  let pairs := (List.range (bufN v p b (o + 20) 2)).map (fun i =>
    (bufN v p b (o + 64 + n + 8 * i) 4, w32 (bufN v p b (o + 68 + n + 8 * i) 4)))
  let v := coreDisable q v
  if crc32 data ≠ bufN v p b (o + 16) 4 then (some (o + 16), v)
  else
    let v := writeCoreMem env q (bufN v p b (o + 8) 4) data v
    match (List.range pairs.length).find? (fun i => !pairOk (pairs.getD i (0, 0)).1 (pairs.getD i (0, 0)).2) with
    | some i => (some (o + 64 + n + 8 * i), v)
    | none =>
      match writePairs env (engine p) q pairs 0 v with
      | (some i, v) => (some (o + 64 + n + 8 * i), v)
      | (none, v) =>
      let v := if fldN flags 1 1 = 1 then coreEnable env q v else v
      if fldN flags 1 1 = 1 ∧ v.enabled q = false then (some (o + 1), v)
      else if v.enabled q = true ∧ imageOk v q = false then (some (o + 1), coreDisable q v)
      else if fldN flags 2 1 = 1 ∧ queues = true then
        match openQueues env q (pairQueues pairs) v with
        | (true, v) => (none, v)
        | (false, v) => (some (o + 1), coreDisable q v)
      else (none, v)

/-- A record of the buffer names a core that has ENABLE 1: records are followed as far as they are in form. -/
def namesEnabled (env : Env) (v : Dev) (g p : Nat) (b : Buf) : Nat → Nat → Bool
  | 0, _ => false
  | n + 1, o => (recordForm v p b o).isNone && (((recordCore v g p b o).any fun k => v.inRange g k && (v.reach env k).any v.enabled)
      || namesEnabled env v g p b n (o + recordSize v p b o))

/-- LOAD_CORES, record by record: earlier records stand (R348). -/
def loadRecords (env : Env) (g p : Nat) (b : Buf) : Nat → Nat → Dev → Ans × Dev
  | 0, _, v => okay v
  | n + 1, o, v =>
    match recordForm v p b o with
    | some d => fail stBadParam d v
    | none =>
      match recordCore v g p b o with
      | none => fail stBadParam (inBuf (o + 4)) v
      | some k =>
        if env.cores ≤ k then fail stBadParam (inBuf (o + 4)) v
        else if !v.inRange g k then fail stNotOwner (inBuf (o + 4)) v
        else match v.reach env k with
          | none => fail stNoResource (inBuf (o + 4)) (raiseAccess env (portDie p) g (engine p) (k * 0x80000) v)
          | some q =>
            let size := recordSize v p b o
            match loadRecord env p b o q true v with
            | (some d, v) => fail stBadParam (inBuf d) v
            | (none, v) => loadRecords env g p b n (o + size) v

/-- LOAD_CORES: while the coach runs, a record of an enabled core makes the command BUSY, and then nothing is done (R336, R346). -/
def loadCoresCmd : Handler := fun env p bs v =>
  let g := coachOf bs
  let count := leAt bs 8 4
  let b := bufAt bs 12
  if !bufOk v p b false then fail stBadParam 12 v
  else if count = 0 then fail stOkEmpty 0 v
  else if coachState v g = .running ∧ namesEnabled env v g p b count 0 = true then fail stBusy 0 v
  else loadRecords env g p b count 0 (bumpGen g v)

/-! ## Vats (R235, R346, R415) -/

/-- A secure region is named: SECURITY and an SE record (R415). -/
def secureFail (env : Env) (p d detail addr : Nat) (v : Dev) : Ans × Dev :=
  fail stSecurity detail (raiseRegion env d 4 (engine p) accCheck addr v)

/-- LOAD_VAT: the buffer's bytes are written word by word in gap slots (R235), each an access of R230. -/
def loadVatCmd : Handler := fun env p bs v =>
  let g := coachOf bs
  let d := leAt bs 8 1
  let a := leAt bs 12 4
  let b := bufAt bs 16
  if env.dies ≤ d then fail stBadParam 8 v
  else if a % 8 ≠ 0 then fail stBadParam 12 v
  else if !bufOk v p b false then fail stBadParam 16 v
  else if b.len = 0 then fail stOkEmpty 0 v
  else if rangeSecure v d 0 a b.len then secureFail env p d 12 (vatMem d a) v
  else if 0x10000000 < a + b.len ∨ rangeReaches v d g 0 a b.len true = false then fail stNotOwner 12 v
  else (.copying [⟨d, a, b.len, some (bufBytes v p b), 0⟩] stOk 0, bumpGen g v)

/-- The command of a port that copies from or to the byte of a vat next, and what it copies there. -/
def copyAt (v : Dev) (p d off : Nat) (write : Bool) : Option (Running × VatCopy) :=
  (v.port p).running.findSome? (fun r => match r.copies with
    | c :: _ => if c.die = d ∧ c.off = off ∧ c.data.isSome = write then some (r, c) else none
    | [] => none)

/-- What is left of a copy after its first `n` bytes. -/
def VatCopy.rest (c : VatCopy) (n : Nat) : VatCopy :=
  { c with off := c.off + n, len := c.len - n, data := c.data.map (fun bs => bs.drop n), dst := c.dst + n }

/-- The bytes of a copy's next access: to the end of its word (R230). -/
def VatCopy.chunk (c : VatCopy) : Nat := min c.len (128 - c.off % 128)

/-- The copies of a command after the first one's next access. -/
def copiesLeft (l : List VatCopy) : List VatCopy := match l with
  | c :: cs => if c.len ≤ c.chunk then cs else c.rest c.chunk :: cs
  | [] => []

/-- The dispatcher makes the next access of a copy in a gap slot, or waits (R235); after the last the command completes. -/
def copyAccess (p : Nat) (r : Running) (c : VatCopy) (env : Env) (v : Dev) : Dev :=
  let who := engine p
  let bank := (bankOfWord v c.die (c.off / 128)).1
  match vatPort env who c.die bank v with
  | none => vatDelay who c.die bank env v
  | some port =>
    let v := vatServe who c.die c.off port (c.data.map (fun bs => bs.take c.chunk)) env v
    let v := if c.data.isSome then v
      else v.stSram env p c.dst (((leBytes 128 (SMap.get 0 v.net.vatRead (partyNum who))).drop (c.off % 128)).take c.chunk)
    let left := copiesLeft r.copies
    if left = [] then complete env p r r.st r.detail [] (v.modPort p (fun h => { h with running := h.running.erase r }))
    else v.modPort p (fun h => { h with running := h.running.map (fun x => if x = r then { x with copies := left } else x) })

/-- VAT_UNSCHED_ACCESS: of a dispatcher, the next access of a command that copies, where one stands at that byte; the bytes are then the
command's. -/
def vatAccess (who : Party) (d off : Nat) (data : Option (List Byte)) (env : Env) (v : Dev) : Dev :=
  match who with
  | .engine p => match copyAt v p.val d off (data != none) with
    | some x => copyAccess p.val x.1 x.2 env v
    | none => vatUnsched who d off data env v
  | _ => vatUnsched who d off data env v

/-! ## READ_STATE (R346) -/

/-- Bits of a core register that read 0: write-only fields (R10). -/
def readMask (r : Reg) : Word :=
  match regRow r with
  | some x => ~~~(w32 x.wo)
  | none => 0

/-- The queue is open and holds entries of a ring: an ADDRESSED queue never does (R169). -/
def ringOpen (v : Dev) (p q : Nat) : Bool := v.qOpen p q && v.qMode p q != 1

/-- The value of a core register as it reads: TRACE_NZ (R124), the per-queue view (R196) and the STATE of a channel whose coach is held
(R191) are computed. -/
def coreRegRead (env : Env) (v : Dev) (p off : Nat) : Word :=
  let r := coreReg p off
  if off = 0x204 then setFld (v.rd r) 16 12 (traceNz v p)
  else if 0x600 ≤ off ∧ off < 0x800 ∧ off % 32 = 0x10 ∧ chanHeld env v p = true then setFld (v.rd r &&& readMask r) 0 2 3
  else if 0x480 ≤ off ∧ off < 0x500 ∧ v.fb (QM_CTRL p) 0 then
    let q := (off - 0x480) / 8
    if off % 8 = 0 then
      w32 ((if ringOpen v p q then qUsed v p q else 0) % 0x20000
        + ((v.core p).slots.filter (fun e => e.1 / 64 == q && e.2 != none)).length * 0x20000)
    else if ringOpen v p q && qUsed v p q != 0 then
      let h := ringRead v p q (v.qRd p q) 32
      w32 (leAt h 4 4 % 0x40000 + leAt h 2 1 % 16 * 0x40000 + leAt h 1 1 % 2 * 0x400000 + 0x800000 + leAt h 3 1 * 0x1000000)
    else 0
  else v.rd r &&& readMask r

/-- Bytes of a core's register page from `off`. -/
def coreRegBytes (env : Env) (v : Dev) (p off n : Nat) : List Byte :=
  (((List.range ((n + 3) / 4)).map (fun i => leBytes 4 (coreRegRead env v p (off + 4 * i)).toNat)).flatten).take n

/-- READ_STATE. -/
def readStateCmd : Handler := fun env p bs v =>
  let g := coachOf bs
  let space := leAt bs 8 1
  let k := leAt bs 12 4
  let o := leAt bs 16 4
  let b := bufAt bs 20
  if 3 ≤ space then fail stBadParam 8 v
  else if space = 2 ∧ env.dies ≤ k then fail stBadParam 12 v
  else if space < 2 ∧ env.cores ≤ k then fail stBadParam 12 v
  else if !bufOk v p b true then fail stBadParam 20 v
  else if space = 0 ∧ 0x40000 < o + b.len then fail stBadParam 16 v
  else if space = 1 ∧ (0x1000 < o + b.len ∨ o % 4 ≠ 0) then fail stBadParam 16 v
  else if b.len = 0 then fail stOkEmpty 0 v
  else if space = 2 then
    if rangeSecure v k 0 o b.len then secureFail env p k 16 (vatMem k o) v
    else if 0x10000000 < o + b.len ∨ rangeReaches v k g 0 o b.len false = false then fail stNotOwner 16 v
    else (.copying [⟨k, o, b.len, none, b.off⟩] stOk 0, v)
  else if !v.inRange g k then fail stNotOwner 12 v
  else match v.reach env k with
    | none =>
      okay ((raise env { die := portDie p, cls := clsIF, owner := g, source := 0x24, master := mParty env (engine p), access := accRead,
                         addr := k * 0x80000 + (if space = 1 then 0x40000 else 0) + o, info := 0 } v).stSram env p b.off
              (List.replicate b.len 0))
    | some q =>
      okay (v.stSram env p b.off (if space = 0 then v.ldBytes (coreMem q o) b.len else coreRegBytes env v q o b.len))

/-! ## FENCE_CORE and BRING_SPARE (R352, R390) -/

/-- FENCE_CORE: RESULT [16] is ALREADY. -/
def fenceCoreCmd : Handler := fun env _ bs v =>
  let g := coachOf bs
  let n := leAt bs 8 4
  if env.cores ≤ n then fail stBadParam 8 v
  else if !v.inRange g n then fail stNotOwner 8 v
  else match v.placeOf n with
    | none => (.done stOk 0 [1], v)
    | some q => if v.isFenced q then (.done stOk 0 [1], v) else okay (fence q v)

/-- The tile of a core number: where it stands, else where it last stood, else where R368 assigns it. -/
def tileOfNumber (v : Dev) (n : Nat) : Nat :=
  match v.placeOf n with
  | some q => q / 33
  | none => match SMap.get 0 v.place.last n with
    | k + 1 => k / 33
    | 0 => n / 2048 * 64 + n % 2048 / 32

/-- The spare that a core number can take. -/
def spareFor (v : Dev) (n : Nat) : Option Nat :=
  match SMap.get 0 v.place.spare (tileOfNumber v n) with
  | 0 => none
  | s + 1 => if unusedSpare v s && !v.isFenced s then some s else none

/-- BRING_SPARE: the number is placed on the spare, the record is loaded, the core is restarted, and its queues are opened; it completes
when the reset ends (log entry 17). -/
def bringSpareCmd : Handler := fun env p bs v =>
  let g := coachOf bs
  let n := leAt bs 8 4
  let b := bufAt bs 12
  if env.cores ≤ n then fail stBadParam 8 v
  else if !v.inRange g n then fail stNotOwner 8 v
  else if !bufOk v p b false then fail stBadParam 12 v
  else if b.len = 0 then fail stBadParam 16 v
  else match recordForm v p b 0 with
    | some d => fail stBadParam (if d = 8 then 16 else d) v
    | none =>
      if recordCore v g p b 0 ≠ some n then fail stBadParam (inBuf 4) v
      else if (v.reach env n).isSome then fail stBusy 0 v
      else match spareFor v n with
        | none => fail stNoResource 8 v
        | some s =>
          let v := match v.placeOf n with
            | some q => takeNumber q v
            | none => v
          let v := (putNumber n s v).modPlace (fun t => { t with spareUsed := s / 33 :: t.spareUsed })
          let v := ownCore g v s
          match loadRecord env p b 0 s false v with
          | (some d, v) => fail stBadParam (inBuf d) v
          | (none, v) =>
            let v := coreReset s v
            let len := bufN v p b 12 4
            let pairs := (List.range (bufN v p b 20 2)).map (fun i =>
              (bufN v p b (64 + len + 8 * i) 4, w32 (bufN v p b (68 + len + 8 * i) 4)))
            if fldN (bufN v p b 1 1) 2 1 = 1 then
              match openQueues env s (pairQueues pairs) v with
              | (true, v) => (.later s, v)
              | (false, v) => fail stBadParam (inBuf 1) (coreDisable s v)
            else (.later s, v)

/-- CORE_RESET_DONE: IN_RESET clears, and a BRING_SPARE of that core completes; FAULTED if the spare was fenced meanwhile (R99, R352,
R393). -/
def coreResetEnds (q : Nat) (env : Env) (v : Dev) : Dev :=
  if !v.fb (NC_STATUS q) 5 then v
  else
    let v := coreResetDone q v
    let g := v.coreOwner q
    match (if g < 4 then v.runs g 0x12 else none) with
    | some r =>
      if r.aux = q then
        finishCoach env g 0x12 (if v.isFenced q then stFaulted else stOk) (fun _ => leBytes 4 (r131 q)) v
      else v
    | none => v

/-! ## QUEUE_INJECT (R193) -/

/-- QUEUE_INJECT: STATUS is the queue's result code. -/
def queueInjectCmd : Handler := fun env p bs v =>
  let g := coachOf bs
  let n := leAt bs 8 4
  let x := w32 (leAt bs 12 4)
  let b := bufAt bs 16
  let need := 32 * (fld x 4 4 + 1)
  if env.cores ≤ n then fail stBadParam 8 v
  else if !bufOk v p b false then fail stBadParam 16 v
  else if 512 < b.len then fail stBadParam 20 v
  else if b.len < need then fail stBadParam 12 v
  else if !v.inRange g n then fail stNotOwner 8 v
  else match v.reach env n with
    | none => fail stNoResource 8 (raiseAccess env (portDie p) g (engine p) (n * 0x80000 + 0x40800) v)
    | some q =>
      let v := (List.range (need / 4)).foldl (fun v i => v.wrN (QM_INJ_DATA q i) (bufN v p b (4 * i) 4)) v
      let v := v.wrN (QM_INJ_OFFSET q) (leAt bs 24 2)
      let v := injGo env q (setBit x 31 true) v
      (.done (v.fd (QM_INJ_STATUS q) 0 8) 0 [], v)

/-! ## The commands -/

def execLoadCores (p : Fin 4) (c : Cmd) (s : State) : Host.Outcome State Fault Refusal :=
  .next (s.onDev (runCommand 0x05 p.val c loadCoresCmd))
def execLoadVat (p : Fin 4) (c : Cmd) (s : State) : Host.Outcome State Fault Refusal :=
  .next (s.onDev (runCommand 0x06 p.val c loadVatCmd))
def execVatUnschedAccess (who : Party) (d : Fin 8) (off : Nat) (data : Option (List Byte)) (s : State) : Host.Outcome State Fault Refusal :=
  .next (s.onClk d.val 0 (vatAccess who d.val off data))
def execReadState (p : Fin 4) (c : Cmd) (s : State) : Host.Outcome State Fault Refusal :=
  .next (s.onDev (runCommand 0x0E p.val c readStateCmd))
def execFenceCore (p : Fin 4) (c : Cmd) (s : State) : Host.Outcome State Fault Refusal :=
  .next (s.onDev (runCommand 0x11 p.val c fenceCoreCmd))
def execBringSpare (p : Fin 4) (c : Cmd) (s : State) : Host.Outcome State Fault Refusal :=
  .next (s.onDev (runCommand 0x12 p.val c bringSpareCmd))
def execQueueInject (p : Fin 4) (c : Cmd) (s : State) : Host.Outcome State Fault Refusal :=
  .next (s.onDev (runCommand 0x1C p.val c queueInjectCmd))
def execCoreResetDone (p : Phys) (s : State) : Host.Outcome State Fault Refusal := .next (s.onClk (pDie p.idx) 1 (coreResetEnds p.idx))

end Sys2Proof.Machine
end

