-- ==== Sys2Proof/Machine/Load.lean ====
section
/-! DEFINITION. LOAD_TIMETABLE: the timetable image, its ten checks and its application (R203, R243 to R246, R248, R485, R486). -/
namespace Sys2Proof.Machine

open Sys2Proof

/-! ## The image (R485) -/

/-- A section of a timetable image: its header's fields, where its data lie in the buffer, and the data. -/
structure Sect where
  kind : Nat
  die : Nat
  unit : Nat
  table : Nat
  first : Nat
  at' : Nat
  data : List Byte
  deriving DecidableEq, Repr

/-- Every byte is 0. -/
def zeros (bs : List Byte) : Bool := bs.all (· == 0)

/-- The sections of an image of `len` bytes, from offset `o`. -/
def sectionsFrom (img : List Byte) (len : Nat) : Nat → Nat → Option (List Sect)
  | 0, _ => some []
  | n + 1, o =>
    let size := leAt img (o + 12) 4
    if len < o + 32 ∨ leAt img o 1 ≠ 2 ∨ zeros ((img.drop (o + 5)).take 3) = false ∨ zeros ((img.drop (o + 16)).take 16) = false
        ∨ len < o + 32 + size then none
    else match sectionsFrom img len n ((o + 32 + size + 31) / 32 * 32) with
      | some l => some (⟨leAt img (o + 1) 1, leAt img (o + 2) 1, leAt img (o + 3) 1, leAt img (o + 4) 1, leAt img (o + 8) 4, o + 32,
                         (img.drop (o + 32)).take size⟩ :: l)
      | none => none

/-- The image header and its sections. -/
def parseImage (img : List Byte) : Option (List Sect) :=
  let len := leAt img 8 4
  let n := leAt img 12 4
  if img.length < 64 ∨ leAt img 0 1 ≠ 2 ∨ leAt img 1 1 ≠ 2 ∨ leAt img 2 2 ≠ 0 ∨ zeros ((img.drop 20).take 44) = false ∨ len < 64
      ∨ img.length < len ∨ n = 0 ∨ 4096 < n ∨ crc32 ((img.take len).drop 64) ≠ leAt img 16 4 then none
  else sectionsFrom img len n 64

/-- Entry size and entries of a table of a CHURN_TABLE or SEP_TABLE section. -/
def tableShape (kind table : Nat) : Nat × Nat :=
  match kind, table with
  | 3, 0 => (8, 4096)
  | 3, 1 => (4, 2048)
  | 3, 2 => (8, 2048)
  | 4, 0 => (16, 128)
  | 4, 1 => (4, 1024)
  | 4, 2 => (8, 512)
  | _, _ => (0, 0)

/-- A register offset that a REG section may write. -/
def regOffsetOk (table off : Nat) : Bool :=
  match table with
  | 0 => off == 0xC || off == 0x40 || (decide (0x100 ≤ off) && decide (off < 0x140) && off % 4 == 0)
  | 1 => off == 0 || off == 4 || off == 0xC
  | 2 => off == 0 || (decide (8 ≤ off) && decide (off ≤ 0x18) && off % 4 == 0)
  | _ => false

/-! ## Die tables (R243 to R245) -/

def parseEntry (bs : List Byte) : TEntry :=
  let f (o n lo len : Nat) : Nat := fldN (leAt bs o n) lo len
  { src := f 1 1 0 6, srcPort := f 1 1 6 1, snk := f 2 1 0 6, snkPort := f 2 1 6 1, guard := f 3 1 0 1 == 1, signal := f 3 1 1 1 == 1,
    start := f 4 2 0 12, lenM1 := f 6 2 0 12, firstRound := leAt bs 8 2, lastRound := leAt bs 10 2, srcAddr := leAt bs 12 4,
    srcStep := leAt bs 16 4, srcRstep := leAt bs 20 4, snkAddr := leAt bs 24 4, snkStep := leAt bs 28 4, snkRstep := leAt bs 32 4,
    tag := f 36 2 0 12, waitFlag := f 38 2 0 12, sigIndex := f 40 4 0 12, sigBarrier := f 40 4 12 1 == 1, sigDie := f 40 4 13 3 }

def parseTable (bs : List Byte) : DieTable :=
  { slots := leAt bs 4 2, roundsM1 := leAt bs 6 2, offset := leAt bs 8 2, imageId := leAt bs 12 4,
    barriers := (List.range 64).map (fun i => leAt bs (64 + 4 * i) 4),
    entries := (List.range (leAt bs 10 2)).map (fun i => parseEntry ((bs.drop (320 + 64 * i)).take 64)) }

/-- The end takes a memory address (R245); else its address and steps must be 0. -/
def srcAddressed (code : Nat) : Bool := decide (code < 10) || (decide (12 ≤ code) && decide (code < 16)) || (decide (20 ≤ code) && decide (code < 24))
def snkAddressed (code : Nat) : Bool := decide (code < 10) || (decide (24 ≤ code) && decide (code < 28))

/-- Ranges and reserved bits of an entry (R245). -/
def entryOk (t : DieTable) (bs : List Byte) (e : TEntry) : Bool :=
  leAt bs 0 1 == 2 && fldN (leAt bs 1 1) 7 1 == 0 && fldN (leAt bs 2 1) 7 1 == 0 && decide (leAt bs 3 1 < 4)
    && decide (leAt bs 4 2 < 4096) && decide (leAt bs 6 2 < 4096) && decide (leAt bs 36 2 < 4096) && decide (leAt bs 38 2 < 4096)
    && decide (leAt bs 40 4 < 65536) && zeros ((bs.drop 44).take 20)
    && (decide (e.src < 10) || (decide (12 ≤ e.src) && decide (e.src < 32)))
    && (decide (e.snk < 4) || e.snk == 8 || e.snk == 9 || (decide (16 ≤ e.snk) && decide (e.snk < 40)))
    && decide (e.start < t.slots) && decide (e.lenM1 < t.slots) && decide (e.firstRound ≤ e.lastRound) && decide (e.lastRound ≤ t.roundsM1)
    && (srcAddressed e.src || (e.srcAddr == 0 && e.srcStep == 0 && e.srcRstep == 0))
    && (snkAddressed e.snk || (e.snkAddr == 0 && e.snkStep == 0 && e.snkRstep == 0))

/-- Check 1 on a DIE_TABLE section. -/
def dieTableOk (env : Env) (g : Nat) (x : Sect) : Bool :=
  let bs := x.data
  let t := parseTable bs
  decide (320 ≤ bs.length) && leAt bs 0 1 == 2 && leAt bs 1 1 == g && leAt bs 2 1 == x.die && env.has x.die && leAt bs 3 1 == 0
    && decide (1 ≤ t.slots) && decide (t.slots ≤ 4096) && decide (t.offset < 4096) && decide (leAt bs 10 2 ≤ 1024)
    && zeros ((bs.drop 16).take 48) && t.barriers.all (fun b => decide (b < 0x10000000)) && decide (320 + 64 * leAt bs 10 2 ≤ bs.length)
    && (List.range t.entries.length).all (fun i => match t.entries[i]? with
      | some e => entryOk t ((bs.drop (320 + 64 * i)).take 64) e
      | none => true)

/-! ## Pass lists (R202, R203) -/

def parsePass (bs : List Byte) : Pass :=
  let f (o n lo len : Nat) : Nat := fldN (leAt bs o n) lo len
  let b (o i : Nat) : Bool := fldN (leAt bs o 1) i 1 == 1
  { mode := f 1 1 0 2, wfmt := b 1 2, afmt := b 1 3, seed := f 1 1 4 2, final := b 1 6, stats := b 1 7, zpIn := leAt bs 2 1,
    outfmt := f 3 1 0 2, odest := b 3 2, rnd := b 3 3, evpay := b 3 4, msrc := b 3 5, outlEn := b 3 6, vcount := f 4 2 0 10 + 1,
    arow := f 6 2 0 10, abank := f 6 2 10 1, rqBase := f 8 2 0 12, zpOut := leAt bs 10 1, evThresh := leAt bs 11 1, evDelay := f 12 1 0 4,
    axonBase := leAt bs 14 2, emitBase := f 16 2 0 11, mword := f 18 2 0 12, mstride := f 20 2 0 12, outlMask := leAt bs 32 16 }

/-- Bits set in a mask of 128. -/
def bitCount (m : Nat) : Nat := ((List.range 128).filter (fun i => fldN m i 1 == 1)).length

/-- The conditions of R203 on a descriptor. -/
def passOk (v : Dev) (d c : Nat) (bs : List Byte) : Bool :=
  let p := parsePass bs
  leAt bs 0 1 == 2 && fldN (leAt bs 3 1) 7 1 == 0 && decide (leAt bs 4 2 < 1024) && decide (leAt bs 6 2 < 2048) && decide (leAt bs 8 2 < 4096)
    && decide (leAt bs 12 1 < 16) && leAt bs 13 1 == 0 && decide (leAt bs 16 2 < 2048) && decide (leAt bs 18 2 < 4096)
    && decide (leAt bs 20 2 < 4096) && zeros ((bs.drop 22).take 10) && zeros ((bs.drop 48).take 16)
    && p.mode != 3 && p.seed != 3
    && decide (p.arow + p.vcount ≤ (if p.wfmt then 512 else 1024))
    && (p.mode == 0 || (p.zpIn == 0 && !p.outlEn))
    && decide (bitCount p.outlMask ≤ (if p.wfmt then 4 else 8))
    && decide (p.rqBase + p.cols ≤ 4096)
    && (!p.odest || (p.outfmt != 3 && p.evThresh != 0 && decide (p.emitBase + p.vcount ≤ 2048)))
    && p.pailOk v d c

/-- The descriptors of a list before its end marker (R201). -/
def passBytes : Nat → List Byte → List (List Byte)
  | 0, _ => []
  | n + 1, bs => if bs.length < 64 ∨ leAt bs 0 1 = 0 then [] else bs.take 64 :: passBytes n (bs.drop 64)

def passList (x : Sect) : List Pass := (passBytes 1024 x.data).map parsePass

/-! ## Check 1 -/

def sectOk (env : Env) (v : Dev) (g : Nat) (x : Sect) : Bool :=
  decide (x.die < 8) &&
  match x.kind with
  | 1 => x.unit == 0 && x.table == 0 && x.first == 0 && dieTableOk env g x
  | 2 => decide (x.unit < 4) && x.table == 0 && x.first == 0 && x.data.length % 64 == 0 && decide (x.data.length ≤ 65536)
      && (passBytes 1024 x.data).all (passOk v x.die x.unit)
  | 3 | 4 =>
    let s := tableShape x.kind x.table
    decide (x.unit < (if x.kind = 3 then 4 else 16)) && decide (x.table < 3) && x.data.length % s.1 == 0
      && decide (x.first + x.data.length / s.1 ≤ s.2)
  | 5 => decide (x.table < 3) && decide (x.unit < [4, 16, 2].getD x.table 0) && x.first == 0 && x.data.length % 8 == 0
      && (List.range (x.data.length / 8)).all (fun i => regOffsetOk x.table (leAt x.data (8 * i) 4))
  | _ => false

/-- At most one die table for a die and one pass list for a churn. -/
def noRepeats (l : List Sect) : Bool :=
  let keys := (l.filter (fun x => decide (x.kind ≤ 2))).map (fun x => x.kind * 64 + x.die * 8 + x.unit)
  decide (keys.Nodup)

/-! ## Word moves -/

/-- The delivery of one word that a die table schedules (R245). -/
structure Move where
  die : Nat
  e : TEntry
  slot : Nat
  src : Int
  snk : Int
  deriving DecidableEq, Repr

def signedAt (addr step rstep first r i : Nat) : Int :=
  stepped addr step i + toSigned 32 rstep * ((r - first : Nat) : Int)

def entryMoves (d : Nat) (t : DieTable) (e : TEntry) : List Move :=
  ((List.range (e.lastRound - e.firstRound + 1)).map (fun k =>
    (List.range (e.lenM1 + 1)).map (fun i =>
      (⟨d, e, slotOf t e (e.firstRound + k) i, signedAt e.srcAddr e.srcStep e.srcRstep e.firstRound (e.firstRound + k) i,
        signedAt e.snkAddr e.snkStep e.snkRstep e.firstRound (e.firstRound + k) i⟩ : Move)))).flatten

/-- The die tables of an image, by die. -/
def imageTables (l : List Sect) : List (Nat × DieTable) := (l.filter (fun x => x.kind == 1)).map (fun x => (x.die, parseTable x.data))

def tableMoves (t : Nat × DieTable) : List Move := (t.2.entries.map (entryMoves t.1 t.2)).flatten

/-! ## Check 2: owners (R246) -/

/-- A churn, separator, join unit or frame unit that the secure monitor holds (R415): by end code of a source or sink. -/
def secureEnd (v : Dev) (d code : Nat) (source : Bool) : Bool :=
  if code < 8 then false
  else if code < 10 then v.fb (SEC_BLOCK0 d) (8 + (code - 8))
  else if source then
    if code < 16 then v.fb (SEC_BLOCK0 d) (code - 12)
    else if code < 20 then v.fb (SEC_BLOCK0 d) (code - 16)
    else if 28 ≤ code then v.fb (SEC_BLOCK0 d) (4 + (code - 28)) else false
  else if code < 16 then false
  else if code < 20 then v.fb (SEC_BLOCK0 d) (code - 16)
  else if code < 24 then v.fb (SEC_BLOCK0 d) (code - 20)
  else if 32 ≤ code then v.fb (SEC_BLOCK0 d) (4 + (code - 32) / 2) else false

/-- The unit that a section names: churn, separator or frame unit. -/
def sectUnit (x : Sect) : Nat × Nat :=
  match x.kind with
  | 2 | 3 => (0, x.unit)
  | 4 => (1, x.unit)
  | _ => (x.table, x.unit)

def sectSecure (v : Dev) (x : Sect) : Bool :=
  x.kind != 1 && match sectUnit x with
    | (0, u) => v.fb (SEC_BLOCK0 x.die) u
    | (1, u) => v.fb (SEC_BLOCK1 x.die) u
    | (_, u) => v.fb (SEC_BLOCK0 x.die) (8 + u)

def sectOwned (env : Env) (v : Dev) (g : Nat) (x : Sect) : Bool :=
  env.has x.die && (x.kind == 1 || match sectUnit x with
    | (0, u) => v.churnOwner x.die u == g
    | (1, u) => v.sepOwner x.die u == g
    | (_, u) => decide (x.die < 2) && (v.fu (2 * x.die + u)).holder == some g)

/-- Ends, guard flag and signal target of an entry. -/
def entryOwned (env : Env) (v : Dev) (g d : Nat) (e : TEntry) : Bool :=
  sourceOwned env v d e.src g && sinkOwned v d e.snk g
    && (e.snk < 28 || 32 ≤ e.snk || (neighbour env.hw.part d (e.snk - 28)).isSome)
    && (!e.guard || e.waitFlag / 1024 == g)
    && (!e.signal || (env.has e.sigDie && (if e.sigBarrier then e.sigIndex / 64 == g else e.sigIndex / 1024 == g)))

/-- An address in the range of its end (R245, R265). -/
def addrInRange (code : Nat) (source : Bool) (a : Int) : Bool :=
  let lim : Int := if code < 8 then 2097152 else if code < 10 then 262144 else if source && decide (code < 16) then 512 else 16384
  decide (0 ≤ a) && decide (a < lim)

/-- The bank ports that a move uses: bank, port, bank cycle (+ 32), word, and whether it writes (R234, R241). -/
def bankUses (v : Dev) (m : Move) : List (Nat × Nat × Nat × Nat × Bool) :=
  (if m.e.src < 8 then [((bankOfWord v m.die m.src.toNat).1, m.e.srcPort, m.slot, m.src.toNat, false)] else [])
    ++ (if m.e.snk < 4 then [((bankOfWord v m.die m.snk.toNat).1, m.e.snkPort, m.slot + 32, m.snk.toNat, true)] else [])

/-- The same with the internal port of a port SRAM, which serves PR and PW and stands beyond the vat's banks (R237). -/
def memoryUses (v : Dev) (m : Move) : List (Nat × Nat × Nat × Nat × Bool) :=
  bankUses v m
    ++ (if 8 ≤ m.e.src ∧ m.e.src < 10 then [(1024 + m.e.src, 0, m.slot, m.src.toNat, false)] else [])
    ++ (if 8 ≤ m.e.snk ∧ m.e.snk < 10 then [(1024 + m.e.snk, 0, m.slot + 32, m.snk.toNat, true)] else [])

/-- The separators that a move's SPI and SPO addresses name (R265). -/
def sepsNamed (m : Move) : List (Nat × Nat) :=
  (if 20 ≤ m.e.src ∧ m.e.src < 24 ∧ addrInRange m.e.src true m.src = true then [(m.die, m.src.toNat % 16)] else [])
    ++ (if 24 ≤ m.e.snk ∧ m.e.snk < 28 ∧ addrInRange m.e.snk false m.snk = true then [(m.die, m.snk.toNat % 16)] else [])

/-- Every separator that a move names belongs to the coach. -/
def sepsOwned (v : Dev) (g : Nat) (m : Move) : Bool := (sepsNamed m).all (fun x => v.sepOwner x.1 x.2 == g)

def portsOwned (v : Dev) (g : Nat) (m : Move) : Bool :=
  (decide (8 ≤ m.e.src) || !addrInRange m.e.src true m.src || portOwner v m.die (bankOfWord v m.die m.src.toNat).1 m.e.srcPort == g)
    && (decide (4 ≤ m.e.snk) || !addrInRange m.e.snk false m.snk
      || portOwner v m.die (bankOfWord v m.die m.snk.toNat).1 m.e.snkPort == g)

/-- Flags that the used barriers of a table name belong to the coach. -/
def barrierFlagsOwned (g : Nat) (t : DieTable) : Bool :=
  t.barriers.all (fun b => fldN b 0 16 == 0 || fldN b 16 12 / 1024 == g)

/-! ## Check 3: addresses -/

/-- Space and byte offset of a memory end's word (R245, R413). -/
def spaceOf (code : Nat) (a : Nat) : Nat × Nat := if code < 8 then (0, 128 * a) else (1, (code - 8) * 0x2000000 + 128 * a)

def memReaches (v : Dev) (g d code : Nat) (source : Bool) (a : Int) : Bool :=
  if code < 10 then
    let s := spaceOf code a.toNat
    coachReaches v d g s.1 s.2 (!source)
  else true

def memSecure (v : Dev) (d code : Nat) (a : Int) : Bool :=
  let s := spaceOf code a.toNat
  decide (code < 10) && inSecure v d s.1 s.2

/-- A PW word that lies in the status page, which belongs to the device (R298). -/
def inStatusPage (m : Move) : Bool := (m.e.snk == 8 || m.e.snk == 9) && decide ((statusPage : Int) ≤ 128 * m.snk)

def addrOk (v : Dev) (g : Nat) (m : Move) : Bool :=
  !inStatusPage m && (!srcAddressed m.e.src || (addrInRange m.e.src true m.src && memReaches v g m.die m.e.src true m.src))
    && (!snkAddressed m.e.snk || (addrInRange m.e.snk false m.snk && memReaches v g m.die m.e.snk false m.snk))

def addrSecure (v : Dev) (m : Move) : Bool :=
  (decide (m.e.src < 10) && addrInRange m.e.src true m.src && memSecure v m.die m.e.src m.src)
    || (decide (m.e.snk < 10) && addrInRange m.e.snk false m.snk && memSecure v m.die m.e.snk m.snk)

/-! ## Check 4: conflicts -/

/-- Two moves cannot both be made (R234, R237, R242). -/
def clash (v : Dev) (a b : Move) : Bool :=
  a.die == b.die &&
  ((a.slot == b.slot && (a.e.snk == b.e.snk || (a.e.src == b.e.src && a.src != b.src)))
    || (memoryUses v a).any (fun x => (memoryUses v b).any (fun y =>
      x.1 == y.1 && x.2.1 == y.2.1 && x.2.2.1 == y.2.2.1 && (x.2.2.2.1 != y.2.2.2.1 || x.2.2.2.2 || y.2.2.2.2))))

def noClash (v : Dev) (l : List Move) : Bool := decide (l.Pairwise (fun a b => clash v a b = false))

/-- No two moves of a table clash. One move alone does not: its read comes 32 cycles before its write. -/
def conflictFree (v : Dev) (tables : List (Nat × DieTable)) : Bool := tables.all (fun t => noClash v (tableMoves t))

/-! ## Check 5: pails and non-memory sources (R241, R275) -/

/-- The slots in which the feeding input words of an output word are delivered. -/
def feedSlots (v : Dev) (all : List Move) (d k j : Nat) : List Nat :=
  (all.filter (fun m => m.die == d && decide (24 ≤ m.e.snk) && decide (m.e.snk < 28) && m.snk.toNat % 16 == k
    && (feeding v d k j).contains (m.snk.toNat / 16))).map (·.slot)

def sourceReady (v : Dev) (all : List Move) (m : Move) : Bool :=
  if m.e.src < 10 then true
  else if 20 ≤ m.e.src ∧ m.e.src < 24 then
    let k := m.src.toNat % 16
    let j := m.src.toNat / 16
    decide (4 ≤ m.slot) && (if spLane v m.die k then (feedSlots v all m.die k j).all (fun s => decide (s + 8 ≤ m.slot)) else decide (8 + j ≤ m.slot))
  else decide (4 ≤ m.slot)

/-! ## Check 6: channels (R250 to R252) -/

/-- Numbers in rising order, each once. -/
def insertNat (x : Nat) : List Nat → List Nat
  | [] => [x]
  | y :: l => if x < y then x :: y :: l else if x = y then y :: l else y :: insertNat x l

def sortNat (l : List Nat) : List Nat := l.foldr insertNat []

/-- Release slots of words that enter in the slots given, latest first (R251). -/
def releases (q : Nat) : List Nat → List Nat → List Nat
  | [], rel => rel
  | e :: es, rel =>
    let after := match rel with
      | r :: _ => r + 1
      | [] => 0
    let rate := match rel[10 * q - 1]? with
      | some r => r + 44
      | none => 0
    releases q es (max (max e after) rate :: rel)

/-- No buffer of a channel overflows or is read empty: words enter in `ent` and are released in `rel`; CI takes in `take`. -/
def channelOk (ent rel take : List Nat) : Bool :=
  (List.range ent.length).all (fun j =>
      decide (((List.range j).filter (fun k => decide (ent.getD j 0 ≤ rel.getD k 0))).length < 1024)
        && decide (((List.range j).filter (fun k =>
          decide (rel.getD j 0 + 32 ≤ take.getD k 0) || decide (take.length ≤ k))).length < 1024))
    && (List.range take.length).all (fun m => decide (m < rel.length) && decide (rel.getD m 0 + 32 ≤ take.getD m 0))

/-- The channel of coach `g` on the coupling of die `d` in direction `edge`. -/
def channelFits (env : Env) (v : Dev) (g : Nat) (all : List Move) (d edge : Nat) : Bool :=
  match neighbour env.hw.part d edge with
  | none => true
  | some far =>
    let ent := sortNat ((all.filter (fun m => m.die == d && m.e.snk == 28 + edge)).map (·.slot))
    let take := sortNat ((all.filter (fun m => m.die == far && m.e.src == 24 + opposite edge)).map (fun m => m.slot - 4))
    let rel := (releases (quarters v d edge g) ent []).reverse
    channelOk ent rel take

/-! ## Checks 7 and 8 -/

/-- Every barrier that an entry signals is used (R244, R256). -/
def signalsOk (tables : List (Nat × DieTable)) (e : TEntry) : Bool :=
  !e.signal || !e.sigBarrier || tables.any (fun t => t.1 == e.sigDie && fldN (t.2.barriers.getD (e.sigIndex % 64) 0) 0 16 != 0)

def churnFenced (v : Dev) (d c : Nat) : Bool := v.fb (CHN_STATUS d c) 3 || v.blockFenced (mBlock d 0 c)

/-- The end's churn or join unit is fenced, or its coupling's timetable module is down (R238, R252). -/
def endFenced (env : Env) (v : Dev) (d code : Nat) (source : Bool) : Bool :=
  if code < 12 then false
  else if source then
    if code < 16 then churnFenced v d (code - 12)
    else if code < 20 then churnFenced v d (code - 16)
    else if code < 24 then false
    else if code < 28 then
      match neighbour env.hw.part d (code - 24) with
      | some n => v.net.downMods.contains (n * 4 + opposite (code - 24))
      | none => true
    else v.blockFenced (mBlock d 5 (1 + (code - 28)))
  else if code < 20 then churnFenced v d (code - 16)
  else if code < 24 then churnFenced v d (code - 20)
  else if code < 28 then false
  else if code < 32 then v.net.downMods.contains (d * 4 + (code - 28))
  else v.blockFenced (mBlock d 5 (1 + (code - 32) / 2))

/-- A bank of the set that holds a bank is fenced. -/
def bankSetFenced (v : Dev) (d bank : Nat) : Bool :=
  let s := setOfBank v d bank
  (List.range (2 ^ s.2.1)).any (fun i => v.net.fencedBanks.contains (d * 64 + s.1 + i))

/-! ## Check 10 and application (R486) -/

/-- The register writes that a section stands for: register offset in the die's window, value, and offset in the buffer. -/
def sectWrites (x : Sect) : List (Nat × Word × Nat) :=
  match x.kind with
  | 3 | 4 =>
    let base := if x.kind = 3 then 0x60000 + 0x10000 * x.unit + [0x8000, 0x2000, 0x4000].getD x.table 0
      else 0xC0000 + 0x4000 * x.unit + [0x800, 0x1000, 0x2000].getD x.table 0
    let size := (tableShape x.kind x.table).1
    (List.range (x.data.length / 4)).map (fun i => (base + x.first * size + 4 * i, w32 (leAt x.data (4 * i) 4), x.at' + 4 * i))
  | 5 =>
    let base := [0x60000 + 0x10000 * x.unit, 0xC0000 + 0x4000 * x.unit, 0x100000 + 0x100 * x.unit].getD x.table 0
    (List.range (x.data.length / 8)).map (fun i =>
      (base + leAt x.data (8 * i) 4, w32 (leAt x.data (8 * i + 4) 4), x.at' + 8 * i))
  | _ => []

/-- The control register whose EN governs a write, and the mask of the fields that EN locks in it. -/
def ctrlOf (d off : Nat) : Reg × Nat :=
  if off < 0xA0000 then (dieReg d (off / 0x10000 * 0x10000 + 0x40), 0x2)
  else if off < 0x100000 then (dieReg d (off / 0x4000 * 0x4000), 0x7E)
  else (dieReg d (off / 0x100 * 0x100), 0xFFFFE)

/-- The write is one that EN locks: a gather or channel entry, SP_SHAPE, the areas of a frame unit (R211, R286). -/
def lockedOff (off : Nat) : Bool :=
  if off < 0xA0000 then decide (0x4000 ≤ off % 0x10000) && decide (off % 0x10000 < 0x8000)
  else if off < 0x100000 then
    let o := off % 0x4000
    o == 4 || (decide (0x800 ≤ o) && decide (o < 0x1000)) || (decide (0x2000 ≤ o) && decide (o < 0x3000))
  else off % 0x100 != 0

/-- Check 10, write by write: `m` holds the control registers as the earlier pairs leave them. -/
def writesOk (v : Dev) (d : Nat) : List (Nat × Word × Nat) → SMap Nat → Bool × SMap Nat
  | [], m => (true, m)
  | (off, x, _) :: ws, m =>
    let c := ctrlOf d off
    let cur := SMap.get ((v.rdN c.1) + 1) m c.1.key - 1
    if off = c.1.off then
      if cur % 2 = 1 ∧ (cur &&& c.2) ≠ (x.toNat &&& c.2) then (false, m)
      else writesOk v d ws (SMap.set 0 m c.1.key (((if cur % 2 = 1 then cur &&& c.2 else x.toNat &&& c.2) + x.toNat % 2) + 1))
    else if lockedOff off && cur % 2 == 1 then (false, m)
    else writesOk v d ws m

def allWritesOk (v : Dev) : List Sect → SMap Nat → Bool
  | [], _ => true
  | x :: l, m =>
    match writesOk v x.die (sectWrites x) m with
    | (true, m) => allWritesOk v l m
    | (false, _) => false

/-- The write asks for EN and the block refuses it (R486). -/
def enableFailed (v : Dev) (d : Nat) (w : Nat × Word × Nat) : Bool :=
  let c := ctrlOf d w.1
  w.1 == c.1.off && bit w.2.1 0 && !v.fb c.1 0

/-- The writes of a section in order; the offset of the pair whose enable failed. -/
def applyWrites (env : Env) (who : Party) (d : Nat) : List (Nat × Word × Nat) → Dev → Option Nat × Dev
  | [], v => (none, v)
  | w :: ws, v =>
    let v := blockWrite env who d w.1 w.2.1 v
    if enableFailed v d w then (some w.2.2, v) else applyWrites env who d ws v

def applySections (env : Env) (who : Party) : List Sect → Dev → Option Nat × Dev
  | [], v => (none, v)
  | x :: l, v =>
    match applyWrites env who x.die (sectWrites x) v with
    | (none, v) => applySections env who l v
    | r => r

/-- The inactive buffers of a coach without a table or a pass. -/
def clearInactive (env : Env) (g : Nat) (v : Dev) : Dev :=
  let v := env.dieList.foldl (fun v d => v.modNet (fun n => { n with inactive := SMap.set none n.inactive (d * 4 + g) none })) v
  (coachChurns env v g).foldl (fun v x => v.modChurn x.1 x.2 (fun h => { h with listNext := [] })) v

/-- The image's die tables and pass lists in the inactive buffers (R486). -/
def fillInactive (g : Nat) (l : List Sect) (v : Dev) : Dev :=
  l.foldl (fun v x =>
    if x.kind = 1 then v.modNet (fun n => { n with inactive := SMap.set none n.inactive (x.die * 4 + g) (some (parseTable x.data)) })
    else if x.kind = 2 then v.modChurn x.die x.unit (fun h => { h with listNext := passList x })
    else v) v

/-! ## The checks in order (R246) -/

/-- Checks 2 to 10 on a parsed image: STATUS and the check's number. Check 5 takes the separators as the image's own sections set them: it is
checked together with them (R246). -/
def loadCheck (env : Env) (v : Dev) (who : Party) (g : Nat) (l : List Sect) : Option (Nat × Nat) :=
  let tables := imageTables l
  let entries := (tables.map (fun t => t.2.entries.map (fun e => (t.1, e)))).flatten
  let all := (tables.map tableMoves).flatten
  if l.any (sectSecure v) || entries.any (fun x => secureEnd v x.1 x.2.src true || secureEnd v x.1 x.2.snk false)
      || all.any (fun m => (sepsNamed m).any (fun x => v.fb (SEC_BLOCK1 x.1) x.2)) then some (stSecurity, 2)
  else if !(l.all (sectOwned env v g) && entries.all (fun x => entryOwned env v g x.1 x.2) && tables.all (fun t => barrierFlagsOwned g t.2)
      && all.all (portsOwned v g) && all.all (sepsOwned v g)) then some (stNotOwner, 2)
  else if all.any (addrSecure v) then some (stSecurity, 3)
  else if !all.all (addrOk v g) then some (stNotOwner, 3)
  else if !conflictFree v tables then some (stBadParam, 4)
  else if !all.all (sourceReady (applySections env who l v).2 all) then some (stBadParam, 5)
  else if !env.dieList.all (fun d => (List.range 4).all (channelFits env v g all d)) then some (stBadParam, 6)
  else if !entries.all (fun x => signalsOk tables x.2) then some (stBadParam, 7)
  else if entries.any (fun x => endFenced env v x.1 x.2.src true || endFenced env v x.1 x.2.snk false)
      || l.any (fun x => x.kind != 1 && (sectUnit x).1 == 0 && churnFenced v x.die x.unit)
      || l.any (fun x => x.kind != 1 && (sectUnit x).1 == 1 && v.blockFenced (mBlock x.die 2 x.unit))
      || all.any (fun m => (sepsNamed m).any (fun x => v.blockFenced (mBlock x.1 2 x.2)))
      || all.any (fun m => (bankUses v m).any (fun u => bankSetFenced v m.die u.1)) then some (stNoResource, 8)
  else if tables.any (fun t => decide (67108864 < (t.2.entries.map (fun e => (e.lastRound - e.firstRound + 1) * (e.lenM1 + 1))).sum)) then
    some (stNoResource, 9)
  else if !allWritesOk v l [] then some (stBadParam, 10)
  else none

/-- The register address of a secure unit that an end code names: churn, frame unit or join unit. -/
def endAddr (v : Dev) (d code : Nat) (source : Bool) : Nat :=
  regAddr v (dieReg d (
    if code < 12 then 0x100000 + 0x100 * (code - 8)
    else if code < 16 then 0x60000 + 0x10000 * (code - 12)
    else if code < 20 then 0x60000 + 0x10000 * (code - 16)
    else if source = false ∧ code < 24 then 0x60000 + 0x10000 * (code - 20)
    else 0xA0000))

/-- What an image names that is secure, as the address of its SE record (R381, R415): a section's unit, an end's unit, a separator, or a
word of a secure region. -/
def secureTarget (v : Dev) (l : List Sect) : Nat :=
  let tables := imageTables l
  let entries := (tables.map (fun t => t.2.entries.map (fun e => (t.1, e)))).flatten
  let all := (tables.map tableMoves).flatten
  let sect (x : Sect) : Option Nat :=
    if sectSecure v x then
      some (regAddr v (dieReg x.die ([0x60000 + 0x10000 * x.unit, 0xC0000 + 0x4000 * x.unit, 0x100000 + 0x100 * x.unit].getD (sectUnit x).1 0)))
    else none
  let ends (x : Nat × TEntry) : Option Nat :=
    if secureEnd v x.1 x.2.src true then some (endAddr v x.1 x.2.src true)
    else if secureEnd v x.1 x.2.snk false then some (endAddr v x.1 x.2.snk false) else none
  let sep (m : Move) : Option Nat :=
    ((sepsNamed m).find? (fun x => v.fb (SEC_BLOCK1 x.1) x.2)).map (fun x => regAddr v (dieReg x.1 (0xC0000 + 0x4000 * x.2)))
  let word (m : Move) : Option Nat :=
    let place (code : Nat) (a : Int) : Nat := if code < 8 then vatMem m.die (128 * a.toNat) else sramMem (2 * m.die + (code - 8)) (128 * a.toNat)
    if decide (m.e.src < 10) && addrInRange m.e.src true m.src && memSecure v m.die m.e.src m.src then some (place m.e.src m.src)
    else if addrSecure v m then some (if m.e.snk < 4 then vatMem m.die (128 * m.snk.toNat) else place m.e.snk m.snk) else none
  ((((l.findSome? sect).orElse (fun _ => entries.findSome? ends)).orElse (fun _ => all.findSome? sep)).orElse (fun _ => all.findSome? word)).getD 0

/-- LOAD_TIMETABLE (R246, R248, R486). Where the structure-version byte of the image or a section is wrong, R5 would have its offset as
DETAIL and R333 the number of the failed check: the model gives the number, 1 (DESIGN CHOICE, log entry 167). -/
def loadTimetableCmd : Handler := fun env p bs v =>
  let g := coachOf bs
  let b := bufAt bs 8
  if SMap.get none v.net.armed g ≠ none then fail stBusy 0 v
  else if !bufOk v p b false || b.len == 0 then fail stBadParam 1 (clearInactive env g v)
  else
    let img := bufBytes v p b
    match parseImage img with
    | none => fail stBadParam 1 (clearInactive env g v)
    | some l =>
      if !(l.all (sectOk env v g) && noRepeats l) then fail stBadParam 1 (clearInactive env g v)
      else match loadCheck env v (engine p) g l with
        | some (st, k) =>
          let v := if st = stSecurity then raiseRegion env (portDie p) 4 (engine p) accCheck (secureTarget v l) v else v
          fail st k (clearInactive env g v)
        | none =>
          let v := fillInactive g l (clearInactive env g v)
          match applySections env (engine p) l v with
          | (some o, v) => fail stBadParam (inBuf o) (clearInactive env g v)
          | (none, v) =>
            let id := leAt img 4 4
            let v := bumpGen g (v.modCoach g (fun c => { c with imageId := id }))
            let v := v.modNet (fun n => { n with armed := SMap.set none n.armed g (some none) })
            (.done stOk 0 (leBytes 4 id), if v.genRuns env g then v else swapTables env g v)

def execLoadTimetable (p : Fin 4) (c : Cmd) (s : State) : Host.Outcome State Fault Refusal :=
  .next (s.onDev (runCommand 0x07 p.val c loadTimetableCmd))

end Sys2Proof.Machine
end

