-- ==== Sys2Proof/Machine/Snapshot.lean ====
section
/-! DEFINITION. SNAPSHOT and RESTORE (R349 to R351, R391, R423 to R426). The codes of the section kinds and the layout of the register
image, the separator state and the TG section are not stated (log entry 19). -/
namespace Sys2Proof.Machine

open Sys2Proof

/-! ## Sections (R349) -/

/-- A section before it is written: kind 0–8 in the order of R349, core number or die, offset and data. -/
structure SnapSect where
  kind : Nat
  name : Nat
  off : Nat
  data : List Byte
  deriving DecidableEq, Repr

def SnapSect.bytes (x : SnapSect) : List Byte :=
  [2, Config.snapKind x.kind, 0, 0] ++ leBytes 4 x.name ++ leBytes 4 x.off ++ leBytes 4 x.data.length ++ leBytes 4 (crc32 x.data)
    ++ leBytes 12 0 ++ x.data

/-- Words as little-endian bytes. -/
def wordBytes (l : List Word) : List Byte := (l.map (fun w => leBytes 4 w.toNat)).flatten

/-- The register image of a core: its register page. -/
def coreImage (v : Dev) (q : Nat) : List Byte := wordBytes ((List.range 1024).map (fun i => v.rd (coreReg q (4 * i))))

/-- A part of a core's local memory. -/
def coreSect (v : Dev) (kind n q off len : Nat) : SnapSect := ⟨kind, n, off, v.ldBytes (coreMem q off) len⟩

/-- The sections of core number `n` at physical core `q`. -/
def coreSections (v : Dev) (n q : Nat) : List SnapSect :=
  [coreSect v 0 n q (v.stateOff q 0) (8 * v.neurons q), coreSect v 1 n q (v.axonOff q 0) (8 * v.axons q)]
    ++ (v.plAxons q).map (fun a => coreSect v 2 n q (axRow (v.axonEntry q a)) (axBytes (v.axonEntry q a)))
    ++ [coreSect v 3 n q (v.plBase q) (v.plSize q)]
    ++ ((List.range 16).filter (v.qOpen q)).map (fun k => coreSect v 4 n q (v.qBase q k) (queueBytes v q k))
    ++ [⟨5, n, 0, coreImage v q⟩]

/-- The eight bytes of a separator element's state, by the mode of its channel. -/
def elemBytes (v : Dev) (d k i : Nat) : List Byte :=
  let s := v.sep d k
  let mode := (v.chan d k (i % spNch v d k)).mode
  if mode = 5 ∨ mode < 4 then leBytes 8 (ofSigned 64 (SMap.get 0 s.st i))
  else leBytes 4 (ofSigned 32 (SMap.get 0 s.st i)) ++ leBytes 4 (ofSigned 32 (SMap.get 0 s.held i))

def sepSection (v : Dev) (x : Nat × Nat) : SnapSect :=
  ⟨7, x.1, x.2 * 0x20000, ((List.range (spElems v x.1 x.2)).map (elemBytes v x.1 x.2)).flatten⟩

/-- The register of the TG block of generator `g` at a word index. -/
def tgWord (m g i : Nat) : Reg := dieReg m (0x20800 + 0x100 * g + 4 * i)

/-- The settings and tick number of TGg: the words 0x00 to 0x2C of its block. -/
def tgSection (env : Env) (v : Dev) (g : Nat) : SnapSect :=
  ⟨8, env.master, 0x20800 + 0x100 * g, wordBytes ((List.range 12).map (fun i => v.rd (tgWord env.master g i)))⟩

/-- Every section of a coach's stream: fenced core numbers have none (R391), and no vat range is marked, because R485 has no mark. -/
def snapSections (env : Env) (v : Dev) (g : Nat) : List SnapSect :=
  (((v.coachCores g).filter (fun e => !v.isFenced e.2)).map (fun e => coreSections v e.1 e.2)).flatten
    ++ (coachSeps env v g).map (sepSection v) ++ [tgSection env v g]

/-- The stream of a coach. -/
def snapStream (env : Env) (v : Dev) (g : Nat) : List Byte :=
  let sects := snapSections env v g
  let body := (sects.map SnapSect.bytes).flatten
  let head := [2, BitVec.ofNat 8 g] ++ leBytes 6 0 ++ leBytes 8 ((v.gen g).lastTick.getD Config.noTick)
    ++ leBytes 4 (v.coach g).imageId ++ leBytes 8 (64 + body.length) ++ leBytes 4 sects.length
  head ++ leBytes 4 (crc32 (head ++ leBytes 28 0)) ++ leBytes 28 0 ++ body

/-! ## The crock (R424 to R426) -/

/-- Commands reach the crock: it is present, paired and not removed. -/
def crockUsable (env : Env) (v : Dev) : Bool :=
  let w := v.rd (CR_STATUS env.master)
  bit w 0 && bit w 2 && !bit w 4 && !bit w 8

/-- Bytes of a checkpoint slot (R422). -/
abbrev slotBytes : Nat := 52 * 1024 * 1024

/-- CR_LIFE.LIFE: the larger of the highest erase count as a percentage of 100,000 and the share of the 768 spare sectors in use, in whole
percent rounded down, 100 at most (R425; log entry 158). -/
def lifeOf (spares erase : Nat) : Nat := min 100 (max (erase / 1000) (spares * 100 / 768))

/-- The sector that a sector's bytes lie in: itself, or the spare that replaces it, from offset 0x0300_0000 on (R422). -/
def Dev.sectorOf (v : Dev) (s : Nat) : Nat :=
  match SMap.get 0 v.crock.spareMap s with
  | 0 => s
  | n + 1 => 0x300 + n

/-- The figures of the wear record in CR_MAX_ERASE and CR_LIFE (R425); what LIFE passing a threshold does is CROCK_LIFE_THRESHOLD's. -/
def noteWear (env : Env) (top spares : Nat) (v : Dev) : Dev :=
  let m := env.master
  let top := max top (v.rdN (CR_MAX_ERASE m))
  ((v.wrN (CR_MAX_ERASE m) top).setF (CR_LIFE m) 8 10 spares).setF (CR_LIFE m) 0 8 (max (v.fd (CR_LIFE m) 0 8) (lifeOf spares top))

/-- Sectors are erased, each once for a write of its bytes (R424; log entry 185). -/
def wearSectors (env : Env) (l : List Nat) (v : Dev) : Dev :=
  let m := env.master
  let er := l.foldl (fun t s => SMap.set 0 t (v.sectorOf s) (SMap.get 0 t (v.sectorOf s) + 1)) v.crock.erases
  let top := l.foldl (fun t s => max t (SMap.get 0 er (v.sectorOf s))) 0
  noteWear env top (v.fd (CR_LIFE m) 8 10)
    ({ v with crock := { v.crock with erases := er } }.inc64 (CR_ERASES_LO m) (CR_ERASES_HI m) l.length)

/-- A sector that fails to erase or program retires onto the next spare sector; the 768 spares at an end, none replaces it (R422). -/
def useSpare (s : Nat) (n : Nat) (v : Dev) : Dev :=
  if n < 768 then { v with crock := { v.crock with spareMap := SMap.set 0 v.crock.spareMap s (n + 1) } } else v

/-- A program or erase failure at sector `s`. -/
def retireSector (env : Env) (s : Nat) (v : Dev) : Dev :=
  let m := env.master
  let n := v.fd (CR_LIFE m) 8 10
  noteWear env 0 (min 768 (n + 1)) (useSpare s n (v.inc (CR_WRITE_FAIL m) 1))

/-- A sector takes its place before those that were erased more often. -/
def insertLeast (x : Nat × Nat) : List (Nat × Nat) → List (Nat × Nat)
  | [] => [x]
  | y :: ys => if x.1 ≤ y.1 then x :: y :: ys else y :: insertLeast x ys

/-- The `n` least-erased free sectors of the checkpoint area (R424), of equals the lowest (DESIGN CHOICE, log entry 185). -/
def leastErased (v : Dev) (n : Nat) : List Nat :=
  let free := (List.range 6656).filter (fun s => !v.crock.ckpt.any (fun e => e.2.contains s))
  (((free.map (fun s => (SMap.get 0 v.crock.erases (v.sectorOf (0x600 + s)), s))).foldr insertLeast []).take n).map (·.2)

/-- A stream goes into sectors of the checkpoint area. -/
def storeSectors : List Nat → List Byte → Dev → Dev
  | [], _, v => v
  | s :: l, bs, v => storeSectors l (bs.drop 0x10000) ((v.clearMem (crockMem s 0) 0x10000).st (crockMem s 0) (bs.take 0x10000))

/-- The first `n` bytes of a slot's stream. -/
def Dev.ckptBytes (v : Dev) (slot n : Nat) : List Byte :=
  ((SMap.get [] v.crock.ckpt slot).flatMap (fun s => v.ldBytes (crockMem s 0) 0x10000)).take n

/-! ## SNAPSHOT (R350) -/

/-- A core of the coach is applying. -/
def applying (v : Dev) (g : Nat) : Bool := (v.coachCores g).any (fun e => (v.core e.2).apply.isSome)

/-- RESULT of SNAPSHOT: TOTAL of 8 bytes, bytes, SNAP_GEN (R346). -/
def snapResult (total n gen : Nat) : List Byte := leBytes 8 total ++ leBytes 4 n ++ leBytes 4 gen

/-- A slot's previous stream is invalid, and its sectors are free (R424). -/
def dropCkpt (env : Env) (slot : Nat) (v : Dev) : Dev :=
  { v.setB (CR_CKPT env.master) slot false with crock := { v.crock with ckpt := SMap.set [] v.crock.ckpt slot [] } }

/-- SNAPSHOT. -/
def snapshotCmd : Handler := fun env p bs v =>
  let g := coachOf bs
  let dest := leAt bs 8 1
  let slot := leAt bs 9 1
  let o := leAt bs 16 8
  let b := bufAt bs 24
  if 2 ≤ dest then fail stBadParam 8 v
  else if 8 ≤ slot then fail stBadParam 9 v
  else if dest = 0 then
    if !bufOk v p b true then fail stBadParam 24 v
    else if b.len = 0 then fail stOkEmpty 0 v
    else
      let s := snapStream env v g
      let part := (s.drop o).take b.len
      (.done stOk 0 (snapResult s.length part.length (v.coach g).snapGen), v.stSram env p b.off part)
  else if !crockUsable env v || v.fb (CR_STATUS env.master) 3 then fail stNoResource 8 v
  else
    let s := snapStream env v g
    let m := env.master
    let v := dropCkpt env slot v
    if slotBytes < s.length then fail stNoResource 8 v
    else
      let l := leastErased v ((s.length + 0xFFFF) / 0x10000)
      let v := wearSectors env (l.map (0x600 + ·)) (storeSectors l s { v with crock := { v.crock with ckpt := SMap.set [] v.crock.ckpt slot l } })
      let v := (v.wrN (CR_CKPT_LEN m slot) s.length).setB (CR_CKPT m) slot true
      (.done stOk 0 (snapResult s.length s.length (v.coach g).snapGen), v)

/-! ## RESTORE (R351) -/

/-- The kind 0–8 that a KIND byte names. -/
def kindOf (b : Byte) : Option Nat := (List.range 9).find? (fun k => Config.snapKind k == b)

/-- Registers that a register image does not restore: status, microcode, owner. -/
def imageRestores (off : Nat) : Bool := off != 4 && off != 0xC0 && off != 0xC4

/-- The registers of a core from an image: the owner fields stay. -/
def restoreImage (q : Nat) (data : List Byte) (v : Dev) : Dev :=
  let owner := v.fd (NC_CTRL q) 8 3
  let v := (List.range (data.length / 4)).foldl (fun v i =>
    if imageRestores (4 * i) && (regRow (coreReg q (4 * i))).isSome then v.wrN (coreReg q (4 * i)) (leAt data (4 * i) 4) else v) v
  let v := v.setF (NC_CTRL q) 8 3 owner
  v.modCore q (fun k => { k with epochLen := v.fd (NC_PL_EPOCH q) 0 16 })

/-- The state of a separator's elements from a section. -/
def restoreSep (d k : Nat) (data : List Byte) (v : Dev) : Dev :=
  (List.range (data.length / 8)).foldl (fun v i =>
    let mode := (v.chan d k (i % spNch v d k)).mode
    if mode = 5 ∨ mode < 4 then v.modSep d k (fun s => { s with st := SMap.set 0 s.st i (toSigned 64 (leAt data (8 * i) 8)) })
    else v.modSep d k (fun s =>
      { s with st := SMap.set 0 s.st i (toSigned 32 (leAt data (8 * i) 4)), held := SMap.set 0 s.held i (toSigned 32 (leAt data (8 * i + 4) 4)) })) v

/-- The settings and tick number of TGg from a section. -/
def restoreTg (m g : Nat) (data : List Byte) (v : Dev) : Dev :=
  let v := v.setF (TG_CTRL m g) 1 3 (fldN (leAt data 0 4) 1 3)
  ([1, 2, 3, 4, 5, 6, 10, 11]).foldl (fun v i => v.wrN (tgWord m g i) (leAt data (4 * i) 4)) v

/-- A section is applied if it names a resource of the coach; none says it does not. The bytes of a vat section go out as a copy
(`restoreCopies`). -/
def applySnap (env : Env) (g : Nat) (kind : Nat) (name off : Nat) (data : List Byte) (v : Dev) : Option Dev :=
  if kind ≤ 5 then
    if !v.inRange g name then none
    else match v.reach env name with
      | none => none
      | some q =>
        if kind = 5 then some (restoreImage q data v)
        else if off + data.length ≤ 0x40000 then some (v.st (coreMem q off) data) else none
  else if kind = 6 then
    if env.has name && decide (off + data.length ≤ 0x10000000) && rangeReaches v name g 0 off data.length true then
      some v
    else none
  else if kind = 7 then
    let k := off / 0x20000
    if env.has name && decide (k < 16) && v.sepOwner name k == g then some (restoreSep name k data v) else none
  else if name = env.master ∧ off = 0x20800 + 0x100 * g then some (restoreTg env.master g data v) else none

/-- The sections of what has been read, in order: `o` counts from the start of the bytes. The offset at which one failed, if one did. -/
def restoreFrom (env : Env) (g : Nat) (bytes : List Byte) : Nat → Nat → Dev → Option Nat × Dev
  | 0, _, v => (none, v)
  | n + 1, o, v =>
    let len := leAt bytes (o + 12) 4
    if bytes.length < o + 32 ∨ bytes.length < o + 32 + len then (none, v)
    else
      let data := (bytes.drop (o + 32)).take len
      if leAt bytes o 1 ≠ 2 ∨ crc32 data ≠ leAt bytes (o + 16) 4 then (some o, v)
      else match kindOf (bytes.getD (o + 1) 0) with
        | none => (some o, v)
        | some k =>
          match applySnap env g k (leAt bytes (o + 4) 4) (leAt bytes (o + 8) 4) data v with
          | some v => restoreFrom env g bytes n (o + 32 + len) v
          | none => (some o, v)

/-- The copies that the vat sections before offset `stop` of what has been read stand for (R235). -/
def restoreCopies (bytes : List Byte) (stop : Nat) : Nat → Nat → List VatCopy
  | 0, _ => []
  | n + 1, o =>
    let len := leAt bytes (o + 12) 4
    if stop ≤ o ∨ bytes.length < o + 32 ∨ bytes.length < o + 32 + len then []
    else
      let more := restoreCopies bytes stop n (o + 32 + len)
      if kindOf (bytes.getD (o + 1) 0) = some 6 ∧ len ≠ 0 then
        ⟨leAt bytes (o + 4) 4, leAt bytes (o + 8) 4, len, some ((bytes.drop (o + 32)).take len), 0⟩ :: more
      else more

/-- A stream, or its part from `start` on, is applied. A part that does not hold the stream header begins with a section (log entry 19). The
vat sections before one that fails stand too, so the command completes after their copies. -/
def restoreBytes (env : Env) (g start : Nat) (bytes : List Byte) (v : Dev) : Ans × Dev :=
  let v := bumpGen g v
  if start = 0 ∧ (leAt bytes 0 1 ≠ 2 ∨ bytes.length < 64) then fail stBadParam (inBuf 0) v
  else
    let fuel := bytes.length / 32 + 1
    let first := if start = 0 then 64 else 0
    let x := restoreFrom env g bytes fuel first v
    let ends : Nat × Nat := match x.1 with
      | some o => (stBadParam, inBuf o)
      | none => (stOk, 0)
    match restoreCopies bytes (x.1.getD bytes.length) fuel first with
    | [] => fail ends.1 ends.2 x.2
    | l => (.copying l ends.1 ends.2, x.2)

/-- RESTORE. -/
def restoreCmd : Handler := fun env p bs v =>
  let g := coachOf bs
  let dest := leAt bs 8 1
  let slot := leAt bs 9 1
  let b := bufAt bs 24
  if 2 ≤ dest then fail stBadParam 8 v
  else if 8 ≤ slot then fail stBadParam 9 v
  else if dest = 0 then
    if !bufOk v p b false then fail stBadParam 24 v
    else if b.len = 0 then fail stOkEmpty 0 v
    else restoreBytes env g (leAt bs 16 8) (bufBytes v p b) v
  else if !crockUsable env v || !v.fb (CR_CKPT env.master) slot then fail stNoResource 8 v
  else restoreBytes env g 0 (v.ckptBytes slot (v.rdN (CR_CKPT_LEN env.master slot))) v

/-! ## The commands -/

/-- SNAPSHOT waits while a core of the coach is applying (R350). -/
def snapshot (p : Nat) (c : Cmd) (env : Env) (v : Dev) : Dev :=
  if applying v (coachOf c.bytes) && (stateCheck env v p c.bytes).isNone then v else runCommand 0x0F p c snapshotCmd env v

def execSnapshot (p : Fin 4) (c : Cmd) (s : State) : Host.Outcome State Fault Refusal := .next (s.onDev (snapshot p.val c))
def execRestore (p : Fin 4) (c : Cmd) (s : State) : Host.Outcome State Fault Refusal :=
  .next (s.onDev (runCommand 0x10 p.val c restoreCmd))

end Sys2Proof.Machine
end

