-- ==== Sys2Proof/Machine/Log.lean ====
section
/-! DEFINITION. Log records: how firmware makes them and to whom they go (R331, R385, R408, R409). -/
namespace Sys2Proof.Machine

open Sys2Proof

/-- The ports that are open for their host (R325). -/
def openPorts (v : Dev) : List Nat := (List.range 4).filter (fun p => (v.port p).ifState == 1)

/-- A record for the firmware log, and for the ports given (R331, R409). -/
def logTo (env : Env) (ports : List Nat) (kind coach : Nat) (body : List Byte) (v : Dev) : Dev :=
  let f := v.fw
  let r : LogRec := ⟨f.nextSeq, kind, env.now, (body ++ leBytes 48 0).take 48, coach⟩
  let log := f.log ++ [r]
  { v with fw := { f with
      nextSeq := (f.nextSeq + 1) % 0x100000000,
      log := log.drop (log.length - 16384),
      queued := ports.foldl (fun m p => SMap.set [] m p (SMap.get [] m p ++ [r])) f.queued } }

/-- A record for the firmware log and every open port (R408). -/
def logAll (env : Env) (kind : Nat) (body : List Byte) (v : Dev) : Dev := logTo env (openPorts v) kind 4 body v

/-- FW_STATE: die, processor, event, cause, FW_IMAGE (R408). -/
def logFwState (env : Env) (d proc event cause : Nat) (v : Dev) : Dev :=
  logAll env 2 (leBytes 1 d ++ leBytes 1 proc ++ leBytes 1 event ++ leBytes 1 cause ++ leBytes 4 (v.rdN (FW_IMAGE d))) v

/-- UPDATE: event, slot, the slot's SVN and version, and the anti-rollback counter (R408). -/
def logUpdate (env : Env) (event slot : Nat) (x : Option Image) (v : Dev) : Dev :=
  logAll env 3 (leBytes 1 event ++ leBytes 1 slot ++ leBytes 2 ((x.map (·.svn)).getD 0) ++ leBytes 4 ((x.map (·.ver)).getD 0)
    ++ leBytes 2 v.crock.arc) v

/-- CROCK: event, life, spares used (R408). -/
def logCrock (env : Env) (event : Nat) (v : Dev) : Dev :=
  let life := v.rd (CR_LIFE env.master)
  logAll env 4 (leBytes 1 event ++ leBytes 1 (fld life 0 8) ++ leBytes 2 (fld life 8 10)) v

/-- The entry in force and the ceiling (R443), as PM_STATUS of the master die shows them. -/
def oppNow (env : Env) (v : Dev) : Nat := v.fd (PM_STATUS env.master) 8 3
def ceiling (env : Env) (v : Dev) : Nat := v.fd (PM_STATUS env.master) 12 3

/-- The hottest die by PM_TEMP. -/
def hottest (env : Env) (v : Dev) : Nat :=
  env.dieList.foldl (fun b d => if v.fd (PM_TEMP b) 0 12 < v.fd (PM_TEMP d) 0 12 then d else b) 0

/-- POWER: event and what R459 lists. -/
def logPower (env : Env) (event : Nat) (v : Dev) : Dev :=
  let m := env.master
  let floor := b2n (oppNow env v == v.fd (PM_EMERG_FLOOR m) 0 3 && (v.fb (PM_STATUS m) 3 || v.fb (PM_STATUS m) 4))
  logAll env 10 (leBytes 1 event ++ leBytes 1 (oppNow env v) ++ leBytes 1 (ceiling env v + 8 * floor) ++ leBytes 1 (hottest env v)
    ++ leBytes 2 (v.fd (PM_TEMP (hottest env v)) 0 12) ++ leBytes 2 (v.fd (PM_POWER m) 16 16) ++ leBytes 2 (v.fd (PM_LIMIT m) 0 11)) v

/-- An FW error of a die, owned by the device (R377, R381). -/
def raiseFw (env : Env) (d source master addr info : Nat) (v : Dev) : Dev :=
  raise env { die := d, cls := clsFW, owner := 4, source := source, master := master, access := accNone, addr := addr, info := info } v

/-- Firmware of a die runs: its coachman is RUNNING and not halted, and the processors have their clock (R335, R407, R436). -/
def Dev.coachmanUp (v : Dev) (d : Nat) : Bool := v.fd (FW_STATUS d) 0 2 == 0 && !v.still d 3 && !v.tick.halted.contains (d * 8 + 1)

/-- The ostler that does the work of ostler `k` on a die (R404). -/
def Dev.worker (v : Dev) (d k : Nat) : Nat :=
  if v.fd (FW_STATUS d) (2 * k + 2) 2 = 3 then (if k = 3 then 2 else 3) else k

/-- The work of ostler `k` on a die goes on. -/
def Dev.ostlerUp (v : Dev) (d k : Nat) : Bool :=
  let w := v.worker d k
  v.coachmanUp d && v.fd (FW_STATUS d) (2 * w + 2) 2 == 0 && !v.tick.halted.contains (d * 8 + 2 + w)

/-- The fault handler of a die takes records (R384, R405). -/
def Dev.handlerUp (v : Dev) (d : Nat) : Bool := v.coachmanUp d && !v.fw.compDown.contains (d * 2)

end Sys2Proof.Machine
end

