-- ==== Sys2Proof/Machine/Rings.lean ====
section
/-! DEFINITION. Rings: the device open, commands taken from a ring, what the host consumes, and log delivery (R322 to R331, R335). -/
namespace Sys2Proof.Machine

open Sys2Proof

/-! ## The host page (R322) -/

/-- The rings that a host page describes: base and size. -/
def pageRings (v : Dev) (p : Nat) : List (Nat × Nat) :=
  [(hostN v p 8 4, 64 * 2 ^ hostN v p 20 1), (hostN v p 12 4, 32 * 2 ^ hostN v p 21 1), (hostN v p 16 4, 64 * 2 ^ hostN v p 22 1)]

/-- No two regions, each with its base and size, overlap. -/
def apart : List (Nat × Nat) → Bool
  | [] => true
  | r :: rest => rest.all (fun x => !overlaps r x) && apart rest

/-- The checks of R325 on a host page. -/
def hostPageOk (v : Dev) (p : Nat) : Bool :=
  let rings := pageRings v p
  hostN v p 0 1 == 2 && hostN v p 1 1 == 0 && (List.range 41).all (fun i => hostN v p (23 + i) 1 == 0)
    && [20, 21, 22].all (fun o => decide (4 ≤ hostN v p o 1) && decide (hostN v p o 1 ≤ 12))
    && rings.all (fun r => r.1 % 4096 == 0 && decide (r.1 + r.2 ≤ hostPage)) && apart rings

/-- The highest interface major version in both ranges (R325). -/
def negotiate (v : Dev) (p : Nat) : Option Nat :=
  let lo := max (hostN v p 2 1) ((v.fw.image.map (·.ifMin)).getD 1)
  let hi := min (hostN v p 3 1) ((v.fw.image.map (·.ifMax)).getD 1)
  if lo ≤ hi then some hi else none

/-! ## The device open (R324 to R326) -/

/-- Commands of the old ring that have not started: in the lanes, and in the ring as far as the CMD_PROD that stood when the open was asked
for is within it (log entry 20). -/
def notStarted (v : Dev) (p : Nat) : Nat :=
  let h := v.port p
  let d := (h.openProd + 0x100000000 - h.cmdCons) % 0x100000000
  (h.lanes.map (fun e => e.2.length)).sum + (if h.bases ≠ [] ∧ d ≤ h.slots 0 then d else 0)

/-- The open succeeds with interface major version `maj`: new rings, indices at 0, loss ends (R318, R325, R326). -/
def openOk (env : Env) (p seq maj : Nat) (v : Dev) : Dev :=
  let bases := (pageRings v p).map (·.1)
  let logs := [hostN v p 20 1, hostN v p 21 1, hostN v p 22 1]
  let stop := (v.port p).lossStop
  let v := v.modPort p (fun h =>
    { h with
      bases := bases, logs := logs, openSeq := seq, ifState := 1, ifMajor := maj, openResult := stOk, cmdCons := 0, cplProd := 0,
      cplCons := 0, logProd := 0, logCons := 0, loss := none, lossDone := false, lossStop := false, hbRef := env.nowOf (portDie p) })
  if stop then setAlert p 7 v else v

/-- The open fails with a status and IF_STATE. -/
def openFails (env : Env) (p seq st state : Nat) (v : Dev) : Dev :=
  v.modPort p (fun h =>
    { h with bases := [], logs := [], openSeq := seq, ifState := state, ifMajor := 0, openResult := st, hbRef := env.nowOf (portDie p) })

/-- DEVICE_OPEN: a change of OPEN_SEQ is acted on once no started command is without a completion. -/
def deviceOpen (p : Nat) (env : Env) (v : Dev) : Dev :=
  if dispatching v p && openPending v p && (v.port p).running.isEmpty then
    let seq := hostN v p 4 4
    let n := notStarted v p
    let v := v.modPort p (fun h => { h with lanes := [], openAsked := false, cmdDiscard := (h.cmdDiscard + n) % 0x100000000 })
    if !hostPageOk v p then openFails env p seq stBadParam 0 v
    else match negotiate v p with
      | some maj => openOk env p seq maj v
      | none => openFails env p seq stRefusedVersion 2 v
  else v

/-! ## Commands (R327 to R329, R335) -/

/-- IF_RING (R328, R330). -/
def raiseRing (env : Env) (p : Nat) (v : Dev) : Dev :=
  raise env { die := portDie p, cls := clsIF, owner := 4, source := 0x26, master := mBlock (portDie p) 10 (portUnit p), access := accCheck,
              addr := 0, info := p } v

/-- Commands taken without a completion, and the free entries of the completion ring (R329). -/
def outstanding (h : Port) : Nat := (h.lanes.map (fun e => e.2.length)).sum + h.running.length
def cplFree (h : Port) : Nat := h.slots 1 - (h.cplProd + 0x100000000 - h.cplCons) % 0x100000000

/-- CMD_TAKE: the next command leaves the ring for its lane, or completes at once if its form is refused. -/
def cmdTake (p : Nat) (env : Env) (v : Dev) : Dev :=
  let h := v.port p
  let d := (hostN v p 64 4 + 0x100000000 - h.cmdCons) % 0x100000000
  if !dispatching v p || openPending v p || !h.serves then v
  else if h.slots 0 < d then raiseRing env p (v.modPort p (fun h => { h with ifState := 4 }))
  else if d = 0 ∨ cplFree h ≤ outstanding h then v
  else
    let bytes := v.ldBytes (sramMem p (h.base 0 + h.cmdCons % h.slots 0 * 64)) 64
    let c : Cmd := ⟨h.cmdCons, bytes⟩
    let v := v.modPort p (fun h => { h with cmdCons := (h.cmdCons + 1) % 0x100000000 })
    match formCheck bytes with
    | some x => complete env p (runningOf env p c) x.1 x.2 [] v
    | none => v.setLane p (laneOf bytes) (v.lane p (laneOf bytes) ++ [⟨c.seq, bytes, env.nowOf (portDie p)⟩])

/-- FW_COMMAND_TIMEOUT: an F command that has waited 2 s in its lane completes with TIMEOUT. -/
def fwTimeout (p seq : Nat) (env : Env) (v : Dev) : Dev :=
  match (v.port p).lanes.find? (fun e => e.2.any (fun t => t.seq == seq)) with
  | none => v
  | some e =>
    match e.2.find? (fun t => t.seq == seq) with
    | none => v
    | some t =>
      if byFirmware t.bytes && decide (t.time + 2000000000 ≤ env.nowOf (portDie p)) then
        complete env p (runningOf env p ⟨t.seq, t.bytes⟩) stTimeout 0 [] (v.setLane p e.1 (e.2.erase t))
      else v

/-! ## What the host consumes (R330) -/

/-- RING_CONSUME: the dispatcher sees CPL_CONS, or with `log` LOG_CONS, in the host page. -/
def ringConsume (p : Nat) (log : Bool) (env : Env) (v : Dev) : Dev :=
  let h := v.port p
  if !dispatching v p || h.bases.isEmpty then v
  else if log then
    let x := hostN v p 192 4
    if (h.logProd + 0x100000000 - x) % 0x100000000 ≤ h.slots 2 then v.modPort p (fun h => { h with logCons := x }) else raiseRing env p v
  else
    let x := hostN v p 128 4
    if (h.cplProd + 0x100000000 - x) % 0x100000000 ≤ h.slots 1 then v.modPort p (fun h => { h with cplCons := x }) else raiseRing env p v

/-! ## Log delivery (R331) -/

/-- The 64 bytes of a log record. -/
def LogRec.bytes (r : LogRec) : List Byte := [2, BitVec.ofNat 8 r.kind, 0, 0] ++ leBytes 4 r.seq ++ leBytes 8 r.time ++ r.body

/-- LOG_DELIVERY: the oldest record for a port enters its log ring, or is dropped if the ring is full. It waits while the work of
ostler 0 of the master die or the log component stands still (R405, R407). -/
def logDelivery (p : Nat) (env : Env) (v : Dev) : Dev :=
  let m := env.master
  match SMap.get [] v.fw.queued p with
  | [] => v
  | r :: rs =>
    if !v.ostlerUp m 0 || v.fw.compDown.contains (m * 2 + 1) then v
    else
      let v := { v with fw := { v.fw with queued := SMap.set [] v.fw.queued p rs } }
      let h := v.port p
      if h.bases.isEmpty then v
      else if h.slots 2 ≤ (h.logProd + 0x100000000 - h.logCons) % 0x100000000 then
        v.modPort p (fun h => { h with logLost := min (h.logLost + 1) 0xFFFFFFFF })
      else
        let v := v.stSram env p (h.base 2 + h.logProd % h.slots 2 * 64) r.bytes
        setAlert p 1 (v.modPort p (fun h => { h with logProd := (h.logProd + 1) % 0x100000000 }))

def execDeviceOpen (p : Fin 4) (s : State) : Host.Outcome State Fault Refusal := .next (s.onDev (deviceOpen p.val))
def execCmdTake (p : Fin 4) (s : State) : Host.Outcome State Fault Refusal := .next (s.onDev (cmdTake p.val))
def execFwCommandTimeout (p : Fin 4) (seq : Nat) (s : State) : Host.Outcome State Fault Refusal := .next (s.onDev (fwTimeout p.val seq))
def execRingConsume (p : Fin 4) (log : Bool) (s : State) : Host.Outcome State Fault Refusal := .next (s.onDev (ringConsume p.val log))
def execLogDelivery (p : Fin 4) (s : State) : Host.Outcome State Fault Refusal := .next (s.onDev (logDelivery p.val))

end Sys2Proof.Machine
end

