-- ==== Sys2Proof/Machine/HostPort.lean ====
section
/-! DEFINITION. The LPDDR5 interface of a host port, its power states, port loss, port SRAM as the host writes it, and the status page
(R290 to R299, R303, R315 to R320, R323, R354, R356). -/
namespace Sys2Proof.Machine

open Sys2Proof

/-! ## The port's block (R305, R306) -/

/-- HP registers and the block's counters. -/
def hpStatus (p : Nat) : Reg := HP_STATUS (portDie p) (portUnit p)
def hpAlert (p : Nat) : Reg := HP_ALERT_STAT (portDie p) (portUnit p)
def hpCounters (p : Nat) : List Reg :=
  let d := portDie p
  let u := portUnit p
  [HP_RD_BURSTS_LO d u, HP_RD_BURSTS_HI d u, HP_WR_BURSTS_LO d u, HP_WR_BURSTS_HI d u, HP_RSV_ACCESS d u, HP_DENIED_RD d u,
   HP_DENIED_WR d u, HP_WQ_DROP d u, HP_PARTIAL_WR d u, HP_UNSUP d u, HP_FETCHES d u, HP_LOSS d u]

/-- A write to the HP block of port `p`: by the port itself or by firmware (R305, R306). -/
def hpWrite (env : Env) (who : Party) (p : Nat) (r : Reg) (f : Dev → Dev) (v : Dev) : Dev :=
  let ok := match who with
    | .port q => q.val == p
    | .engine _ => false
    | .debug => false
    | _ => true
  if ok then f v else raiseSE env (portDie p) 4 who (regAddr v r) v

/-- OPEN_PORTS has opened the port (R299, R372). -/
def Dev.portOpen (v : Dev) (p : Nat) : Bool := v.fb (hpStatus p) 0

/-- The pad group of a port is latched (R452). -/
def Dev.padsLatched (v : Dev) (p : Nat) : Bool := v.fb (PM_PAD_RELEASE (portDie p)) (16 + portUnit p)

/-- HP_STATUS.STATE (R316, R318): OFF in deep sleep, LOST in loss, IDLE in self-refresh. -/
def portState (h : Port) : Nat :=
  if h.lp.deepSleep then 2 else if h.loss != none then 3 else if h.lp.selfRefresh then 1 else 0

/-- HP_STATUS as it reads: BRINGUP, STATE and WQ_FREE are live. -/
def hpStatusValue (env : Env) (v : Dev) (p : Nat) : Word :=
  let h := v.port p
  setFld (setFld (setBit (v.rd (hpStatus p)) 1 (p == env.bringUpPort)) 2 2 (portState h)) 16 9 (256 - h.wq.length)

/-- OPEN_PORTS has run and left the port closed (R372). -/
def Dev.leftClosed (v : Dev) (p : Nat) : Bool := !v.portOpen p && (List.range 4).any (fun q => v.portOpen q)

/-- ALERT_N of a port is driven low (R315, R317, R372, R452). -/
def Dev.alertLow (v : Dev) (p : Nat) : Bool :=
  (v.rd (hpAlert p) &&& v.rd (HP_ALERT_EN (portDie p) (portUnit p))) != 0 && !(v.port p).lp.resetLow && !v.padsLatched p && !v.leftClosed p

/-! ## The interface (R291 to R293, R316, R354) -/

/-- The interface takes any command that JESD209-5 allows outside its low-power states (R316, R451, R452). -/
def Dev.takes (v : Dev) (p : Nat) : Bool :=
  let l := (v.port p).lp
  l.available && !l.resetLow && !l.selfRefresh && !l.deepSleep && !l.powerDown && v.pw.phase != .hold && !v.padsLatched p

def Dev.modLp (v : Dev) (p : Nat) (f : Lpddr → Lpddr) : Dev := v.modPort p (fun h => { h with lp := f h.lp })

/-- PORT_AVAILABLE: the interface begins to accept initialisation and training (R354, R453). -/
def portAvailable (p : Nat) (v : Dev) : Dev :=
  if v.bu.perst && !v.pw.thermtrip && v.pw.phase != .hold && !v.padsLatched p then v.modLp p (fun l => { l with available := true }) else v

/-- An absent feature was asked for (R292). -/
def noteUnsup (p : Nat) (v : Dev) : Dev := (v.inc (HP_UNSUP (portDie p) (portUnit p)) 1).setB (hpStatus p) 6 true

def unsupportedCommand (p : Nat) (v : Dev) : Dev := if v.takes p then noteUnsup p v else v

/-- A field is stored per frequency set point; the bits of `absent` stay as they are (R292, R293). -/
def modeField (p fsp mr x absent : Nat) (v : Dev) : Dev :=
  let k := fsp * 256 + mr
  let old := SMap.get 0 (v.port p).lp.mr k
  let new := (old &&& absent) ||| (x &&& (255 - absent))
  let v := v.modLp p (fun l => { l with mr := SMap.set 0 l.mr k new })
  if absent = 0 then v else noteUnsup p v

/-- MODE_REGISTER_WRITE (R291 to R293). A FIFO of 8 bursts that is full loses its oldest (log entry 156). -/
def modeWrite (p fsp mr x : Nat) (op : ModeOp) (v : Dev) : Dev :=
  if !v.takes p then v
  else match op with
    | .field absent => modeField p fsp mr x absent.toNat v
    | .setPoint => v.modLp p (fun l => { l with fsp := fsp })
    | .fifo data => v.modLp p (fun l => { l with fifo := (l.fifo ++ [data]).drop (l.fifo.length + 1 - 8) })

/-- What a mode-register read returns, for the set point in force (R293): MR4 shows the 1× refresh rate with TUF, its top bit, 0. -/
def modeValue (v : Dev) (p mr : Nat) : Nat :=
  if mr = 4 then Config.jedecMode 4 % 128
  else if mr = 8 then Config.jedecMode 8 % 256
  else if mr = 5 ∨ mr = 6 ∨ mr = 7 then 0
  else SMap.get 0 (v.port p).lp.mr ((v.port p).lp.fsp * 256 + mr)

/-- A mode-register read, a read of the DQ calibration patterns held in mode registers, or a read of the oldest burst of the FIFO (R291,
R293). What an empty FIFO returns is a free value. -/
def trainingRead (p : Nat) (rd : PortRead) (v : Dev) : Dev :=
  let answer (bs : List Byte) (v : Dev) : Dev := v.modPort p (fun h => { h with rdata := bs })
  match rd with
  | .bl16 => v
  | .bl32 => v
  | .modeRegister mr => answer (leBytes 1 (modeValue v p mr.toNat)) v
  | .calibration => answer (Config.jedecCalRegs.flatMap (fun mr => leBytes 1 (modeValue v p mr))) v
  | .fifo => match (v.port p).lp.fifo with
    | bs :: rest => answer bs (v.modLp p (fun l => { l with fifo := rest }))
    | [] => answer (leBytes 32 v.takeFree.1) v.takeFree.2

/-- Power-down gates the interface's clock and changes nothing else (R291). -/
def powerDown (p : Nat) (v : Dev) : Dev := if v.takes p then v.modLp p (fun l => { l with powerDown := true }) else v
def powerDownExit (p : Nat) (v : Dev) : Dev := v.modLp p (fun l => { l with powerDown := false })

def selfRefreshEntry (p : Nat) (v : Dev) : Dev := if v.takes p then v.modLp p (fun l => { l with selfRefresh := true }) else v
def selfRefreshExit (p : Nat) (v : Dev) : Dev := v.modLp p (fun l => { l with selfRefresh := false })

/-! ## Loss (R317 to R319, R344) -/

/-- Port loss begins, unless it has begun. -/
def beginLoss (env : Env) (p : Nat) (v : Dev) : Dev :=
  if (v.port p).loss = none then v.modPort p (fun h => { h with loss := some (env.nowOf (portDie p)), lossDone := false }) else v

def deepSleepEntry (p : Nat) (env : Env) (v : Dev) : Dev :=
  if v.takes p then beginLoss env p (v.modLp p (fun l => { l with deepSleep := true })) else v
def deepSleepExit (p : Nat) (v : Dev) : Dev := v.modLp p (fun l => { l with deepSleep := false })

/-- The interface in its JESD209-5 reset state (R317). -/
def Lpddr.cleared (l : Lpddr) : Lpddr :=
  { available := l.available, powerDown := false, selfRefresh := false, deepSleep := false, resetLow := l.resetLow, fsp := 0, mr := [], fifo := [] }

def portReset (p : Nat) (env : Env) (v : Dev) : Dev :=
  if v.pw.phase != .hold && !v.padsLatched p then
    beginLoss env p (v.modLp p (fun l => { l.cleared with resetLow := true }))
  else v
def portResetRelease (p : Nat) (v : Dev) : Dev := v.modLp p (fun l => { l with resetLow := false })

def ckStopped (p : Nat) (env : Env) (v : Dev) : Dev := if v.takes p then beginLoss env p v else v

/-- HP_LOSS_TIMEOUT in ns. -/
def lossNs (v : Dev) (p : Nat) : Nat := v.fd (HP_LOSS_TIMEOUT (portDie p) (portUnit p)) 0 16 * 1000000

def heartbeatTimeout (p : Nat) (env : Env) (v : Dev) : Dev :=
  if v.fb (HP_CTRL (portDie p) (portUnit p)) 0 && decide ((v.port p).hbRef + lossNs v p ≤ env.nowOf (portDie p)) then
    beginLoss env p v
  else v

/-- What a port loss that has lasted HP_LOSS_TIMEOUT does to a coach of the port (R319). -/
def lossStopCoach (env : Env) (p : Nat) (v : Dev) (g : Nat) : Dev :=
  if v.isOpen g && (v.coach g).port == p then
    let v := (react env g 3 v).modCoach g (fun c => { c with loss := true })
    raise env { die := portDie p, cls := clsIF, owner := g, source := 0x25, master := mBlock (portDie p) 9 (portUnit p),
                access := accCheck, addr := 0, info := p } v
  else v

def portLossTimeout (p : Nat) (env : Env) (v : Dev) : Dev :=
  let h := v.port p
  match h.loss with
  | none => v
  | some t =>
    if !h.lossDone && decide (t + lossNs v p ≤ env.nowOf (portDie p)) then
      let v := (List.range 4).foldl (lossStopCoach env p) v
      let v := (v.inc (HP_LOSS (portDie p) (portUnit p)) 1).setB (hpStatus p) 4 true
      v.modPort p (fun h => { h with lossDone := true, lossStop := true })
    else v

/-- The application of a heartbeat (R318). -/
def heartbeat (p : Nat) (env : Env) (v : Dev) : Dev := v.modPort p (fun h => { h with hbRef := env.nowOf (portDie p) })

/-- HP_CTRL: CLR_CNT, and HB_EN; the write that sets HB_EN to 1 starts the heartbeat timer (R318). -/
def hpCtrlWrite (p : Nat) (x : Word) (env : Env) (v : Dev) : Dev :=
  let r := HP_CTRL (portDie p) (portUnit p)
  let v := if bit x 1 then v.clearRegs (hpCounters p) else v
  let v := if bit x 0 && !v.fb r 0 then heartbeat p env v else v
  v.setB r 0 (bit x 0)

/-- HP_LOSS_TIMEOUT: 0 is refused (R320). -/
def lossTimeoutWrite (p : Nat) (x : Word) (v : Dev) : Dev :=
  if fld x 0 16 = 0 then v.setB (hpStatus p) 7 true else v.wrN (HP_LOSS_TIMEOUT (portDie p) (portUnit p)) (fld x 0 16)

/-! ## Port SRAM (R297 to R299, R356) -/

/-- A write burst that is handled as reserved is dropped and counted once (R296, R299). -/
def noteReserved (p : Nat) (v : Dev) : Dev := v.inc (HP_RSV_ACCESS (portDie p) (portUnit p)) 1

/-- The port SRAM is open to its host (R299, R356). -/
def sramOpen (env : Env) (v : Dev) (p : Nat) : Bool := v.bu.tested && (v.portOpen p || p == env.bringUpPort)

/-- The bytes of a burst that the data mask leaves enabled, stored one by one through the host's port: after an internal write of the same
cycle (R237). -/
def storeBurst (env : Env) (p : Nat) : Nat → List Byte → List Bool → Dev → Dev
  | a, b :: bs, m :: ms, v =>
    storeBurst env p (a + 1) bs ms (if m then v else obsLatch p a [b] (v.stCycle (v.cycle env (portDie p)) 2 (sramMem p a) [b]))
  | _, _, _, v => v

/-- A write that changes OPEN_SEQ asks for a device open, whatever value a later one gives it; the old ring ends at the CMD_PROD that stood
before the first (R324). -/
def noteOpen (p : Nat) (before v : Dev) : Dev :=
  if hostN before p 4 4 = hostN v p 4 4 then v
  else v.modPort p (fun h =>
    { h with openAsked := true, openProd := if openPending before p then h.openProd else hostN before p 64 4 })

/-- HOST_SRAM_WRITE. -/
def hostSramWrite (p : Nat) (b : Burst) (env : Env) (v : Dev) : Dev :=
  if !v.takes p || decide (0x2000000 ≤ b.addr) then v
  else
    let v := (v.awake (portDie p)).inc64 (HP_WR_BURSTS_LO (portDie p) (portUnit p)) (HP_WR_BURSTS_HI (portDie p) (portUnit p)) 1
    if !sramOpen env v p then noteReserved p v
    else if statusPage ≤ b.addr then v.inc (HP_DENIED_WR (portDie p) (portUnit p)) 1
    else noteOpen p v (storeBurst env p b.addr b.data b.masked v)

/-- FROZEN of the status page. -/
def frozenBits (env : Env) (v : Dev) (p : Nat) : Nat :=
  (env.dieList.map (fun d => if (v.port p).frozen.contains d || freezes env v p d then 2 ^ d else 0)).sum

/-! ## The status page (R298, R323) -/

/-- IF_STATE: LOST while the port is lost (R326). -/
def ifStateValue (h : Port) : Nat := if h.loss != none then 3 else h.ifState

/-- COACH[g]: 0 for a coach that was not opened through the port. -/
def coachEntry (env : Env) (v : Dev) (p g : Nat) : List Byte :=
  if v.isOpen g && (v.coach g).port == p then
    leBytes 1 (coachState v g).code
      ++ leBytes 1 (b2n (isHeld env v g) + 2 * b2n (v.fb (TG_STATUS env.master g) 2) + 4 * b2n (v.coach g).loss
        + 8 * b2n (SMap.get none v.net.armed g != none))
      ++ leBytes 6 0 ++ leBytes 8 (v.tgTick env g)
  else leBytes 16 0

/-- The interface area. -/
def interfaceArea (v : Dev) (p : Nat) : List Byte :=
  let h := v.port p
  leBytes 1 (ifStateValue h) ++ leBytes 1 h.ifMajor ++ leBytes 1 (if h.ifMajor = 0 then 0 else Config.ifMinor h.ifMajor) ++ leBytes 1 h.openResult
    ++ leBytes 4 h.openSeq ++ leBytes 1 ((v.fw.image.map (·.ifMin)).getD 1) ++ leBytes 1 ((v.fw.image.map (·.ifMax)).getD 1) ++ leBytes 2 0
    ++ leBytes 4 h.cmdCons ++ leBytes 4 h.cplProd ++ leBytes 4 h.logProd ++ leBytes 4 h.logLost ++ leBytes 4 h.cmdDiscard

/-- Bytes 0 to 31 of the page. -/
def statusHead (env : Env) (v : Dev) (p : Nat) : List Byte :=
  leBytes 1 2 ++ leBytes 1 p ++ leBytes 1 (fld (hpStatusValue env v p) 0 8) ++ leBytes 1 (frozenBits env v p)
    ++ leBytes 4 (v.port p).updateSeq ++ leBytes 8 env.now ++ leBytes 4 (v.rdN (HP_WRITE_SEQ (portDie p) (portUnit p)))
    ++ leBytes 4 (v.rdN (hpAlert p)) ++ leBytes 8 0

/-- STATUS_PAGE_UPDATE: from OPEN_PORTS onward (R356). -/
def statusPageUpdate (p : Nat) (env : Env) (v : Dev) : Dev :=
  if v.portOpen p && v.pw.phase != .hold then
    let v := v.modPort p (fun h => { h with updateSeq := (h.updateSeq + 1) % 0x100000000 })
    let v := v.stSram env p statusPage (statusHead env v p)
    let v := v.stSram env p (statusPage + 64) (interfaceArea v p)
    (List.range 4).foldl (fun v g => v.stSram env p (statusPage + 128 + 16 * g) (coachEntry env v p g)) v
  else v

/-! ## The rows -/

def execPortAvailable (p : Fin 4) (s : State) : Host.Outcome State Fault Refusal := .next (s.onDev (fun _ => portAvailable p.val))
def execUnsupportedCommand (p : Fin 4) (s : State) : Host.Outcome State Fault Refusal := .next (s.onDev (fun _ => unsupportedCommand p.val))
def execModeRegisterWrite (p : Fin 4) (fsp : Fin 3) (mr x : Byte) (op : ModeOp) (s : State) : Host.Outcome State Fault Refusal :=
  .next (s.onDev (fun _ => modeWrite p.val fsp.val mr.toNat x.toNat op))
def execPowerDown (p : Fin 4) (s : State) : Host.Outcome State Fault Refusal := .next (s.onDev (fun _ => powerDown p.val))
def execPowerDownExit (p : Fin 4) (s : State) : Host.Outcome State Fault Refusal := .next (s.onDev (fun _ => powerDownExit p.val))
def execSelfRefreshEntry (p : Fin 4) (s : State) : Host.Outcome State Fault Refusal := .next (s.onDev (fun _ => selfRefreshEntry p.val))
def execSelfRefreshExit (p : Fin 4) (s : State) : Host.Outcome State Fault Refusal := .next (s.onDev (fun _ => selfRefreshExit p.val))
def execDeepSleepEntry (p : Fin 4) (s : State) : Host.Outcome State Fault Refusal := .next (s.onDev (deepSleepEntry p.val))
def execDeepSleepExit (p : Fin 4) (s : State) : Host.Outcome State Fault Refusal := .next (s.onDev (fun _ => deepSleepExit p.val))
def execPortReset (p : Fin 4) (s : State) : Host.Outcome State Fault Refusal := .next (s.onDev (portReset p.val))
def execPortResetRelease (p : Fin 4) (s : State) : Host.Outcome State Fault Refusal := .next (s.onDev (fun _ => portResetRelease p.val))
def execCkStopped (p : Fin 4) (s : State) : Host.Outcome State Fault Refusal := .next (s.onDev (ckStopped p.val))
def execHeartbeatTimeout (p : Fin 4) (s : State) : Host.Outcome State Fault Refusal := .next (s.onDev (heartbeatTimeout p.val))
def execPortLossTimeout (p : Fin 4) (s : State) : Host.Outcome State Fault Refusal := .next (s.onDev (portLossTimeout p.val))
/-- HP_HEARTBEAT: any value. -/
def execHpHeartbeat (who : Party) (p : Fin 4) (_x : Word) (s : State) : Host.Outcome State Fault Refusal :=
  .next (s.onWrite who (portDie p.val) (fun env => hpWrite env who p.val (HP_HEARTBEAT (portDie p.val) (portUnit p.val)) (heartbeat p.val env)))
/-- A burst whose data or mask is not as long as the burst is no burst. -/
def execHostSramWrite (p : Fin 4) (b : Burst) (s : State) : Host.Outcome State Fault Refusal :=
  if b.wellFormed then .next (s.onDev (hostSramWrite p.val b)) else .fault .illFormed
def execStatusPageUpdate (p : Fin 4) (s : State) : Host.Outcome State Fault Refusal := .next (s.onDev (statusPageUpdate p.val))

end Sys2Proof.Machine
end

