-- ==== Sys2Proof/Machine/Defects.lean ====
section
/-! DEFINITION. The defect list and what its entries do: spares, fences, isolated blocks and dies (R226, R238, R361, R363, R366, R367,
R390). -/
namespace Sys2Proof.Machine

open Sys2Proof

/-! ## States of the dies (R363) -/

/-- BU_DIE_STATE of a die: 0 ABSENT, 1 IN_SERVICE, 2 DEGRADED, 3 FORWARD_ONLY, 4 OFF. -/
def dieState (env : Env) (v : Dev) (d : Nat) : Nat := v.fd (BU_DIE_STATE env.master) (4 * d) 4
def setDieState (env : Env) (d x : Nat) (v : Dev) : Dev := v.setF (BU_DIE_STATE env.master) (4 * d) 4 x

/-- The die is in service. -/
def dieUp (env : Env) (v : Dev) (d : Nat) : Bool := dieState env v d == 1 || dieState env v d == 2

/-- The step that BU_STATUS shows, and READY. -/
def buStep (env : Env) (v : Dev) : Nat := v.fd (BU_STATUS env.master) 0 4
def buReady (env : Env) (v : Dev) : Bool := v.fb (BU_STATUS env.master) 8

/-- BU_STATUS.STATE is RUNNING. -/
def buRunning (env : Env) (v : Dev) : Bool := v.fd (BU_STATUS env.master) 4 2 == 1

/-- READ_CROCK has run in this start. -/
def crockSeen (env : Env) (v : Dev) : Bool := decide (5 < buStep env v) || (buStep env v == 5 && !buRunning env v)

/-- A block of a die is out of service: the die is degraded. -/
def degradeDie (env : Env) (d : Nat) (v : Dev) : Dev := if dieState env v d = 1 then setDieState env d 2 v else v

/-- A die is isolated: powered off whole in the first two steps, else its through-way still forwards; the pads of its PSRAM and of its
ports are latched (R363, R452). -/
def isolateDie (env : Env) (d : Nat) (v : Dev) : Dev :=
  if dieState env v d = 3 ∨ dieState env v d = 4 then v
  else
    let v := setDieState env d (if buStep env v ≤ 2 then 4 else 3) v
    v.wr (PM_PAD_RELEASE d) (v.rd (PM_PAD_RELEASE d) ||| (if d < 2 then 0x70000 else 0x40000))

/-! ## Blocks out of service -/

/-- A physical core is isolated and fenced, so held in reset (R363, R389, R390). -/
def isolateCore (p : Nat) (v : Dev) : Dev :=
  fence p { v with bu := { v.bu with isolated := if v.bu.isolated.contains p then v.bu.isolated else p :: v.bu.isolated } }

/-- A churn, separator or join unit is fenced, by its MASTER (R226, R394). -/
def fenceBlock (m : Nat) (v : Dev) : Dev := v.modFlt (fun f => { f with blocks := if f.blocks.contains m then f.blocks else m :: f.blocks })

def fenceChurn (d c : Nat) (v : Dev) : Dev := fenceBlock (mBlock d 0 c) (v.setB (CHN_STATUS d c) 3 true)

/-- A failed row or column of a churn takes the next spare; a third one fences the churn (R226). -/
def churnSpare (d c : Nat) (col : Bool) (n : Nat) (v : Dev) : Dev :=
  let r := CHN_REPAIR d c
  let lo := if col then 2 else 0
  let used := v.fd r lo 2
  if used < 2 then (v.setF r lo 2 (used + 1)).setF r ((if col then 18 else 4) + 7 * used) 7 n else fenceChurn d c v

/-- The defect list holds an isolated entry of a kind, die and location (R366). -/
def entryKey (e : Nat) : Nat := fldN e 8 8 + 0x100 * fldN e 16 3 + 0x1000 * fldN e 24 24

/-- The entries of the crock's list that the device takes: those whose structure-version byte is 0x02 (R4, R5). -/
def Dev.listed (v : Dev) : List Nat := v.crock.defects.filter (fun e => fldN e 0 8 == 2)

/-- The list that stands beside this start's findings: the crock's once READ_CROCK has read it, and none in a crockless start (R367, R369). -/
def knownList (env : Env) (v : Dev) : List Nat :=
  let w := v.rd (CR_STATUS env.master)
  if bit w 2 && !bit w 4 then v.listed else []

def isolatedEntry (env : Env) (v : Dev) (kind d loc : Nat) : Bool :=
  (knownList env v ++ v.bu.found).any (fun e => entryKey e == kind + 0x100 * d + 0x1000 * loc && fldN e 57 1 == 1)

/-- A port unit is out of service. -/
def portIsolated (env : Env) (v : Dev) (p : Nat) : Bool := isolatedEntry env v 0x10 (portDie p) (portUnit p)

/-- A module of a coupling that did not train, or is listed, is down (R360). -/
def couplingOut (env : Env) (d edge mdl : Nat) (v : Dev) : Dev :=
  if mdl = 0 then bothEnds env d edge (fun d e v => v.setF (EF_CPL_STATUS d e) 1 3 0) v
  else match neighbour env.hw.part d edge with
    | none => v
    | some e =>
      let ends := [d * 4 + edge, e * 4 + opposite edge]
      v.modNet (fun n => { n with downMods := n.downMods.filter (fun x => !ends.contains x) ++ ends })

/-- What a failed part does: the block is repaired by a spare (`true`) or taken out of service. -/
def partEffect (env : Env) (kind d loc : Nat) (v : Dev) : Bool × Dev :=
  let lo2 := fldN loc 0 2
  match kind with
  | 0x01 => (false, isolateCore (pMake d (fldN loc 6 6) (fldN loc 0 6)) v)
  | 0x02 => (true, v)
  | 0x03 => (false, (List.range 33).foldl (fun v s => isolateCore (pMake d (fldN loc 0 6) s) v) v)
  | 0x04 => let v := churnSpare d lo2 false (fldN loc 2 7) v; (!v.fb (CHN_STATUS d lo2) 3, v)
  | 0x05 => let v := churnSpare d lo2 true (fldN loc 2 7) v; (!v.fb (CHN_STATUS d lo2) 3, v)
  | 0x06 => (false, fenceChurn d lo2 v)
  | 0x07 => let v := mapSpareBank d (fldN loc 0 6) v; (!v.net.fencedBanks.contains (d * 64 + fldN loc 0 6), v)
  | 0x08 => let v := mapSpareRows d (fldN loc 0 6) 1 v; (!v.net.fencedBanks.contains (d * 64 + fldN loc 0 6), v)
  | 0x09 => (false, fenceBlock (mBlock d 2 (fldN loc 0 4)) v)
  | 0x0A => (false, fenceBlock (mBlock d 5 (1 + lo2)) v)
  | 0x0B =>
    if fldN loc 2 1 = 0 then
      (true, bothEnds env d lo2 (fun d e v => v.setF (EF_CPL_STATUS d e) 4 3 (min 4 (v.fd (EF_CPL_STATUS d e) 4 3 + 1))) v)
    else
      (true, v.modNet (fun t =>
        { t with ttRepairs := SMap.set 0 t.ttRepairs (d * 4 + lo2) (min 4 (SMap.get 0 t.ttRepairs (d * 4 + lo2) + 1)) }))
  | 0x0C => (false, bothEnds env d lo2 (fun e _ v => degradeDie env e v) (couplingOut env d lo2 (fldN loc 2 1) v))
  | 0x0D => (false, v.setF (FW_STATUS d) (2 * lo2 + 2) 2 3)
  | 0x0E => (false, isolateDie env d (v.setF (FW_STATUS d) 0 2 3))
  | 0x0F => (false, isolateDie env d v)
  | 0x10 => (false, v)
  | 0x11 => (false, isolateDie env d v)
  | _ => (true, v)

/-- What a failed part does; a die in service with a block out of service is DEGRADED (R363). -/
def defectEffect (env : Env) (kind d loc : Nat) (v : Dev) : Bool × Dev :=
  let r := partEffect env kind d loc v
  (r.1, if r.1 then r.2 else degradeDie env d r.2)

/-- The whole block of a listed entry is out of service (R367): the block of a part that a spare could have replaced, too. -/
def blockOut (env : Env) (kind d loc : Nat) (v : Dev) : Dev :=
  let lo2 := fldN loc 0 2
  degradeDie env d (match kind with
    | 0x02 => isolateCore (pMake d (fldN loc 6 6) (fldN loc 0 6)) v
    | 0x04 => fenceChurn d lo2 v
    | 0x05 => fenceChurn d lo2 v
    | 0x07 => fenceBank d (fldN loc 0 6) v
    | 0x08 => fenceBank d (fldN loc 0 6) v
    | 0x0B => couplingOut env d lo2 (fldN loc 2 1) v
    | _ => (defectEffect env kind d loc v).2)

/-! ## Entries (R366) -/

/-- An entry of 8 bytes. -/
def defectEntry (kind d loc source : Nat) (repaired : Bool) : Nat :=
  2 + 0x100 * kind + 0x10000 * d + 0x1000000 * (loc % 0x1000000) + 0x1000000000000 * source
    + 2 ^ 56 * b2n repaired + 2 ^ 57 * b2n (!repaired)

/-- Entries go to the crock, up to 4,096 in all; what does not fit sets LIST_FULL and makes an FW record. Crockless or read-only,
nothing is written (R369, R370). -/
def appendDefects (env : Env) (es : List Nat) (v : Dev) : Dev :=
  let w := v.rd (CR_STATUS env.master)
  if es = [] ∨ bit w 2 = false ∨ bit w 3 = true ∨ bit w 4 = true ∨ bit w 8 = true then v
  else
    let l := v.crock.defects ++ es
    let v := { v with crock := { v.crock with defects := l.take 4096 } }
    if 4096 < l.length then raiseFw env env.master 0x43 (mBlock env.master 7 0) 0 0 (v.setB (BU_STATUS env.master) 13 true) else v

/-- An entry found in this start, unless the list holds its KIND and LOCATION. It goes to the crock at COMMIT_DEFECTS, and at once when that
has been: in OPEN_PORTS and in the field (R366, R390). -/
def recordDefect (env : Env) (e : Nat) (v : Dev) : Dev :=
  if (knownList env v ++ v.bu.found).any (fun x => entryKey x == entryKey e) then v
  else
    let v := { v with bu := { v.bu with found := v.bu.found ++ [e] } }
    if buStep env v = 12 then appendDefects env [e] v else v

/-- A failure is dealt with and recorded. -/
def applyDefect (env : Env) (source : Nat) (v : Dev) (f : Found) : Dev :=
  if env.has f.die.val then
    let r := defectEffect env f.kind.val f.die.val f.loc v
    recordDefect env (defectEntry f.kind.val f.die.val f.loc source r.1) r.2
  else v

/-- The bank of a listed entry kept its contents, with its spares, through the reset that began this start (R449). -/
def sparesKept (v : Dev) (e : Nat) : Bool :=
  (fldN e 8 8 == 7 || fldN e 8 8 == 8) && v.pw.heldBanks.contains (fldN e 16 3 * 64 + fldN e 24 6)

/-- A listed entry with ISOLATED keeps its block out of service; one with REPAIRED maps its spare in, unless this start has found the same
failure (R367). One with another structure-version byte is discarded, with an IF record (R5). -/
def mergeEntry (env : Env) (v : Dev) (e : Nat) : Dev :=
  let d := fldN e 16 3
  if fldN e 0 8 ≠ 2 then
    raise env { die := env.master, cls := clsIF, owner := 4, source := 0x27, master := mBlock env.master 7 0, access := accCheck, addr := 0,
                info := fldN e 0 8 } v
  else if !env.has d then v
  else if fldN e 57 1 = 1 then blockOut env (fldN e 8 8) d (fldN e 24 24) v
  else if fldN e 56 1 = 1 ∧ !sparesKept v e ∧ !v.bu.found.any (fun x => entryKey x == entryKey e) then
    (defectEffect env (fldN e 8 8) d (fldN e 24 24) v).2
  else v

/-- BU_DEFECTS: entries in the list, and those found in this start. Without a crock the list is what this start found (R369). -/
def buDefects (env : Env) (v : Dev) : Nat :=
  let w := v.rd (CR_STATUS env.master)
  let total := if bit w 2 && !bit w 4 then (knownList env v).length else v.bu.found.length
  min total 4096 + 0x10000 * min v.bu.found.length 8191

end Sys2Proof.Machine
end

