-- ==== Sys2Proof/Machine/BringUp.lean ====
section
/-! DEFINITION. Bring-up: the step handshake, the twelve steps, readiness, pad release and the re-bring of one die (R354 to R375, R431,
R453, R454). What a test or a circuit finds is an operand of the row; what the rules make of it is here. -/
namespace Sys2Proof.Machine

open Sys2Proof

/-! ## The step handshake (R357 to R359) -/

/-- A write of a BU register: the bring-up port once its interface responds, firmware or the debug port, while PERST_N is high (R305, R354,
R355). -/
def buWrite (env : Env) (who : Party) (r : Reg) (f : Dev → Dev) (v : Dev) : Dev :=
  let ok := match who with
    | .port p => p.val == env.bringUpPort
    | .engine _ => false
    | _ => true
  let silent := match who with
    | .port p => !(v.port p.val).lp.available
    | _ => false
  if !v.bu.perst || v.pw.thermtrip || v.pw.phase == .hold || silent then v else if ok then debugGate env who env.master 4 r f v else raiseSE env env.master 4 who (regAddr v r) v

/-- The write of step code `k` is accepted. -/
def buAccepts (env : Env) (v : Dev) (k : Nat) : Bool :=
  let w := v.rd (BU_STATUS env.master)
  let last := fld w 0 4
  let result := fld w 6 2
  !buRunning env v && !bit w 8 && result != 3 && decide (1 ≤ k) && decide (k ≤ 12)
    && ((k == last + 1 && (last == 0 || decide (result ≤ 1))) || (k == last && last != 0 && result == 2))

/-- STEP becomes `k` and the step runs. -/
def buStart (env : Env) (k : Nat) (v : Dev) : Dev :=
  let v := v.wrN (BU_STEP env.master) k
  let v := (v.setF (BU_STATUS env.master) 0 4 k).setF (BU_STATUS env.master) 4 2 1
  { v with bu := { v.bu with start := env.now, begun := false, result := 0, cause := 0, causeDie := 0 } }

def seqErr (env : Env) (v : Dev) : Dev := v.setB (BU_STATUS env.master) 9 true

/-- A write to BU_STEP. -/
def buStepWrite (env : Env) (x : Word) (v : Dev) : Dev :=
  if buAccepts env v (fld x 0 4) then buStart env (fld x 0 4) v else seqErr env v

/-- The running step has a result of at least this weight, with its cause and die. -/
def buNote (result cause die : Nat) (v : Dev) : Dev :=
  if v.bu.result < result then { v with bu := { v.bu with result := result, cause := cause, causeDie := die } } else v

/-- Causes of BU_DETAIL. -/
abbrev causeNoCrock : Nat := 1
abbrev causeCrockAuth : Nat := 2
abbrev causeFwSig : Nat := 3
abbrev causeFwRollback : Nat := 4
abbrev causeMasterFail : Nat := 5
abbrev causeFwStart : Nat := 6
abbrev causeDefectWrite : Nat := 7
abbrev causeTimeout : Nat := 8
abbrev causeHostImage : Nat := 9
abbrev causeIsolated : Nat := 10

/-- What step `k` runs: at the write of its code, or once for a step whose write the write queue has applied (log entry 31). -/
def stepRow (k : Nat) (who : Party) (work : Env → Dev → Dev) (env : Env) (v : Dev) : Dev :=
  let run (v : Dev) : Dev := work env { v with bu := { v.bu with begun := true } }
  if buRunning env v && buStep env v == k then if v.bu.begun then buWrite env who (BU_STEP env.master) (seqErr env) v else run v
  else buWrite env who (BU_STEP env.master) (fun v => if buAccepts env v k then run (buStart env k v) else seqErr env v) v

/-! ## What the steps find -/

/-- The kinds of failure that a step can find (R360, R366). -/
def stepKinds : Nat → List Nat
  | 1 => [0x0F, 0x11]
  | 2 => [0x0F]
  | 3 => [0x0B, 0x0C]
  | 4 => [0x01, 0x02, 0x04, 0x05, 0x06, 0x07, 0x08, 0x09, 0x10, 0x11]
  | 7 => [0x0D, 0x0E]
  | 8 => [0x01]
  | 9 => [0x01, 0x03, 0x04, 0x05, 0x06, 0x09, 0x0A, 0x0C, 0x0D, 0x0E, 0x0F]
  | 10 => [0x01, 0x03, 0x04, 0x05, 0x06, 0x09, 0x0A, 0x0C, 0x0D, 0x0E, 0x0F]
  | 12 => [0x10]
  | _ => []

/-- A failure that ends the start: in the master die, its coachman, its PSRAM, or the bring-up port's SRAM (R360). -/
def fatalFound (env : Env) (k : Nat) (f : Found) : Bool :=
  f.die.val == env.master && ((f.kind.val == 0x0F) || (f.kind.val == 0x0E && k != 7) || (f.kind.val == 0x11)
    || (f.kind.val == 0x10 && k == 4 && portUnit env.bringUpPort == f.loc % 2))

/-- A finding counts: it is on a die of the part and of a kind that the step can find. -/
def foundHere (env : Env) (k : Nat) (f : Found) : Bool := env.has f.die.val && (stepKinds k).contains f.kind.val

/-- A step deals with a part that failed: a repair leaves it OK, an isolated block makes it DEGRADED, and the master die FATAL. A part that is
`late` at the step's maximum counts as failed, with a cause of its own (R358). -/
def stepFound (env : Env) (k : Nat) (late : Bool) (v : Dev) (f : Found) : Dev :=
  if !foundHere env k f || (f.kind.val == 0x0E && f.die.val == env.master && k == 7) then v
  else if fatalFound env k f then buNote 3 (if late then causeTimeout else causeMasterFail) env.master v
  else
    let r := defectEffect env f.kind.val f.die.val f.loc v
    let v := recordDefect env (defectEntry f.kind.val f.die.val f.loc k r.1) r.2
    if r.1 then v else buNote 1 (if late then causeTimeout else causeIsolated) f.die.val v

/-! ## Steps 1 to 3 -/

/-- The RWDS delay of a PSRAM channel is calibrated: a free delay, or CAL_ERR (R476). -/
def calibrate (d : Nat) (ok : Bool) (v : Dev) : Dev :=
  let x := v.takeFree
  if ok then (x.2.setF (XR_CAL d) 0 8 (x.1 % 256)).setB (XR_STATUS d) 0 true else (v.setB (XR_STATUS d) 0 false).setB (XR_STATUS d) 1 true

/-- Bytes from the start of a die's PSRAM on are written: whole blocks of 32 bytes, and a last one that they do not fill as a
read-modify-write (R477). -/
def psramStore (d : Nat) (bs : List Byte) (v : Dev) : Dev :=
  let v := v.inc64 (XR_WR_LO d) (XR_WR_HI d) ((bs.length + 31) / 32)
  (if bs.length % 32 = 0 then v else v.inc (XR_RMW d) 1).st (psramMem d 0) bs

/-- `n` bytes of a die's PSRAM are read (R477). -/
def psramRead (d n : Nat) (v : Dev) : Dev := v.inc64 (XR_RD_LO d) (XR_RD_HI d) ((n + 31) / 32)

/-- A die is powered: it comes into service, its PSRAM and CROCK pads and its PSRAM's reset are released, its PSRAM channel is enabled; the
crock's reset pin is low until READ_CROCK (R453, R465, R476). -/
def powerDie (env : Env) (bad : List Found) (v : Dev) (d : Nat) : Dev :=
  let v := (setDieState env d 1 v).wr (PM_PAD_RELEASE d) (v.rd (PM_PAD_RELEASE d) &&& 0xFFF3FFFF)
  let v := { v with pins := { v.pins with hrReset := if v.pins.hrReset.contains d then v.pins.hrReset else d :: v.pins.hrReset, crReset := v.pins.crReset && d != env.master } }
  calibrate d (!bad.any (fun f => f.kind.val == 0x11 && f.die.val == d)) (v.setB (XR_CTRL d) 0 true)

/-- POWER_DIES. -/
def powerDies (found : List Found) (env : Env) (v : Dev) : Dev :=
  let v := env.dieList.foldl (powerDie env found) v
  found.foldl (stepFound env 1 false) v

/-- Frequency of a clock domain at an entry: CHK, NCK, FCK follow it, MCK, TBK and PER do not (R432, R439). -/
def domainMHz (e p : Nat) : Nat := if p < 3 then oppCol e (p + 1) else [800, 1000, 200].getD (p - 3) 100

/-- The clocks of a die run from their PLLs at the entry in force. -/
def lockDie (env : Env) (v : Dev) (d : Nat) : Dev :=
  let v := ((v.wrN (CK_PLL_EN d) 0x3F).setF (CK_SEL d) 0 6 0x3F).wr (CK_STATUS d) (v.rd (CK_STATUS d) ||| 0x3F3F)
  (List.range 6).foldl (fun v p => setFreq env d p (domainMHz (oppNow env v) p) v) v

/-- LOCK_PLLS. -/
def lockPlls (found : List Found) (env : Env) (v : Dev) : Dev :=
  found.foldl (stepFound env 2 false) ((env.dieList.filter (fun d => dieState env v d != 4)).foldl (lockDie env) v)

/-- The couplings of a die that carry events. -/
def upEdges (env : Env) (v : Dev) (d : Nat) : List (Nat × Nat) :=
  (List.range 4).filterMap (fun e => match neighbour env.hw.part d e with
    | some n => if v.fb (EF_CPL_STATUS d e) 1 then some (e, n) else none
    | none => none)

/-- Distances to die `t` after `fuel` rounds over couplings that carry events. -/
def dieDist (env : Env) (v : Dev) (t : Nat) : Nat → List Nat
  | 0 => (List.range 8).map (fun d => if d = t then 0 else 99)
  | fuel + 1 =>
    let l := dieDist env v t fuel
    (List.range 8).map (fun d => (upEdges env v d).foldl (fun b x => min b (1 + l.getD x.2 99)) (l.getD d 99))

/-- The hop towards die `t`: east or west before north or south, on a shortest way over working couplings (R138; log entry 32).
NEXT of R137, 7 for none. -/
def defaultHop (env : Env) (v : Dev) (l : List Nat) (d t : Nat) : Nat :=
  if d = t then 0
  else match (upEdges env v d).find? (fun x => decide (l.getD x.2 99 < l.getD d 99)) with
    | some x => x.1 + 1
    | none => 7

/-- VCSW: the entry turns east or west and some die enters this one over a north or south coupling towards `t` (R139). -/
def defaultTurn (env : Env) (v : Dev) (l : List Nat) (d t : Nat) : Bool :=
  let h := defaultHop env v l d t
  (h == 1 || h == 2) && (upEdges env v d).any (fun x => decide (2 ≤ x.1) && defaultHop env v l x.2 t == opposite x.1 + 1)

/-- The default die route table goes into every die's EF_DROUTE. -/
def defaultRoutes (env : Env) (v : Dev) : Dev :=
  env.dieList.foldl (fun v t =>
    let l := dieDist env v t 8
    env.dieList.foldl (fun v d =>
      let x := defaultHop env v l d t + 8 * b2n (defaultTurn env v l d t)
      v.modFab (fun b => { b with droute := SMap.set 0 b.droute (d * 8 + t) (x + 1), staged := SMap.set 0 b.staged (d * 8 + t) (x + 1) })) v) v

/-- Couplings between dies that are powered come up. -/
def trainEdges (env : Env) (v : Dev) : Dev :=
  env.dieList.foldl (fun v d => (List.range 4).foldl (fun v e => match neighbour env.hw.part d e with
    | none => v
    | some n =>
      if dieState env v d != 4 && dieState env v n != 4 then v.setF (EF_CPL_STATUS d e) 0 4 3
      else (v.setF (EF_CPL_STATUS d e) 0 4 1).modNet (fun t => { t with downMods := t.downMods.filter (fun x => x != d * 4 + e) ++ [d * 4 + e] })) v) v

/-- A die in service with no working coupling is isolated; the master die so is FATAL while other dies are in service. -/
def dropLonely (env : Env) (v : Dev) : Dev :=
  let others := env.dieList.any (fun d => d != env.master && dieState env v d != 4)
  (env.dieList.filter (fun d => dieUp env v d && (upEdges env v d).isEmpty)).foldl (fun v d =>
    if d = env.master then (if others then buNote 3 causeMasterFail d v else v)
    else buNote 1 causeIsolated d (applyDefect env 3 v ⟨0x0F, Fin.ofNat 8 d, 0⟩)) v

/-- TRAIN_COUPLINGS, but for the follower time bases. -/
def trainCouplings (found : List Found) (env : Env) (v : Dev) : Dev :=
  let v := found.foldl (stepFound env 3 false) (trainEdges env v)
  defaultRoutes env (dropLonely env v)

/-- The followers are set once to the master's value (R32). -/
def trainClock (env : Env) (dies : List Nat) : Clock :=
  { tb := dies.foldl (fun m d => SMap.set 0 m d (env.clk.now env.master)) env.clk.tb,
    withhold := env.clk.withhold.filter (fun d => !dies.contains d) }

/-- From its training on, a follower expects sync words (R32, R34). -/
def trainSync (env : Env) (dies : List Nat) (v : Dev) : Dev :=
  v.modTick (fun t => { t with lastSync := (dies.filter env.follower).foldl (fun m d => SMap.set 0 m d env.now) t.lastSync })

/-! ## The block kinds of R365 -/

/-- Maximum of a step in ns (R360); a fallback adds 320 ms to START_FW (R364). -/
def stepMax (env : Env) (v : Dev) (k : Nat) : Nat :=
  let ms := match k with
    | 1 => 100 | 2 => 10 | 3 => 80
    | 4 => if v.fb (BU_ARG env.master) 0 then 600 else 260
    | 5 => 120 | 6 => 70
    | 7 => if v.fb (BU_STATUS env.master) 12 then 570 else 250
    | 8 => 10 | 9 => 620 | 10 => 720 | 11 => 180 | _ => 20
  ms * 1000000

/-- Coverage floors of a block kind (R365). -/
def kaFloor (k : Nat) : Nat := if k = 5 then 0 else if k = 6 then 9800 else 10000
def bistFloor (k : Nat) : Nat := [9600, 9700, 9550, 9550, 9650, 0, 9400, 9200].getD k 0

/-- The block kind of R365 that a defect kind belongs to. -/
def benchKind (kind : Nat) : Nat :=
  match kind with
  | 0x01 => 0 | 0x02 => 0 | 0x03 => 1 | 0x04 => 2 | 0x05 => 2 | 0x06 => 2 | 0x07 => 5 | 0x08 => 5 | 0x09 => 3 | 0x0A => 4
  | 0x0B => 7 | 0x0C => 7 | _ => 6

/-- A free coverage of at least the floor, in 0.01 %. -/
def coverage (floor x : Nat) : Nat := floor + x % (10001 - floor)

/-- The figures of a kind so far. -/
def kindFig (v : Dev) (k : Nat) : KindFig := (SMap.get none v.bu.kinds k).getD ⟨0, 0, 0, 0, 0, 0⟩
def setKindFig (k : Nat) (x : KindFig) (v : Dev) : Dev := { v with bu := { v.bu with kinds := SMap.set none v.bu.kinds k (some x) } }

/-- The blocks of a kind that a die in service tests: all but those that are held in reset. The spec names the kinds and not how their
blocks are counted: routers are counted by tile, coupling modules at each end (DESIGN CHOICE, log entry 183). -/
def kindBlocks (env : Env) (v : Dev) (k d : Nat) : Nat :=
  match k with
  | 0 => 2112 - (v.bu.isolated.filter (fun p => pDie p == d)).length
  | 1 => 64
  | 2 => ((List.range 4).filter (fun c => !v.blockFenced (mBlock d 0 c))).length
  | 3 => ((List.range 16).filter (fun s => !v.blockFenced (mBlock d 2 s))).length + (if d < 2 then 2 else 0)
  | 4 => 1 + ((List.range 4).filter (fun j => !v.blockFenced (mBlock d 5 (j + 1)))).length
  | 6 => 1 + ((List.range 4).filter (fun o => v.fd (FW_STATUS d) (2 * o + 2) 2 != 3)).length
  | 7 => 2 * ((List.range 4).filter (fun e => (neighbour env.hw.part d e).isSome)).length
  | _ => 0

def kindTested (env : Env) (v : Dev) (k : Nat) : Nat := ((env.dieList.filter (dieUp env v)).map (kindBlocks env v k)).foldl (· + ·) 0

/-- The four figures of a kind after step 9 or 10: every block is tested; how far and how long, within the step, is free within R365. -/
def noteKind (env : Env) (found : List Found) (bist : Bool) (v : Dev) (k : Nat) : Dev :=
  let old := kindFig v k
  let b := v.takeFree
  let c := b.2.takeFree
  let bad := (found.filter (fun f => benchKind f.kind.val == k)).length
  let tested := { old with tested := max old.tested (kindTested env v k), failed := old.failed + bad }
  let time := c.1 % (stepMax env v (if bist then 10 else 9) / 1000 + 1)
  setKindFig k (if bist then { tested with bist := coverage (bistFloor k) b.1, bistTime := time }
    else { tested with ka := coverage (kaFloor k) b.1, kaTime := time }) c.2

/-- Words of a vat with its spare banks and spare rows (R230). -/
def vatWords : Nat := 66 * (32768 + 16)

/-- TEST_MEMORY reports how many words of the vats it tested, as the tested figure of kind 5 (R365). -/
def noteVats (env : Env) (v : Dev) : Dev :=
  setKindFig 5 { kindFig v 5 with tested := vatWords * (env.dieList.filter (dieUp env v)).length } v

/-! ## Steps 4 to 8 -/

/-- The accumulator store and the input buffer of a core hold 0. -/
def zeroStores (v : Dev) (q : Nat) : Dev := v.modCore q (fun k => { k with acc := [], cnt := [], inbuf := [], ring := [] })

/-- The buffers, accumulators and pail images of a churn hold 0. -/
def zeroChurn (d : Nat) (v : Dev) (c : Nat) : Dev :=
  v.modChurn d c (fun k => { k with
    shadow := k.shadow.map (fun _ => 0), sumw := k.sumw.map (fun _ => 0), active := k.active.map (fun _ => 0), acc := [], corr := [], image := [] })

/-- The state memory of a separator holds 0. -/
def zeroSep (d : Nat) (v : Dev) (k : Nat) : Dev := v.modSep d k (fun s => { s with st := [], held := [] })

/-- Every memory of the device that TEST_MEMORY tests holds 0; the crock is none (R360, R362). -/
def zeroAll (v : Dev) : Dev :=
  let v := (v.cores.map (·.1)).foldl zeroStores { v with mem := v.mem.filter (fun e => decide (crockRaw 0 ≤ e.1)) }
  let v := (v.churns.map (·.1)).foldl (fun v k => zeroChurn (k / 4) v (k % 4)) v
  (v.seps.map (·.1)).foldl (fun v k => zeroSep (k / 16) v (k % 16)) v

/-- TEST_MEMORY: destructive mode leaves every tested word at 0, preserving mode as it was (R362). -/
def testMemory (found : List Found) (env : Env) (v : Dev) : Dev :=
  let v := if v.fb (BU_ARG env.master) 0 then v else zeroAll v
  found.foldl (stepFound env 4 false) (noteVats env v)

/-- The package starts without a crock (R369). -/
def crocklessStart (env : Env) (cause : Nat) (v : Dev) : Dev :=
  if v.fb (BU_CTRL env.master) 0 then (v.setB (BU_STATUS env.master) 10 true).setB (CR_STATUS env.master) 4 true
  else buNote 2 cause env.master v

/-- The crock is read: the wear record and checkpoint directory reach the CR registers, identity is in force, and the listed defects are
merged (R366, R367, R419, R425). -/
def crockRead (env : Env) (v : Dev) : Dev :=
  let m := env.master
  let v := v.crock.saved.foldl (fun v e => v.wrN (dieReg m (0x150000 + e.1)) e.2) v
  let life := v.fd (CR_LIFE m) 0 8
  let v := v.wr (CR_STATUS m) (v.rd (CR_STATUS m) ||| 7)
  let v := ((v.setB (CR_STATUS m) 3 (decide (100 ≤ life))).setB (CR_STATUS m) 6 (decide (80 ≤ life))).setB (CR_STATUS m) 7 (decide (95 ≤ life))
  let v := v.setB (BU_STATUS m) 11 (decide (100 ≤ life))
  let v := (v.setB (SEC_STATUS m) 0 true).setB (SEC_STATUS m) 1 (decide (v.crock.certLen ≠ 0))
  let v := v.crock.defects.foldl (mergeEntry env) v
  { v with bu := { v.bu with found := v.bu.found.filter (fun e => !v.listed.any (fun x => entryKey x == entryKey e)) } }

/-- A blank crock is paired (R427). -/
def pairBlank (env : Env) (v : Dev) : Dev :=
  let v := { v with crock := { v.crock with
    blank := false, enrol := v.crock.enrol + 1, arc := 0, defects := [], certLen := 0, slotA := 0, slotB := 0, imageA := none, imageB := none,
    saved := [], erases := [], spareMap := [], ckpt := [] } }
  logCrock env 5 (v.setB (CR_STATUS env.master) 5 true)

/-- READ_CROCK: `auth` says whether a crock that is not blank authenticates; CR_RESET_N is released (R369, R419, R423, R427, R465). -/
def readCrock (auth : Bool) (env : Env) (v : Dev) : Dev :=
  let v := { v with pins := { v.pins with crReset := true } }
  if !v.pins.crockDet then crocklessStart env causeNoCrock v
  else if v.crock.blank then crockRead env (pairBlank env v)
  else if auth then crockRead env v
  else crocklessStart env causeCrockAuth v

/-- Offset of a firmware slot (R422). -/
def slotOffset (k : Nat) : Nat := 0x1000000 * (k + 1)

/-- The bytes of a firmware slot: as many as its header's LENGTH says, within 16 MiB. -/
def slotImage (v : Dev) (k : Nat) : List Byte := v.ldBytes (crockRaw (slotOffset k)) (min (v.ldN (crockRaw (slotOffset k + 8)) 4) 0x1000000)

/-- Checks 1 to 4 of R418. -/
def imageSigned (bs : List Byte) : Bool :=
  let n := leAt bs 8 4
  leAt bs 0 1 == 2 && leAt bs 1 1 == 1 && decide (512 ≤ n) && decide (n ≤ 0x1000000) && decide (n ≤ bs.length)
    && leAt bs 22 10 == 0 && leAt bs 272 240 == 0
    && Config.hash ((bs.drop 80).take 96) == Config.rootHash
    && Config.sigValid (leAt bs 80 96) (bs.take 176) (leAt bs 176 96)
    && leAt bs 32 48 == Config.hash ((bs.take n).drop 512)

/-- What the header says of an image. -/
def imageOf (bs : List Byte) : Image := ⟨leAt bs 2 2, leAt bs 4 4, leAt bs 20 1, leAt bs 21 1, Config.hash (bs.take (leAt bs 8 4)), leAt bs 8 4⟩

/-- All checks of R418; the last is not made without a crock (R369). -/
def imageAccepted (env : Env) (v : Dev) (bs : List Byte) : Bool :=
  imageSigned bs && (v.fb (BU_STATUS env.master) 10 || decide (v.crock.arc ≤ (imageOf bs).svn))

/-- The host image of R371, if it lies where it must. -/
def hostImage (env : Env) (v : Dev) : Option (List Byte) :=
  let off := v.fd (BU_FW_OFF env.master) 0 25
  let len := v.fd (BU_FW_LEN env.master) 0 25
  if off % 64 = 0 ∧ len ≠ 0 ∧ off + len ≤ hostPage then some (v.ldBytes (sramMem env.bringUpPort off) len) else none

/-- The cause of a step with no valid image: an image older than the counter, or no image that passed its signature check. -/
def imageCause (l : List (List Byte)) : Nat := if l.any imageSigned then causeFwRollback else causeFwSig

/-- The images that VERIFY_FW may take, in order, with their place: 0 A, 1 B, 2 host. -/
def candidates (env : Env) (v : Dev) : List (Nat × List Byte) :=
  if v.fb (BU_STATUS env.master) 10 then []
  else [(v.crock.active, slotImage v v.crock.active), (1 - v.crock.active, slotImage v (1 - v.crock.active))]

/-- VERIFY_FW. A slot found in TRIAL has returned to VALID (R431). -/
def verifyFw (env : Env) (v : Dev) : Dev :=
  let c := v.crock
  let v := { v with crock := { c with slotA := if c.slotA = 4 then 2 else c.slotA, slotB := if c.slotB = 4 then 2 else c.slotB } }
  let take (l : List (Nat × List Byte)) : Dev :=
    match l.find? (fun x => imageAccepted env v x.2) with
    | some x => { v with fw := { v.fw with chosen := some (x.1, imageOf x.2) } }
    | none => buNote 2 (imageCause (l.map (·.2))) env.master v
  if v.fb (BU_CTRL env.master) 1 then
    match hostImage env v with
    | some bs => take [(2, bs)]
    | none => buNote 2 causeHostImage env.master v
  else take (candidates env v)

/-- The bytes of the image that was chosen. -/
def chosenBytes (env : Env) (v : Dev) (k : Nat) : List Byte := if k < 2 then slotImage v k else (hostImage env v).getD []

/-- The region entries of a die's PSRAM: the non-secure part of the image copy, its secure-monitor part with the secure monitor's data,
the fault handler's, the log component's, and one for each ostler, the last with the trace staging (R401). Where the secure-monitor part
lies in the image is not stated: it is taken to be its end, from a free place on (DESIGN CHOICE, log entry 33). -/
def psramRegions (d : Nat) (v : Dev) : Dev :=
  let x := v.takeFree
  let cut := 1 + x.1 % 4095
  let rgn (v : Dev) (r : Nat × Nat × Nat × Bool × Bool) : Dev :=
    (v.wrN (SEC_RGN_A d r.1) (r.2.1 + (r.2.2.1 - 1) * 0x10000)).wrN (SEC_RGN_B d r.1)
      (2 + 4 * b2n r.2.2.2.1 + 8 + 0x40 + 0x1000 * b2n r.2.2.2.2)
  [(0, 0, cut, false, false), (1, cut, 18 * 256, true, true), (2, 18 * 256, 20 * 256, false, true), (3, 20 * 256, 22 * 256, false, true),
   (4, 22 * 256, 24 * 256, false, true), (5, 24 * 256, 26 * 256, false, true), (6, 26 * 256, 28 * 256, false, true),
   (7, 28 * 256, 31 * 256, false, true)].foldl rgn x.2

/-- The watchdogs of the processors of a die start with their firmware: the coachman's and the ostlers' (R403). -/
def serveDog (env : Env) (d proc : Nat) (v : Dev) : Dev :=
  { v with
    fw := { v.fw with served := SMap.set 0 v.fw.served (d * 5 + proc) (env.nowOf d) },
    tick := { v.tick with
      paused := SMap.set 0 v.tick.paused (d * 8 + 1 + proc) 0,
      haltAt := if v.tick.halted.contains (d * 8 + 1 + proc) then SMap.set 0 v.tick.haltAt (d * 8 + 1 + proc) (env.nowOf d) else v.tick.haltAt } }
def serveDogs (env : Env) (d : Nat) (v : Dev) : Dev := (List.range 5).foldl (fun v k => serveDog env d k v) v

/-- Firmware of a die runs from the image (R360, R401). -/
def startDie (env : Env) (k : Nat) (img : Image) (bs : List Byte) (v : Dev) (d : Nat) : Dev :=
  let v := psramRegions d (psramStore d bs v)
  let v := (v.wrN (FW_IMAGE d) img.ver).wrN (FW_SVN d) (img.svn + 0x10000 * (if d = env.master then v.crock.arc else 0))
  let v := ((v.setF (FW_STATUS d) 0 2 0).setB (FW_STATUS d) 10 (k == 1)).setB (FW_STATUS d) 11 (k == 2)
  logFwState env d 0 0 3 (serveDogs env d { v with fw := { v.fw with badCopy := v.fw.badCopy.filter (fun x => x != d) } })

/-- The slot of an image that starts is in force (R428). -/
def slotInForce (k : Nat) (v : Dev) : Dev :=
  if k = 0 then { v with crock := { v.crock with active := 0, slotA := 3, slotB := if v.crock.slotB = 3 then 2 else v.crock.slotB } }
  else if k = 1 then { v with crock := { v.crock with active := 1, slotB := 3, slotA := if v.crock.slotA = 3 then 2 else v.crock.slotA } }
  else v

/-- Every die in service starts its coachman and ostlers. -/
def startAll (env : Env) (k : Nat) (img : Image) (found : List Found) (v : Dev) : Dev :=
  let bs := chosenBytes env v k
  let v := (env.dieList.filter (dieUp env v)).foldl (startDie env k img bs) (slotInForce k v)
  found.foldl (stepFound env 7 false) { v with fw := { v.fw with image := some img } }

/-- The master die's coachman is among what failed to start. -/
def masterFails (env : Env) (found : List Found) : Bool := found.any (fun f => f.kind.val == 0x0E && f.die.val == env.master)

/-- START_FW. -/
def startFw (found : List Found) (env : Env) (v : Dev) : Dev :=
  match v.fw.chosen with
  | none => buNote 3 causeFwStart env.master v
  | some x => if masterFails env found then v else startAll env x.1 x.2 found v

/-- FW_START_FALLBACK (R364): the slot is marked failed, and VERIFY_FW and START_FW repeat from the other one. -/
def startFallback (found : List Found) (env : Env) (v : Dev) : Dev :=
  let m := env.master
  match v.fw.chosen with
  | none => v
  | some (k, _) =>
    if !buRunning env v || buStep env v != 7 || !v.bu.begun || v.fw.image != none || v.fb (BU_STATUS m) 12
        || decide (env.now < v.bu.start + stepMax env v 7) then v
    else
      let v := if k < 2 then v.setB (BU_STATUS m) 12 true else v
      let v := if k = 0 then { v with crock := { v.crock with slotA := 5 } } else if k = 1 then { v with crock := { v.crock with slotB := 5 } } else v
      if 2 ≤ k then buNote 3 causeFwStart m v
      else
        let bs := slotImage v (1 - k)
        if imageAccepted env v bs && !masterFails env found then
          startAll env (1 - k) (imageOf bs) found { v with fw := { v.fw with chosen := some (1 - k, imageOf bs) } }
        else buNote 3 causeFwStart m v

/-- The microcode image is whole (R97): its structure-version byte, the first it holds, is 0x02, and its last four bytes are the CRC-32 of
everything before them (DEDUCED from the order in which R97 lists its parts; log entry 137). -/
def ucodeWhole (bs : List Byte) : Bool :=
  decide (7 ≤ bs.length) && leAt bs 0 1 == 2 && leAt bs (bs.length - 4) 4 == crc32 (bs.take (bs.length - 4))

/-- A core takes the microcode broadcast (R97): an image of another version is discarded (R5). -/
def loadUcode (bs : List Byte) (bad : List Nat) (v : Dev) (p : Nat) : Dev :=
  let v := if leAt bs 0 1 = 2 then v.st (progMem p 0) (bs.take 0x4000) else v
  if bad.contains p || !ucodeWhole bs then (v.setB (NC_STATUS p) 3 true).setB (NC_UCODE_STATUS p) 8 true
  else
    ((v.setB (NC_STATUS p) 3 false).wrN (NC_UCODE_STATUS p) (Config.ucodeSlots bs % 256)).wrN (NC_UCODE_ID p) (Config.ucodeId bs % 65536)

/-- NC_DIE_UCODE after a broadcast: ID and LOADED; ANY_FAIL follows the cores as it is read. -/
def noteUcode (bs : List Byte) (v : Dev) (d : Nat) : Dev := v.wrN (NC_DIE_UCODE d) (Config.ucodeId bs % 65536 + 0x10000)

/-- The image is broadcast to every physical core of a die; one of another version makes an IF record (R5, R97). -/
def broadcast (env : Env) (bs : List Byte) (bad : List Nat) (v : Dev) (d : Nat) : Dev :=
  let v := if leAt bs 0 1 = 2 then v
    else raise env { die := d, cls := clsIF, owner := 4, source := 0x27, master := mBlock d 7 0, access := accCheck, addr := 0,
                     info := leAt bs 0 1 } v
  noteUcode bs ((List.range 2112).foldl (fun v i => loadUcode bs bad v (pMake d 0 i)) v) d

/-- The microcode image in the firmware image of the master die's PSRAM. -/
def ucodeBytes (v : Dev) (d : Nat) : List Byte :=
  v.ldBytes (psramMem d (v.ldN (psramMem d 12) 4)) (v.ldN (psramMem d 16) 4)

def coreOfFound (f : Found) : Nat := pMake f.die.val (fldN f.loc 6 6) (fldN f.loc 0 6)

/-- Every physical core of a die as a finding: an image that is not whole fails them all. -/
def allCores (d : Nat) : List Found :=
  (List.range 64).flatMap (fun t => (List.range 33).map (fun k => ⟨1, Fin.ofNat 8 d, t * 64 + k⟩))

/-- LOAD_MICROCODE: `found` names the cores whose check fails although the image is whole. -/
def loadMicrocode (found : List Found) (env : Env) (v : Dev) : Dev :=
  let bs := ucodeBytes v env.master
  let dies := env.dieList.filter (dieUp env v)
  let found := if ucodeWhole bs then found else dies.flatMap allCores
  let bad := (found.filter (fun f => f.kind.val == 1)).map coreOfFound
  let v := dies.foldl (broadcast env bs bad) v
  found.foldl (stepFound env 8 false) v

/-! ## Steps 9 to 12 -/

/-- KNOWN_ANSWER, and with `bist` BIST. -/
def testBlocks (bist : Bool) (found : List Found) (env : Env) (v : Dev) : Dev :=
  let k := if bist then 10 else 9
  let v := ([0, 1, 2, 3, 4, 6, 7]).foldl (noteKind env (found.filter (foundHere env k)) bist) v
  found.foldl (stepFound env k false) v

/-- The good slots of a tile, in ascending order (R368). -/
def goodSlots (env : Env) (v : Dev) (d t : Nat) : List Nat :=
  if dieUp env v d then (List.range 33).filter (fun s => !v.bu.isolated.contains (pMake d t s)) else []

/-- The placement of a tile's core numbers and its spare. -/
def placeTile (env : Env) (v : Dev) (d t : Nat) (pl : Placement) : Placement :=
  let good := goodSlots env v d t
  let pl := (List.range 32).foldl (fun pl k => match good[k]? with
    | none => pl
    | some s =>
      let n := 2048 * d + 32 * t + k
      { pl with place := SMap.set 0 pl.place n (pMake d t s + 1), number := SMap.set 0 pl.number (pMake d t s) (n + 1) }) pl
  match good[32]? with
  | none => pl
  | some s => { pl with spare := SMap.set 0 pl.spare (d * 64 + t) (pMake d t s + 1) }

/-- The initial placement table. -/
def initialPlacement (env : Env) (v : Dev) : Placement :=
  env.dieList.foldl (fun pl d => (List.range 64).foldl (fun pl t => placeTile env v d t pl) pl)
    { v.place with built := true, place := [], number := [], spare := [], spareUsed := [], last := [] }

/-- A core that HOLD retained loses its contents when its number is placed elsewhere (R454). -/
def retainCheck (env : Env) (v : Dev) (e : Nat × Nat) : Dev :=
  if v.placeOf e.1 = some e.2 then v else (v.clearMem (coreMem e.2 0) 0x40000).setB (PM_STATUS env.master) 2 true

/-- COMMIT_DEFECTS: `fails` says that the crock write fails. The entries are in the crock when the step ends with its write made. -/
def commitDefects (fails : Bool) (env : Env) (v : Dev) : Dev :=
  let m := env.master
  let v := { v with place := initialPlacement env v }
  let v := v.pw.cores.foldl (retainCheck env) v
  let v := { v with pw := { v.pw with cores := [] } }
  let w := v.rd (CR_STATUS m)
  if bit w 4 then v
  else if bit w 3 then buNote 1 causeDefectWrite m v
  else if fails then buNote 1 causeDefectWrite m (raiseFw env m 0x44 (mBlock m 7 0) 0 0 (retireSector env 4 v))
  else v

/-- The ports that OPEN_PORTS opens: their die is in service, their pads are released, and they are not isolated (R360, R372, R453). -/
def portOpens (env : Env) (v : Dev) (p : Nat) : Bool := dieUp env v (portDie p) && !v.padsLatched p && !portIsolated env v p

def openPortsStep (env : Env) (v : Dev) : Dev :=
  (List.range 4).foldl (fun v p => if portOpens env v p then v else buNote 1 causeIsolated (portDie p) v) v

/-! ## The end of a step (R358) -/

/-- A part that did not finish by the step's maximum counts as failed, in the figures of its kind too (R358, R365). -/
def lateFound (env : Env) (k : Nat) (v : Dev) (f : Found) : Dev :=
  if !env.has f.die.val then v
  else if k = 5 ∨ k = 6 then buNote 2 causeTimeout f.die.val v
  else if k = 11 then buNote 1 causeTimeout f.die.val v
  else
    let b := benchKind f.kind.val
    let v := if (k = 9 ∨ k = 10) ∧ foundHere env k f = true then setKindFig b { kindFig v b with failed := (kindFig v b).failed + 1 } v else v
    stepFound env k true v f

/-- What the end of a step brings: routes around what did not train, memory open, the entries found in the crock, ports open and READY. -/
def stepCompletes (env : Env) (k : Nat) (late : Bool) (v : Dev) : Dev :=
  if k = 3 ∧ late = true then defaultRoutes env (dropLonely env v)
  else if k = 4 then { v with bu := { v.bu with tested := true } }
  else if k = 11 ∧ v.bu.result = 0 then appendDefects env v.bu.found v
  else if k = 12 ∧ v.bu.result ≤ 1 then
    ((List.range 4).foldl (fun v p => if portOpens env v p then v.setB (hpStatus p) 0 true else v) v).setB (BU_STATUS env.master) 8 true
  else v

/-- The result of a step is written. -/
def writeResult (env : Env) (k : Nat) (v : Dev) : Dev :=
  let m := env.master
  let v := (v.setF (BU_STATUS m) 6 2 v.bu.result).setF (BU_STATUS m) 4 2 2
  let v := v.wrN (BU_TIME m k) (min (env.now - v.bu.start) (stepMax env v k) / 1000)
  if v.bu.result = 0 then v else v.wrN (BU_DETAIL m) (v.bu.cause + 0x100 * v.bu.causeDie)

/-- BU_STEP_END: every part has finished, or the maximum has elapsed and the parts in `late` have not. -/
def buStepEnd (late : List Found) (env : Env) (v : Dev) : Dev :=
  let k := buStep env v
  let elapsed := decide (v.bu.start + stepMax env v k ≤ env.now)
  if !buRunning env v || !v.bu.begun || (late != [] && !elapsed) then v
  else
    let waits := k == 7 && v.fw.image == none && v.bu.result != 3
    if waits && !(elapsed && v.fb (BU_STATUS env.master) 12) then v
    else
      let v := late.foldl (lateFound env k) v
      let v := if waits then buNote 3 causeFwStart env.master v else v
      writeResult env k (stepCompletes env k (late != []) v)

/-! ## Registers with a row of their own -/

/-- BOOT_HOLD is released by firmware (R373). -/
def bootRelease (env : Env) (v : Dev) : Dev := { v with bu := { v.bu with safeDue := false } }.setB (FR_SAFEN env.master) 0 false

/-- BU_CTRL: the options, and SAFE_RELEASE, which waits for firmware that is down and is refused before READY (R373). -/
def buCtrlWrite (env : Env) (x : Word) (v : Dev) : Dev :=
  let v := v.setF (BU_CTRL env.master) 0 2 (fld x 0 2)
  if !bit x 2 then v
  else if !buReady env v then seqErr env v
  else if v.fwUp env then bootRelease env v
  else { v with bu := { v.bu with safeDue := true } }

/-- Latched pad groups of a die are released (R452). -/
def padRelease (d : Nat) (x : Nat) (v : Dev) : Dev :=
  v.wr (PM_PAD_RELEASE d) (v.rd (PM_PAD_RELEASE d) &&& ~~~(w32 (x % 32 * 0x10000)))

/-- BU_PADS: the controller writes PM_PAD_RELEASE of D0 and D1 (R453). -/
def buPadsWrite (x : Word) (v : Dev) : Dev := padRelease 1 (fld x 8 5) (padRelease 0 (fld x 0 5) v)

/-- Who writes PM registers that the bring-up port may write as well (R462). -/
def pmHostWrite (env : Env) (who : Party) (d : Nat) (r : Reg) (f : Dev → Dev) (v : Dev) : Dev :=
  let ok := match who with
    | .port p => p.val == env.bringUpPort
    | .engine _ => false
    | _ => true
  blockGate env who d 4 ok false r f v

/-- An instruction register that holds EXTEST, CLAMP or HIGHZ returns to IDCODE (R483). -/
def leavePinTest (v : Dev) : Dev :=
  let back (ir : Nat) : Nat := if ir = 3 ∨ ir = 4 ∨ ir = 5 then 1 else ir
  { v with pins := { v.pins with ir := back v.pins.ir, chain := v.pins.chain.map (fun e => (e.1, (back e.2.1, e.2.2))) } }

/-- PERST_N rises: the bring-up controller and the port interfaces start (R354), and the TAP leaves EXTEST, CLAMP or HIGHZ (R483). -/
def perstDeassert (env : Env) (v : Dev) : Dev :=
  let v := leavePinTest v
  if v.bu.perst || v.pw.thermtrip then v
  else { v with bu := { v.bu with perst := true, since := env.now, perstAt := env.now } }

/-! ## Re-bringing one die (R375) -/

/-- The image copy differs from the digest that was latched (R406). -/
def copyBad (v : Dev) (d : Nat) : Bool :=
  v.fw.badCopy.contains d || (match v.fw.image with
    | some img => Config.hash (v.ldBytes (psramMem d 0) img.len) != img.hash
    | none => false)

/-- The copy is reloaded from the crock's active slot, or from the master die's PSRAM (R406). -/
def reloadCopy (env : Env) (d : Nat) (v : Dev) : Dev :=
  let n := (v.fw.image.map (·.len)).getD 0
  let v := if d = env.master then psramStore d (slotImage v v.crock.active) v
    else psramStore d (v.ldBytes (psramMem env.master 0) n) (psramRead env.master n v)
  logFwState env d 0 4 2 { v with fw := { v.fw with badCopy := v.fw.badCopy.filter (fun x => x != d) } }

/-- The free values of a list, each up to a maximum, or with `floor` from it to 10,000. -/
def freeList (g : Nat → Nat → Nat) (l : List Nat) (v : Dev) : List Nat × Dev :=
  l.foldl (fun (x : List Nat × Dev) m => let f := x.2.takeFree; (x.1 ++ [g m f.1], f.2)) ([], v)

/-- How long the stages of a re-bring took and what its quick known-answer run covered: free within the bounds of R375. -/
def noteRebring (d : Nat) (v : Dev) : Dev :=
  let t := freeList (fun m x => x % (m + 1)) [10000, 40000, 60000, 60000, 10000, 150000, 20000] v
  let c := freeList coverage (List.replicate 5 8000) t.2
  { c.2 with bu := { c.2.bu with rebrung := SMap.set none c.2.bu.rebrung d (some ⟨t.1, c.1⟩) } }

/-- DIE_REBRING: every stage on a die that a die warm reset has taken down, whose isolated ostlers stay so (R404); `found` is what its quick tests find. -/
def dieRebring (d : Nat) (found : List Found) (env : Env) (v : Dev) : Dev :=
  if !v.dieDown.contains d then v
  else
    let v := calibrate d (!found.any (fun f => f.kind.val == 0x11 && f.die.val == d)) ((lockDie env v d).setB (XR_CTRL d) 0 true)
    let v := (List.range 4).foldl (fun v o => if v.fd (FW_STATUS d) (2 * o + 2) 2 = 3 then v else v.setF (FW_STATUS d) (2 * o + 2) 2 0) v
    let v := (serveDogs env d (v.setF (FW_STATUS d) 0 2 0)).wr (PM_PAD_RELEASE d) (v.rd (PM_PAD_RELEASE d) &&& 0xFFFBFFFF)
    let v := if copyBad v d then reloadCopy env d v else v
    let bs := ucodeBytes v d
    let found := if ucodeWhole bs then found else found ++ allCores d
    let bad := (found.filter (fun f => f.kind.val == 1 && f.die.val == d)).map coreOfFound
    let v := broadcast env bs bad v d
    let v := found.foldl (fun v f => if f.die.val == d then applyDefect env 0x30 v f else v) v
    noteRebring d { v with dieDown := v.dieDown.filter (fun x => x != d) }

/-! ## The rows -/

def execPerstNDeassert (s : State) : Host.Outcome State Fault Refusal := .next (s.onDev perstDeassert)
def execPowerDies (who : Party) (found : List Found) (s : State) : Host.Outcome State Fault Refusal :=
  .next (s.onWrite who s.env.master (stepRow 1 who (powerDies found)))
def execLockPlls (who : Party) (found : List Found) (s : State) : Host.Outcome State Fault Refusal :=
  .next (s.onWrite who s.env.master (stepRow 2 who (lockPlls found)))
/-- The follower time bases are set with the step (R32). -/
def execTrainCouplings (who : Party) (found : List Found) (s : State) : Host.Outcome State Fault Refusal :=
  let t := s.onWrite who s.env.master (stepRow 3 who (trainCouplings found))
  if t.dev.bu.begun && buStep s.env t.dev == 3 && buRunning s.env t.dev && !(s.dev.bu.begun && buStep s.env s.dev == 3 && buRunning s.env s.dev) then
    let l := s.env.dieList.filter (fun d => dieUp s.env t.dev d)
    .next { t with clk := trainClock s.env l, dev := trainSync s.env l t.dev }
  else .next t
def execTestMemory (who : Party) (found : List Found) (s : State) : Host.Outcome State Fault Refusal :=
  .next (s.onWrite who s.env.master (stepRow 4 who (testMemory found)))
def execReadCrock (who : Party) (auth : Bool) (s : State) : Host.Outcome State Fault Refusal :=
  .next (s.onWrite who s.env.master (stepRow 5 who (readCrock auth)))
def execVerifyFw (who : Party) (s : State) : Host.Outcome State Fault Refusal := .next (s.onWrite who s.env.master (stepRow 6 who verifyFw))
def execStartFw (who : Party) (found : List Found) (s : State) : Host.Outcome State Fault Refusal :=
  .next (s.onWrite who s.env.master (stepRow 7 who (startFw found)))
def execFwStartFallback (found : List Found) (s : State) : Host.Outcome State Fault Refusal := .next (s.onDev (startFallback found))
def execLoadMicrocode (who : Party) (found : List Found) (s : State) : Host.Outcome State Fault Refusal :=
  .next (s.onWrite who s.env.master (stepRow 8 who (loadMicrocode found)))
def execKnownAnswer (who : Party) (found : List Found) (s : State) : Host.Outcome State Fault Refusal :=
  .next (s.onWrite who s.env.master (stepRow 9 who (testBlocks false found)))
def execBist (who : Party) (found : List Found) (s : State) : Host.Outcome State Fault Refusal :=
  .next (s.onWrite who s.env.master (stepRow 10 who (testBlocks true found)))
def execCommitDefects (who : Party) (fails : Bool) (s : State) : Host.Outcome State Fault Refusal :=
  .next (s.onWrite who s.env.master (stepRow 11 who (commitDefects fails)))
def execOpenPorts (who : Party) (s : State) : Host.Outcome State Fault Refusal := .next (s.onWrite who s.env.master (stepRow 12 who openPortsStep))
def execBuStepEnd (late : List Found) (s : State) : Host.Outcome State Fault Refusal := .next (s.onDev (buStepEnd late))
def execBuStepWriteRefused (who : Party) (x : Word) (s : State) : Host.Outcome State Fault Refusal :=
  .next (s.onWrite who s.env.master (fun env => buWrite env who (BU_STEP env.master) (buStepWrite env x)))
def execBuCtrlSafeRelease (who : Party) (x : Word) (s : State) : Host.Outcome State Fault Refusal :=
  .next (s.onWrite who s.env.master (fun env => buWrite env who (BU_CTRL env.master) (buCtrlWrite env x)))
def execBuPadsWrite (who : Party) (x : Word) (s : State) : Host.Outcome State Fault Refusal :=
  .next (s.onWrite who s.env.master (fun env => buWrite env who (BU_PADS env.master) (buPadsWrite x)))
def execPmPadReleaseWrite (who : Party) (d : Fin 8) (x : Word) (s : State) : Host.Outcome State Fault Refusal :=
  .next (s.onWrite who d.val (fun env => pmHostWrite env who d.val (PM_PAD_RELEASE d.val) (padRelease d.val (fld x 0 5))))
def execDieRebring (d : Fin 8) (found : List Found) (s : State) : Host.Outcome State Fault Refusal := .next (s.onDev (dieRebring d.val found))

end Sys2Proof.Machine
end

