-- ==== Sys2Proof/Machine/FaultCmds.lean ====
section
/-! DEFINITION. Errors that circuits detect, the aggregator, the fault handler, FC registers, ageing and injection (R377 to R399). -/
namespace Sys2Proof.Machine

open Sys2Proof

/-! ## Detection (R377, R378, R381) -/

/-- Class of a SOURCE (R381). -/
def classOfSource (s : Nat) : Option Nat :=
  if s ∈ [0x01, 0x04, 0x06, 0x0C, 0x0D] then some clsCE
  else if s = 0x02 then some clsUC
  else if s ∈ [0x03, 0x05, 0x07, 0x08, 0x09, 0x0A, 0x0B] then some clsUS
  else if 0x10 ≤ s ∧ s ≤ 0x16 then some clsDL
  else if 0x20 ≤ s ∧ s ≤ 0x27 then some clsIF
  else if 0x30 ≤ s ∧ s ≤ 0x33 then some clsSE
  else if 0x40 ≤ s ∧ s ≤ 0x44 then some clsFW
  else none

/-- Sources whose records give an address (R381). -/
def hasAddr (s : Nat) : Bool := [0x01, 0x02, 0x03, 0x0C, 0x20, 0x21, 0x24, 0x31, 0x32, 0x42].contains s

/-- The bits of INFO that a source lays out (R381). -/
def infoMask (s : Nat) : Nat :=
  if s ∈ [0x01, 0x02, 0x03, 0x0A, 0x27] then 0xFF
  else if s ∈ [0x04, 0x05, 0x22] then 0x3FFFFFFFFFF
  else if s ∈ [0x06, 0x07] then 0xFFFF003F
  else match s with
    | 0x08 => 7
    | 0x09 => 0x3FF00FF
    | 0x0B => 0xF
    | 0x0D => 0x1FF3F
    | 0x12 => 0x1FFFFFFFF
    | 0x14 => 0x3FFFFFFFFFF
    | 0x16 => 0x3FFFFFFFFF
    | 0x21 => 0xFFFF
    | 0x23 => 0xF
    | 0x25 => 3
    | 0x26 => 3
    | 0x30 => 0x7FFF
    | 0x31 => 0xF
    | 0x40 => 3
    | _ => if 0x10 ≤ s ∧ s ≤ 0x16 then 0xFFFFFFFF else 0

/-- The parts of MASTER (R380). -/
def mDie (m : Nat) : Nat := m / 0x2000
def mIsCore (m : Nat) : Bool := m / 0x1000 % 2 == 0
def mKind (m : Nat) : Nat := m / 0x100 % 16
def mInst (m : Nat) : Nat := m % 0x100
def mPhys (m : Nat) : Nat := pMake (mDie m) 0 (m % 0x1000)

/-- The bank that an instance of KIND 6 stands for: a spare stands for the bank it replaces (R238, R380). -/
def bankOfInst (v : Dev) (d i : Nat) : Option Nat :=
  let w := v.rd (VAT_SPARE d)
  if i < 64 then some i
  else if i = 64 ∧ bit w 6 = true then some (fld w 0 6)
  else if i = 65 ∧ bit w 14 = true then some (fld w 8 6)
  else none

/-- The coaches that own a port of the set of a vat bank (R239). -/
def bankOwners (v : Dev) (d i : Nat) : List Nat := match bankOfInst v d i with
  | some b => let s := setOfBank v d b; (List.range 4).filter (fun g => s.2.2.1 == g || s.2.2.2 == g)
  | none => []

/-- The vat bank at which an uncorrectable error of an unscheduled read was detected, by the address that the requester's error names
(R239). -/
def vatOfError (env : Env) (v : Dev) (e : Detected) : Option (Nat × Nat) :=
  let m := e.master.toNat
  if mIsCore m then none
  else if mKind m = 6 then some (mDie m, mInst m)
  else if [7, 8, 10, 11].contains (mKind m) then
    (env.dieList.find? (fun d => decide (vatMem d 0 ≤ e.addr.toNat) && decide (e.addr.toNat < vatMem d 0x10000000))).map (fun d =>
      (d, (bankOfWord v d ((e.addr.toNat - vatMem d 0) / 128)).1))
  else none

/-- The core whose memory an uncorrectable error of an access lies in, by the address that the requester's error names. -/
def coreOfError (env : Env) (v : Dev) (e : Detected) : Option Nat :=
  if !mIsCore e.master.toNat && [7, 8, 9, 10, 11].contains (mKind e.master.toNat) && decide (e.addr.toNat < 0x2000000000) then
    v.reach env (e.addr.toNat / 0x80000)
  else none

/-- Owners of the block that MASTER names; the device owns what no coach owns or all coaches share (R378). -/
def ownersOfBlock (v : Dev) (m : Nat) : Option (List Nat) :=
  if mIsCore m then some [v.coreOwner (mPhys m)]
  else match mKind m with
    | 0 => some [v.churnOwner (mDie m) (mInst m % 4)]
    | 1 => some [v.churnOwner (mDie m) (mInst m % 4)]
    | 2 => some [v.sepOwner (mDie m) (mInst m % 16)]
    | 3 => some [(v.fu (2 * mDie m + mInst m % 2)).holder.getD 4]
    | 5 => some [if mInst m = 0 then 4 else ownerOf3 (v.fd (SN_OWN_VWJ (mDie m)) (12 + 3 * ((mInst m - 1) % 4)) 3)]
    | 6 => some (bankOwners v (mDie m) (mInst m))
    | _ => none

/-- The rule that raises an error of this source names its coaches itself, or the resource lies at the address and not at MASTER: the row's
operand is the owner (R34, R56, R66, R144, R154, R157, R252, R259, R306, R319, R328, R395). -/
def namesOwner (s : Nat) : Bool :=
  [0x05, 0x06, 0x07, 0x08, 0x0A, 0x0B, 0x24, 0x25, 0x26, 0x27, 0x30, 0x31, 0x32].contains s || (decide (0x10 ≤ s) && decide (s ≤ 0x16))

/-- The reaction that TG_REACT names for a detected deadline error: the other DL sources have none (R42, R43, R53, R54, R377). -/
def dlReaction (env : Env) (v : Dev) (e : Detected) : Nat :=
  let r := TG_REACT env.master e.owner.val
  match e.source.toNat with
  | 0x10 => v.fd r 0 2
  | 0x11 => v.fd r 2 2
  | 0x12 => if fldN e.info.toNat 32 1 = 1 then v.fd r 4 2 else 0
  | _ => 0

/-- Block counters of memory and residue errors (R72, R225, R239, R287). -/
def countDetected (source m : Nat) (v : Dev) : Dev :=
  let d := mDie m
  if source = 0x01 ∧ mIsCore m then v.inc (NC_MEM_CE (mPhys m)) 1
  else if mIsCore m then v
  else match source, mKind m with
    | 0x01, 0 => v.inc (CHN_MEM_CE d (mInst m % 4)) 1
    | 0x01, 1 => v.inc (CHN_MEM_CE d (mInst m % 4)) 1
    | 0x01, 2 => v.inc (SP_MEM_CE d (mInst m % 16)) 1
    | 0x09, 0 => v.inc (CHN_RESIDUE_ERR d (mInst m % 4)) 1
    | _, _ => v

/-- One detected error is counted at its block and raised for its owners. A corrected error of a vat makes one record: that of the coach which
owns the set's ports, or the device's where two coaches share the set (R239, log entry 154). A deadline error of a coach takes its reaction. -/
def detect (env : Env) (v : Dev) (e : Detected) : Dev :=
  match classOfSource e.source.toNat with
  | none => v
  | some cls =>
    let m := e.master.toNat
    if !env.has e.die.val || !env.has (mDie m) || (mIsCore m && decide (2112 ≤ m % 0x1000)) then v else
    let memory := e.source.toNat = 1 ∨ e.source.toNat = 2 ∨ e.source.toNat = 3 ∨ e.source.toNat = 9
    let vat := if memory then vatOfError env v e else none
    let owners := match vat with
      | some x =>
        let l := bankOwners v x.1 x.2
        if cls = clsUS || decide (l.length ≤ 1) then l else [4]
      | none => if namesOwner e.source.toNat then [e.owner.val] else match (if memory then coreOfError env v e else none) with
        | some p => [v.coreOwner p]
        | none => (ownersOfBlock v m).getD [4]
    let v := match vat with
      | some x => v.inc (if cls = clsUS then VAT_UE x.1 else VAT_CE x.1) 1
      | none => if e.source = 0x06 then v.inc (SN_LANE_CE e.die.val) 1 else if e.source = 0x07 then v.inc (SN_LANE_UE e.die.val) 1 else v
    let v := raiseEach env owners { die := e.die.val, cls := cls, owner := 4, source := e.source.toNat, master := m, access := e.access.val,
                                    addr := if hasAddr e.source.toNat then e.addr.toNat else 0, info := e.info.toNat &&& infoMask e.source.toNat }
      (countDetected e.source.toNat m v)
    if cls = clsDL && decide (e.owner.val < 4) && v.isOpen e.owner.val then react env e.owner.val (dlReaction env v e) v else v

/-- Errors in the order in which a collector takes those of one cycle: lowest MASTER first (R383). -/
def insertMaster (e : Detected) : List Detected → List Detected
  | [] => [e]
  | x :: xs => if e.master.toNat < x.master.toNat then e :: x :: xs else x :: insertMaster e xs

def byMaster (l : List Detected) : List Detected := l.foldl (fun acc e => insertMaster e acc) []

/-! ## The aggregator (R384) -/

/-- The alert of a record's owner (R315, R384). -/
def alertOwner (v : Dev) (r : FaultRec) : Dev :=
  if v.isOpen r.owner && decide (r.owner < 4) then setAlert (v.coach r.owner).port (if r.cls = clsDL then 3 else 2) v else v

/-- Another record of the die was captured earlier and has not been copied; with `held`, it is held for a place in the queue. -/
def olderWaits (v : Dev) (d k time : Nat) (held : Bool) : Bool :=
  v.flt.slots.any (fun e => e.1 / 64 == d && e.1 != k && (match e.2 with
    | some r => !r.copied && decide (r.time < time) && (!held || r.held)
    | none => false))

/-- AGG_OFFER: the record of a slot is copied to the aggregator's queue, or waits for a place in it: where the queue is full, or the place
that it has belongs to an older record of the die that is held. An older record that has not been offered goes first. -/
def aggOffer (d owner cls : Nat) (env : Env) (v : Dev) : Dev :=
  let k := slotKey d owner cls
  match v.slot k with
  | none => v
  | some r =>
    let full := decide (64 ≤ v.flt.agg.length) || olderWaits v d k r.time true
    if r.copied || !env.has d || (!full && olderWaits v d k r.time false) then v
    else
      let v := if r.held then v else alertOwner v r
      if !full then
        (v.setSlot k (some { r with copied := true })).modFlt (fun f =>
          { f with agg := f.agg ++ [(k, { r with copied := true })], heldQ := f.heldQ.filter (fun x => x != k) })
      else if r.held then v
      else
        ((v.setSlot k (some { r with held := true })).inc (FC_AGG_OVF env.master) 1).modFlt (fun f => { f with heldQ := f.heldQ ++ [k] })

/-- A slot is acknowledged: it is free (R385). -/
def ackSlot (k : Nat) (v : Dev) : Dev := (v.setSlot k none).modFlt (fun f => { f with heldQ := f.heldQ.filter (fun x => x != k) })

/-- The 32 bytes of a record (R379). -/
def FaultRec.bytes (r : FaultRec) : List Byte :=
  leBytes 1 2 ++ leBytes 1 (r.cls + 8 * b2n r.merged + 16 * b2n r.held) ++ leBytes 1 (r.die + 16 * r.owner) ++ leBytes 1 r.source
    ++ leBytes 2 r.master ++ leBytes 1 r.access ++ leBytes 1 0 ++ leBytes 6 r.addr ++ leBytes 2 r.count ++ leBytes 8 r.time ++ leBytes 8 r.info

/-- The defect entries of the cores whose UC errors a slot's record stands for: its first error's, and those merged into it (R390). -/
def ucEntries (env : Env) (k : Nat) (v : Dev) : Dev :=
  let due := v.flt.ucDue.filter (fun x => x.1 == k)
  due.foldl (fun v x => recordDefect env (defectEntry 0x01 (pDie x.2) (x.2 % 33 + 64 * (x.2 % 2112 / 33)) 0x30 false) v)
    (v.modFlt (fun f => { f with ucDue := f.ucDue.filter (fun x => x.1 != k) }))

/-- What firmware does with the record of slot `k` beside logging it: a defect entry for each core that a UC error fenced, and the fence of a
churn, separator or join unit at its second US record within 1 s (R390, R394). -/
def handleRecord (env : Env) (k : Nat) (r : FaultRec) (v : Dev) : Dev :=
  let m := r.master
  let d := mDie m
  if r.cls = clsUC then ucEntries env k v
  else if r.cls = clsUS ∧ (r.source = 0x03 ∨ r.source = 0x09) ∧ mIsCore m = false then
    let key := if mKind m = 1 then mBlock d 0 (mInst m) else m
    let kind := mKind key
    let v' := v.modFlt (fun f => { f with usSeen := SMap.set none f.usSeen key (some r.time) })
    match SMap.get none v.flt.usSeen key with
    | some t =>
      if r.time ≤ t + 1000000000 then
        if kind = 0 then applyDefect env 0x30 v' ⟨0x06, Fin.ofNat 8 d, mInst m⟩
        else if kind = 2 then applyDefect env 0x30 v' ⟨0x09, Fin.ofNat 8 d, mInst m⟩
        else if kind = 5 ∧ mInst m ≠ 0 then applyDefect env 0x30 v' ⟨0x0A, Fin.ofNat 8 d, mInst m - 1⟩
        else v'
      else v'
    | none => v'
  else v

/-- FAULT_HANDLER_TAKE: the oldest record is logged, for the port of its coach, and its slot is acknowledged (R385). -/
def handlerTake (env : Env) (v : Dev) : Dev :=
  match v.flt.agg with
  | [] => v
  | (k, r) :: rest =>
    if !v.handlerUp env.master then v
    else
      let v := v.modFlt (fun f => { f with agg := rest })
      let port := if r.owner < 4 ∧ v.isOpen r.owner = true then [(v.coach r.owner).port] else []
      let v := logTo env (port.filter (fun p => (openPorts v).contains p)) 1 r.owner r.bytes v
      ackSlot k (handleRecord env k r v)

/-! ## FC registers (R386, R399) -/

/-- Firmware and the debug port write FC registers; a host's write is dropped with an SE record. -/
def fcWrite (env : Env) (who : Party) (d : Nat) (r : Reg) (f : Dev → Dev) (v : Dev) : Dev :=
  if !env.has d then missWrite env who r v
  else match who with
    | .port _ => raiseSE env d 4 who (regAddr v r) v
    | .engine _ => raiseSE env d 4 who (regAddr v r) v
    | _ => debugGate env who d 4 r f v

/-- FC_ACK: firmware alone frees a slot (R385). -/
def fcAckWrite (who : Party) (d : Nat) (x : Word) (env : Env) (v : Dev) : Dev :=
  fcWrite env who d (FC_ACK d) (fun v =>
    if isFirmware who && decide (fld x 0 3 < 7) && decide (fld x 3 3 < 5) then ackSlot (slotKey d (fld x 3 3) (fld x 0 3)) v else v) v

/-- FC_REACT as it is stored: US_ACT has a floor of HOLD_SAFE (R386). -/
def reactValue (x : Word) : Word :=
  let x := x &&& 0x3F3F
  if fld x 4 2 < 2 then setFld x 4 2 2 else x

/-- FC_REACT[g]: a host of the coach, firmware or the debug port; every die's copy takes the value (R386). -/
def fcReactWrite (who : Party) (d g : Nat) (x : Word) (env : Env) (v : Dev) : Dev :=
  let r := FC_REACT d g
  let store (v : Dev) : Dev := env.dieList.foldl (fun v e => v.wr (FC_REACT e g) (reactValue x)) v
  if !env.has d then missWrite env who r v
  else match who with
    | .debug => debugGate env who d 4 r store v
    | _ => if mayWriteCoach v g who then store v else raiseSE env d (v.coachOrDevice g) who (regAddr v r) v

/-- FC_SEL: one copy for each requester (R399). -/
def selKey (who : Party) (d : Nat) : Nat := d * 128 + partyNum who
def fcSel (v : Dev) (who : Party) (d : Nat) : Word := SMap.get 0 v.flt.sel (selKey who d)
def fcSelWrite (who : Party) (d : Nat) (x : Word) (env : Env) (v : Dev) : Dev :=
  if !env.has d then missWrite env who (FC_SEL d) v
  else debugGate env who d 4 (FC_SEL d) (fun v => v.modFlt (fun f => { f with sel := SMap.set 0 f.sel (selKey who d) (x &&& 0x3F) })) v

/-- FC_CTRL: CLR_CNT clears every counter of the die, and on the master FC_AGG_OVF (R399). -/
def fcCtrlWrite (env : Env) (d : Nat) (x : Word) (v : Dev) : Dev :=
  if bit x 0 then
    let v := v.clearRegs ((List.range 5).flatMap (fun o => (List.range 7).map (fun c => FC_CNT d o c)))
    if d = env.master then v.wr (FC_AGG_OVF d) 0 else v
  else v

/-- FC_REC[i] for a requester: what its own FC_SEL names; a port sees its coaches' slots only (R385, R399). -/
def fcRecValue (v : Dev) (who : Party) (d i : Nat) : Word :=
  let w := fcSel v who d
  let o := fld w 3 3
  let seen := match who with
    | .port p => decide (o < 4) && v.isOpen o && (v.coach o).port == p.val
    | _ => true
  if fld w 0 3 < 7 ∧ o < 5 ∧ seen = true then
    match v.slot (slotKey d o (fld w 0 3)) with
    | some r => w32 (leAt r.bytes (4 * i) 4)
    | none => 0
  else 0

/-- FC_STATUS: slots in use, and whether a record is held. -/
def fcStatusValue (v : Dev) (d : Nat) : Word :=
  let l := v.flt.slots.filter (fun e => e.1 / 64 == d && e.2 != none)
  w32 (l.length + 64 * b2n (l.any (fun e => match e.2 with
    | some r => r.held
    | none => false)))

/-- FC_AGG_STATUS of the master die. -/
def fcAggStatus (env : Env) (v : Dev) : Word := w32 (v.flt.agg.length + 128 * b2n (!v.handlerUp env.master))

/-! ## Ageing (R396, R440) -/

/-- The voltage guard only rises, within 0 to 50 mV; by how much is firmware's (R440). -/
def raiseGuard (d : Nat) (v : Dev) : Dev :=
  let x := v.takeFree
  x.2.wrN (PM_VGUARD d) (max (x.2.rdN (PM_VGUARD d)) (x.1 % 51))

/-- One sensor is read: an AGEING record at or below a limit, and at CRIT a defect entry, which acts at the next start. -/
def ageingRead (env : Env) (v : Dev) (e : Reading) : Dev :=
  let d := e.die.val
  let t := e.tile.val
  let k := e.sensor.val
  let n := e.margin.toNat
  if !env.has d || !v.ostlerUp d 2 then v
  else
    let v := v.modFlt (fun f => { f with margins := SMap.set 0 f.margins ((d * 64 + t) * 64 + k) n })
    let crit := decide (n ≤ v.fd (FC_AGE_LIMITS d) 8 8)
    if n ≤ v.fd (FC_AGE_LIMITS d) 0 8 ∨ crit = true then
      let p := pMake d t k
      let v := raise env { die := d, cls := clsCE, owner := if k < 33 then v.coreOwner p else 4, source := 0x0D,
                           master := if k < 33 then mCore p else mBlock d 4 t, access := accNone, addr := 0,
                           info := k + 0x100 * n + 0x10000 * b2n crit } v
      if crit then recordDefect env (if k < 33 then defectEntry 0x01 d (k + 64 * t) 0x31 false else defectEntry 0x03 d t 0x31 false) v else v
    else v

def ageing (l : List Reading) (env : Env) (v : Dev) : Dev :=
  (env.dieList.filter (fun d => l.any (fun e => e.die.val == d) && v.ostlerUp d 2)).foldl (fun v d => raiseGuard d v) (l.foldl (ageingRead env) v)

/-- FC_AGE_DATA. -/
def fcAgeData (v : Dev) (d : Nat) : Word :=
  w32 (SMap.get 0 v.flt.margins ((d * 64 + v.fd (FC_AGE_SEL d) 0 6) * 64 + v.fd (FC_AGE_SEL d) 8 6))

/-! ## Injection (R398) -/

/-- A write to an FC_INJ register outside factory test mode makes an SE record; inside, firmware and the debug port write them. -/
def injWrite (env : Env) (who : Party) (d : Nat) (r : Reg) (f : Dev → Dev) (v : Dev) : Dev :=
  if !env.has d then missWrite env who r v
  else if v.flt.factory then fcWrite env who d r f v
  else if debugOff v who then v
  else raiseInject env d who v

/-- FC_INJ_UNLOCK: a factory token that names this package, through the debug port, with TESTMODE high at power-on. -/
def injUnlock (who : Party) (d : Nat) (token : List Byte) (env : Env) (v : Dev) : Dev :=
  if !env.has d then missWrite env who (FC_INJ_UNLOCK d) v
  else if env.hw.testmode && who == .debug && !debugOff v who && Config.factoryToken token v.crock.enrol then
    (env.dieList.foldl (fun v e => v.setB (SEC_STATUS e) 5 true) v).modFlt (fun f => { f with factory := true })
  else if v.flt.factory then fcWrite env who d (FC_INJ_UNLOCK d) (fun v => v) v
  else if debugOff v who then v
  else raiseInject env d who v

/-! ## The rows -/

def execAggOffer (d : Fin 8) (owner : Fin 5) (cls : Fin 7) (s : State) : Host.Outcome State Fault Refusal :=
  .next (s.onClk d.val 3 (aggOffer d.val owner.val cls.val))
def execFaultHandlerTake (s : State) : Host.Outcome State Fault Refusal := .next (s.onDev handlerTake)
def execFcAckWrite (who : Party) (d : Fin 8) (x : Word) (s : State) : Host.Outcome State Fault Refusal :=
  .next (s.onWrite who d.val (fcAckWrite who d.val x))
def execFcReactWrite (who : Party) (d : Fin 8) (g : Fin 4) (x : Word) (s : State) : Host.Outcome State Fault Refusal :=
  .next (s.onWrite who d.val (fcReactWrite who d.val g.val x))
def execAgeingRead (readings : List Reading) (s : State) : Host.Outcome State Fault Refusal := .next (s.onDev (ageing readings))
def execFcInjUnlockWrite (who : Party) (d : Fin 8) (token : List Byte) (s : State) : Host.Outcome State Fault Refusal :=
  .next (s.onWrite who d.val (injUnlock who d.val token))

end Sys2Proof.Machine
end

