-- ==== Sys2Proof/Machine/Reset.lean ====
section
/-! DEFINITION. Resets and what survives them (R395, R397, R437, R454 to R458, R460), and the loss of a clock. -/
namespace Sys2Proof.Machine

open Sys2Proof

/-! ## Parts of the table of R460 -/

/-- The parts of a register's number. -/
def keyCore (k : Nat) : Bool := k / 0x1000000 % 2 == 1
def keyIdx (k : Nat) : Nat := k / 0x2000000
def keyOff (k : Nat) : Nat := k % 0x1000000

/-- The registers that a test picks return to their reset values. -/
def dropRegs (f : Bool → Nat → Nat → Bool) (v : Dev) : Dev :=
  { v with regs := v.regs.filter (fun e => !f (keyCore e.1) (keyIdx e.1) (keyOff e.1)) }

/-- The VAT_SET entries of a die return to their reset values; no data moves (R233). -/
def dropSets (d : Nat) (v : Dev) : Dev :=
  changeSets d (dropRegs (fun core i off => !core && i == d && decide (0xB0010 ≤ off) && decide (off < 0xB0050))) v

/-- An open coach has a region on a vat byte of a die. -/
def vatHeld (v : Dev) (d off : Nat) : Bool :=
  (List.range 64).any (fun r => (v.rgn d r).covers 0 off && (decide ((v.rgn d r).owner < 4) || (v.rgn d r).readers != 0))

/-- The vat of a die keeps the ranges of open coaches; every other byte is 0. -/
def keepRanges (d : Nat) (v : Dev) : Dev :=
  { v with mem := v.mem.filter (fun e =>
                    decide (e.1 < vatMem d 0) || decide (vatMem d 0x10000000 ≤ e.1) || vatHeld v d (e.1 - vatMem d 0)) }

/-- Neuron cores of a die: local memory 0, program store and registers gone, owners kept; they are out of their coaches' ticks until
they rejoin (R101, R375). -/
def resetNeuro (d : Nat) (v : Dev) : Dev :=
  let lo := pMake d 0 0
  let owned := ((List.range 4).flatMap (fun g => (v.coachCores g).map (fun e => (g, e.2)))).filter (fun e => pDie e.2 == d)
  let v := (v.clearMem (coreMem lo 0) (2112 * 0x40000)).clearMem (progMem lo 0) (2112 * 0x4000)
  let v := dropRegs (fun core i off => (core && i / 2112 == d) || (!core && i == d && off / 0x10000 == 3)) v
  let v := { v with cores := v.cores.filter (fun e => pDie e.1 != d) }
  let v := v.modFab (fun f => { f with ifaces := f.ifaces.filter (fun e => !(ifaceIsCore e.1 && ifaceDie e.1 == d)) })
  let v := owned.foldl (fun v e =>
    (v.wr (NC_CTRL e.2) (setOwnerField (v.rd (NC_CTRL e.2)) e.1)).modCore e.2 (fun k => { k with joined := false, fresh := true })) v
  (v.place.fenced.filter (fun p => pDie p == d)).foldl (fun v p => v.setB (NC_STATUS p) 5 true) v

/-- Churns, pails, separators and frame units of a die, its timetable network and vat sets: owners of churns, separators and frame units
are kept, and so is the mark of a fenced churn. -/
def resetCompute (d : Nat) (v : Dev) : Dev :=
  let churns := (List.range 4).map (fun c => (c, v.churnOwner d c))
  let seps := (List.range 16).map (fun k => (k, v.sepOwner d k))
  let v := dropSets d (keepRanges d v)
  let v := dropRegs (fun core i off => !core && i == d &&
    ((decide (0x60000 ≤ off) && decide (off < 0xA0000)) || (decide (0xC0000 ≤ off) && decide (off < 0x100200)))) v
  let v := ([SN_OWN_VR d, SN_OWN_VWJ d, SN_OWN_SP d] ++ (List.range 4).map (fun k => SN_OWN_CPL d k)).foldl (fun v r => v.resetReg r) v
  let v := { v with
    churns := v.churns.filter (fun e => e.1 / 4 != d), seps := v.seps.filter (fun e => e.1 / 16 != d), bus := v.bus.filter (fun r => r.die != d) }
  let v := (List.range 4).foldl (fun v p => if portDie p = d then v.modFu p (fun f => { FrameUnit.init with holder := f.holder }) else v) v
  let v := v.modFab (fun f => { f with ifaces := f.ifaces.filter (fun e => ifaceIsCore e.1 || ifaceDie e.1 != d) })
  let v := v.modNet (fun n =>
    { n with
      active := n.active.filter (fun e => e.1 / 4 != d), inactive := n.inactive.filter (fun e => e.1 / 4 != d),
      joinIn := n.joinIn.filter (fun e => e.1 / 0x100000000 / 8 != d), joinOut := n.joinOut.filter (fun e => e.1 / 0x100000000 / 8 != d),
      egress := n.egress.filter (fun e => e.1 / 16 != d), ingress := n.ingress.filter (fun e => e.1 / 16 != d),
      released := n.released.filter (fun e => e.1 / 16 != d), signals := n.signals.filter (fun s => s.die != d),
      recentTake := n.recentTake.filter (fun t => t.die != d), vatWait := n.vatWait.filter (fun e => e.1 != d), vatServed := n.vatServed.filter (fun e => e.1 / 128 != d) })
  let v := churns.foldl (fun v e => if e.2 < 4 then v.wr (CHN_CTRL d e.1) (setOwnerField (v.rd (CHN_CTRL d e.1)) e.2) else v) v
  let v := seps.foldl (fun v e => if e.2 < 4 then v.wr (SP_CTRL d e.1) (setOwnerField (v.rd (SP_CTRL d e.1)) e.2) else v) v
  (List.range 4).foldl (fun v c => if v.blockFenced (mBlock d 0 c) then v.setB (CHN_STATUS d c) 3 true else v) v

/-- Compare and capture channels of a die, TO_CTRL and TO_OWNER. -/
def resetTimers (d : Nat) (v : Dev) : Dev :=
  let v := dropRegs (fun core i off => !core && i == d &&
    ((decide (0x20000 ≤ off) && decide (off < 0x20800)) || (decide (0x20C00 ≤ off) && decide (off < 0x20D00)))) v
  v.modTick (fun t =>
    { t with
      cmp := t.cmp.filter (fun e => e.1 / 64 != d), cap := t.cap.filter (fun e => e.1 / 8 != d), irq := t.irq.filter (fun e => e.1 / 8 != d) })

/-- Firmware of a die is in reset. -/
def resetFirmware (d : Nat) (v : Dev) : Dev :=
  { v.setF (FW_STATUS d) 0 2 1 with
    fw := { v.fw with compDown := v.fw.compDown.filter (fun x => x / 2 != d) },
    tick := { v.tick with halted := v.tick.halted.filter (fun x => x / 8 != d) } }

/-- The CK registers of a die; every multiplexer passes REFCLK (R437). -/
def resetClocks (env : Env) (d : Nat) (v : Dev) : Dev :=
  let v := setFreq env d 0 100 v
  let v := dropRegs (fun core i off => !core && i == d && decide (0x160000 ≤ off) && decide (off < 0x170000)) v
  { v with pw := { v.pw with switches := v.pw.switches.filter (fun e => e.1 / 8 != d) } }

/-! ## Die warm reset (R155, R456 to R458) -/

/-- A die warm reset of a die that is not the master and is not in one: the die's column of R460, and its shadows freeze (R303). -/
def dieWarm (env : Env) (d : Nat) (v : Dev) : Dev :=
  if !env.has d || d = env.master || v.dieDown.contains d then v
  else
    let v := resetClocks env d (resetFirmware d (resetTimers d (resetCompute d (resetNeuro d v))))
    noteFrozen env { v with dieDown := v.dieDown ++ [d] }

/-- The master die's firmware resets a die: at once, or when it runs again (R395, R407). -/
def requestWarm (env : Env) (d : Nat) (v : Dev) : Dev :=
  if v.fwUp env then dieWarm env d v
  else if v.fw.resetDue.contains d then v
  else { v with fw := { v.fw with resetDue := v.fw.resetDue ++ [d] } }

/-! ## Package resets (R437, R454, R456, R458, R460) -/

/-- CR registers that the wear record and the checkpoint directory hold (R422, R425). -/
def crockRegs : List Nat := [0x004, 0x008, 0x00C, 0x010, 0x014, 0x018, 0x01C, 0x020, 0x024, 0x028, 0x02C, 0x038, 0x03C]

/-- The crock keeps what its registers showed, if it was read in this start. -/
def crockKept (env : Env) (v : Dev) : Crock :=
  if v.fb (CR_STATUS env.master) 2 then
    { v.crock with saved := (crockRegs.map (fun o => (o, v.rdN (dieReg env.master (0x150000 + o))))).filter (fun e => e.2 != 0) }
  else v.crock

/-- The crock's bytes. -/
def inCrock (a : Nat) : Bool := decide (crockRaw 0 ≤ a) && decide (a < progMem 0 0)

/-- Bytes that a package warm reset keeps: core memories, vats and port SRAM. -/
def warmKeeps (a : Nat) : Bool :=
  (decide (coreMem 0 0 ≤ a) && decide (a < crockRaw 0))
    || (decide (dieSpace 0 ≤ a) && decide (a < coreMem 0 0) && decide ((a - dieSpace 0) % 0x10000000000 < 0x2000000000))

/-- The reset state of a package that keeps its crock, the levels on its pins and what `keeps` picks of its memory; `m` is the master
die from now on. -/
def freshDev (part : Part) (m : Nat) (crock : Crock) (keeps : Nat → Bool) (v : Dev) : Dev :=
  let b := Dev.init part m
  { b with
    mem := v.mem.filter (fun e => inCrock e.1 || keeps e.1), freeCtr := v.freeCtr, crock := crock,
    pins := { Pins.init with vcoreEn := v.pins.vcoreEn, crockDet := v.pins.crockDet, ir := v.pins.ir, tdr := v.pins.tdr, boundary := v.pins.boundary,
                             sampled := v.pins.sampled, chain := v.pins.chain,
                             smbAlert := v.pw.thermtrip },
    pw := { b.pw with thermtrip := v.pw.thermtrip } }

/-- A package cold reset (R456), with FC_RESET_CAUSE; `perst` is the level of PERST_N. -/
def coldReset (env : Env) (cause : Nat) (perst : Bool) (v : Dev) : Dev :=
  let b := freshDev env.hw.part env.master (crockKept env v) (fun _ => false) v
  { b with bu := { b.bu with perst := perst } }.wrN (FC_RESET_CAUSE env.master) cause

/-- A register as it was. -/
def keepReg (old : Dev) (v : Dev) (r : Reg) : Dev := v.wr r (old.rd r)

/-- A die's spare banks: all of them, or those that stand for a bank of a list. -/
def keepSpares (held : Option (List Nat)) (old : Dev) (v : Dev) (d : Nat) : Dev :=
  let w := old.rd (VAT_SPARE d)
  let stays (lo : Nat) : Bool := match held with
    | none => true
    | some l => l.contains (d * 64 + fld w lo 6)
  let keep (v : Dev) (lo : Nat) : Dev := if stays lo then v.setF (VAT_SPARE d) lo 7 (fld w lo 7) else v
  [0, 8].foldl keep v

/-- Registers of a die that stay with its memories and the hold island: the spares of its vat, and on the master the power settings. -/
def keepWarm (env : Env) (held : Option (List Nat)) (old v : Dev) : Dev :=
  let m := env.master
  let v := env.dieList.foldl (keepSpares held old) v
  let v := [PM_LIMIT m, PM_THERM m, PM_EMERG_FLOOR m].foldl (keepReg old) v
  let c := old.fd (PM_STATUS m) 12 3
  env.dieList.foldl (fun v d => (v.setF (PM_STATUS d) 8 3 c).setF (PM_STATUS d) 12 3 c) v

/-- What a package warm reset leaves (R458, R460): every bank set returns to its reset value and no data moves; the entry in force is
the ceiling; PERST_N and the ports' readiness to be initialised stay. Spare rows, spare banks and fences stay with the banks that keep their
contents: all of them, or in HOLD the retained ones (R449, R451). -/
def warmBase (env : Env) (held : Option (List Nat)) (old : Dev) : Dev :=
  let stays (b : Nat) : Bool := match held with
    | none => true
    | some l => l.contains b
  let v := env.dieList.foldl (fun v d => dropSets d v) old
  let b := freshDev env.hw.part env.master (crockKept env old) warmKeeps v
  let b := keepWarm env held old b
  { b with
    net := { b.net with rowsUsed := old.net.rowsUsed.filter (fun e => stays e.1), fencedBanks := old.net.fencedBanks.filter stays },
    bu := { b.bu with perst := old.bu.perst, since := env.now, perstAt := old.bu.perstAt } }.wrN (FC_RESET_CAUSE env.master) 3

/-- A package warm reset by command: every core memory and every vat bank is held for the bring-up port (R454). -/
def warmReset (env : Env) (old : Dev) : Dev :=
  if old.pw.thermtrip || old.pw.phase == .hold then old
  else
    let b := warmBase env none old
    let b := (List.range 4).foldl (fun v p => v.modLp p (fun l => { l with available := (old.port p).lp.available })) b
    { b with pw := { b.pw with
        heldCores := List.range (env.dies * 2112),
        heldBanks := (List.range (env.dies * 64)).filter (fun x => !old.net.fencedBanks.contains x) } }

/-! ## PM_RESET_REQ (R457, R462) -/

/-- Who may ask for a reset of a kind. -/
def mayReset (env : Env) (who : Party) (kind : Nat) : Bool :=
  isFirmware who || (kind == 1 && who == .port ⟨env.bringUpPort % 4, Nat.mod_lt _ (by decide)⟩)

/-- A write to PM_RESET_REQ. Until OPEN_PORTS the register is no part of a port's window (R299); after a FATAL result only a cold or
a power-on reset is taken (R359; DEDUCED, log entry 188). -/
def pmResetReq (who : Party) (x : Word) (env : Env) (v : Dev) : Dev :=
  let m := env.master
  let kind := fld x 0 2
  let d := fld x 2 3
  let host := match who with
    | .port _ => true
    | .engine _ => true
    | _ => false
  let closed := match who with
    | .port p => if v.portOpen p.val then none else some p.val
    | _ => none
  if closed.isSome then
    let p := closed.getD 0
    if (v.port p).lp.available then v.inc (HP_RSV_ACCESS (portDie p) (portUnit p)) 1 else v
  else if fld x 16 16 = 0x7A5C ∧ ((kind = 1 ∧ v.fd (BU_STATUS m) 6 2 ≠ 3) ∨ kind = 2) ∧ mayReset env who kind = true then
    if kind = 1 then warmReset env v
    else if d = m || !env.has d || v.dieDown.contains d then v.setB (PM_STATUS m) 5 true
    else dieWarm env d v
  else if host then raiseSE env m 4 who (regAddr v (PM_RESET_REQ m)) v
  else v

/-! ## HOLD and waking (R450 to R454) -/

/-- Bytes of HOLD: selected vat banks and core memories. -/
def holdKeeps (v : Dev) (a : Nat) : Bool :=
  if coreMem 0 0 ≤ a then decide (a < crockRaw 0) && v.pw.cores.any (fun e => e.2 == (a - coreMem 0 0) / 0x40000)
  else if dieSpace 0 ≤ a then
    let d := (a - dieSpace 0) / 0x10000000000
    let o := (a - dieSpace 0) % 0x10000000000
    decide (o < 0x10000000) && v.pw.banks.contains (d * 64 + (bankOfWord v d (o / 128)).1)
  else false

/-- Every pad group that the part has is latched (R452). -/
def latchPads (env : Env) (v : Dev) : Dev :=
  env.dieList.foldl (fun v d =>
    v.wrN (PM_PAD_RELEASE d) (0x10000 * ((if d < 2 then 3 else 0) + 4 + (if d = env.master then 24 else 0)))) v

/-- The package wakes: a package warm reset taken from HOLD; the pads of the bring-up port are released, the others keep the level they were
latched at (R452, R453). -/
def wakeUp (env : Env) (v : Dev) : Dev :=
  let m := env.master
  let b := (warmBase env (some v.pw.banks) v).setB (PM_STATUS m) 1 true
  let b := env.dieList.foldl (fun b d => keepReg v b (PM_PAD_RELEASE d)) b
  let b := padRelease m 1 b
  logPower env 5 { b with
    pins := { b.pins with vcoreEn := true, hrReset := v.pins.hrReset, crReset := v.pins.crReset },
    pw := { b.pw with cores := v.pw.cores, heldCores := v.pw.cores.map (·.2), heldBanks := v.pw.banks } }

/-- HOLD_ENTRY: 10 µs after the completion of ENTER_HOLD the package is switched off but for what R451 lists: TICK_OUT is low, the pads
are latched, VCORE_EN is low (R469). A WAKE_N that came during entry is taken at once. -/
def holdEntry (env : Env) (v : Dev) : Dev :=
  if v.pw.phase ≠ .entering ∨ env.now < v.pw.since + 10000 then v
  else
    let kept : Dev := { v with mem := v.mem.filter (fun e => inCrock e.1 || holdKeeps v e.1) }
    let b := latchPads env (warmBase env (some v.pw.banks) kept)
    let b : Dev := { b with
      pins := { b.pins with vcoreEn := false, hrReset := v.pins.hrReset, crReset := v.pins.crReset },
      pw := { b.pw with phase := .hold, since := env.now, banks := v.pw.banks, cores := v.pw.cores } }
    if v.pw.wakeDue then wakeUp env b else b

/-- WAKE: ignored but in HOLD; during entry it waits for the end of the entry. -/
def wake (env : Env) (v : Dev) : Dev :=
  match v.pw.phase with
  | .hold => wakeUp env v
  | .entering => { v with pw := { v.pw with wakeDue := true } }
  | .run => v

/-! ## Loss of a clock (R395, R397) -/

/-- PLL_UNLOCK on a die that is not the master: a US record for each coach that owns resources there, and a die warm reset. -/
def pllLost (env : Env) (d p : Nat) (v : Dev) : Dev :=
  let v := (v.setB (CK_STATUS d) p false).wr (CK_UNLOCK_CNT d) (satAdd32 (v.rd (CK_UNLOCK_CNT d)) 1)
  let v := raiseEach env (v.ownersOn d)
    { die := d, cls := clsUS, owner := 4, source := 0x0B, master := mBlock d 12 0, access := accEvent, addr := 0, info := p } v
  requestWarm env d v

/-- The time base at 0: power-on and package cold reset (R460). -/
def Clock.zero : Clock := ⟨[], []⟩

/-! ## The rows -/

def execHoldEntry (s : State) : Host.Outcome State Fault Refusal := .next (s.onDev holdEntry)
def execWake (s : State) : Host.Outcome State Fault Refusal := .next (s.onDev wake)
def execPmResetReqPackageWarm (who : Party) (x : Word) (s : State) : Host.Outcome State Fault Refusal := .next (s.onWrite who s.env.master (pmResetReq who x))
def execPmResetReqDieWarm (who : Party) (x : Word) (s : State) : Host.Outcome State Fault Refusal := .next (s.onWrite who s.env.master (pmResetReq who x))

/-- PERST_N low for 1 µs. -/
def execPackageColdReset (s : State) : Host.Outcome State Fault Refusal :=
  .next { s with clk := Clock.zero, dev := coldReset s.env 1 false s.dev }

/-- REFCLK stops or leaves its bounds; PERST_N keeps its level. -/
def execRefclkLoss (s : State) : Host.Outcome State Fault Refusal :=
  .next { s with clk := Clock.zero, dev := coldReset s.env 2 s.dev.bu.perst s.dev }

/-- A PLL of a die loses lock; a PLL that is not running has no lock to lose. -/
def execPllUnlock (d : Fin 8) (p : Fin 6) (s : State) : Host.Outcome State Fault Refusal :=
  if !s.env.has d.val || !s.dev.fb (CK_STATUS d.val) p.val then .next s
  else if d.val = s.env.master then .next { s with clk := Clock.zero, dev := coldReset s.env 4 s.dev.bu.perst s.dev }
  else .next (s.onDev (fun env => pllLost env d.val p.val))

/-- A sensor reaches 115 °C: the cold reset holds until the supplies are removed, and SMB_ALERT_N is asserted (R447, R481). -/
def execThermtrip (s : State) : Host.Outcome State Fault Refusal :=
  .next { s with clk := Clock.zero,
                 dev := coldReset s.env 0 s.dev.bu.perst { s.dev with pw := { s.dev.pw with thermtrip := true } } }

/-- Power-on reset: the straps are sampled, and the crock that is fitted is the one that was, none, or a blank one (R427, R455, R466). -/
def execPowerOnReset (msel testmode : Bool) (smbAddr : Fin 4) (fit : CrockFit) (s : State) : Host.Outcome State Fault Refusal :=
  let hw : Straps := { s.hw with msel := msel, testmode := testmode, smbAddr := smbAddr.val }
  let m := if msel then 1 else 0
  let crock := match fit with
    | .blank => { Crock.init with enrol := s.dev.crock.enrol }
    | _ => crockKept s.env s.dev
  let off : Dev := { s.dev with pins := { Pins.init with crockDet := fit != .absent }, pw := Power.init }
  let mem := if fit == .blank then off.mem.filter (fun e => !inCrock e.1) else off.mem
  .next { s with hw := hw, clk := Clock.zero, dev := (freshDev hw.part m crock (fun _ => false) { off with mem := mem }).wrN (FC_RESET_CAUSE m) 0 }

/-- VCORE_EN goes high (R469). -/
def execVcoreEnHigh (s : State) : Host.Outcome State Fault Refusal :=
  .next (s.onDev (fun _ v => if v.pw.phase == .hold then v else { v with pins := { v.pins with vcoreEn := true } }))

end Sys2Proof.Machine
end

