-- ==== Sys2Proof/Machine/Runs.lean ====
section
/-! DEFINITION. Commands that route, run and stop a coach: SET_ROUTES and SWAP_EPOCH (R148 to R152), DRAIN (R153), START_RUN, STOP_RUN, STEP
and what completes them (R46, R47, R346, R353) and TIMER_CFG (R58, R67). -/
namespace Sys2Proof.Machine

open Sys2Proof

/-! ## SET_ROUTES (R142, R150) -/

/-- A group of the buffer: its number, its header's offset and its member count. -/
structure GReq where
  group : Nat
  off : Nat
  count : Nat
  deriving DecidableEq, Repr

/-- The groups of the buffer, or BAD_PARAM with DETAIL. -/
def parseGroups (v : Dev) (p : Nat) (b : Buf) : Nat → Nat → Except Nat (List GReq)
  | 0, _ => .ok []
  | n + 1, o =>
    if b.len < o + 4 then .error 8
    else
      let h := bufN v p b o 4
      let count := fldN h 16 16
      if fldN h 12 4 ≠ 0 then .error (inBuf o)
      else if count = 0 ∨ 16384 < count ∨ b.len < o + 4 + 4 * count then .error (inBuf (o + 2))
      else match parseGroups v p b n (o + 4 + 4 * count) with
        | .ok l => .ok (⟨fldN h 0 12, o, count⟩ :: l)
        | .error e => .error e

/-- Members of a group of the buffer. -/
def GReq.members (v : Dev) (p : Nat) (b : Buf) (q : GReq) : List Nat := (List.range q.count).map (fun i => bufN v p b (q.off + 4 + 4 * i) 4)

/-- A member outside the coach's range, as an offset. -/
def badMember (v : Dev) (g p : Nat) (b : Buf) (q : GReq) : Option Nat :=
  ((List.range q.count).find? (coreListError v p g b (q.off + 4))).map (fun i => q.off + 4 + 4 * i)

/-- The coach that owns a group number: through a valid entry in either version (R142). -/
def groupOwner (v : Dev) (n : Nat) : Option Nat :=
  ((groupOf v false n).map (·.owner)).orElse (fun _ => (groupOf v true n).map (·.owner))

/-- Members that other coaches hold in a version. -/
def othersMembers (v : Dev) (g : Nat) (version : Bool) : Nat :=
  ((v.fab.groups.filter (fun e => e.1 / 4096 == b2n version)).map (fun e => match e.2 with
    | some x => if x.owner = g then 0 else x.members.length
    | none => 0)).foldl (· + ·) 0

/-- Route entries of the coach's numbers in a version, from the placement table as it stands. -/
def fillRoutes (g : Nat) (version : Bool) (v : Dev) : Dev :=
  let k := b2n version * 0x40000
  let c := v.coach g
  v.modFab (fun f =>
    { f with routes := (List.range (c.rankLimit + 1 - c.rankBase)).foldl (fun m i =>
        let n := c.rankBase + i
        SMap.set 0 m (k + n) (match v.placeOf n with
          | some q => q + 1
          | none => 0)) f.routes })

/-- Group entries of the coach in a version: those of the command and no other. A group none of whose members has a place is valid, and a
packet to it stays at its source's router, because it has no way to take (DESIGN CHOICE, log entry 174). -/
def fillGroups (g p : Nat) (b : Buf) (l : List GReq) (version : Bool) (v : Dev) : Dev :=
  let k := b2n version
  v.modFab (fun f =>
    let kept := f.groups.filter (fun e => !(e.1 / 4096 == k && (e.2.map (·.owner)) == some g))
    let put (m : SMap (Option Group)) (q : GReq) : SMap (Option Group) :=
      let ms := q.members v p b
      SMap.set none m (k * 4096 + q.group) (some ⟨g, ms, ms.filterMap v.placeOf⟩)
    { f with groups := l.foldl put kept })

/-- The ROUTE_TRACE record of SET_ROUTES or SWAP_EPOCH (R408). -/
def routeTrace (env : Env) (g p op version old start : Nat) (v : Dev) : Dev :=
  traceRec (portDie p) g 4 9 (env.nowOf (portDie p))
    (leBytes 1 op ++ leBytes 1 version ++ leBytes 2 0 ++ leBytes 4 old ++ leBytes 8 start ++ leBytes 8 (env.nowOf (portDie p))) v

def draining (env : Env) (v : Dev) (g : Nat) : Bool := v.fb (EF_EPOCH env.master) (4 + g)

/-- SET_ROUTES: the inactive version (R150); GROUPS 0 regenerates only the unicast entries (R338). R150 does not say which status wins where
a malformed command finds DRAINING set: the model tests BAD_PARAM first (DESIGN CHOICE, log entry 147). -/
def setRoutesCmd : Handler := fun env p bs v =>
  let g := coachOf bs
  let count := leAt bs 8 4
  let b := bufAt bs 12
  let version := !curEpoch env v g
  if !bufOk v p b false then fail stBadParam 12 v
  else if 4096 < count then fail stBadParam 8 v
  else match parseGroups v p b count 0 with
    | .error d => fail stBadParam d v
    | .ok l =>
      let total := (l.map (·.count)).foldl (· + ·) 0
      if 65536 < total then fail stBadParam 8 v
      else match l.findSome? (badMember v g p b) with
        | some o => fail stBadParam (inBuf o) v
        | none =>
          if draining env v g then fail stBusy 0 v
          else match l.find? (fun q => (groupOwner v q.group).any (· != g)) with
            | some q => fail stNoResource (inBuf q.off) v
            | none =>
              if 65536 < total + othersMembers v g version then fail stNoResource 8 v
              else
                let v := fillRoutes g version v
                let v := if count = 0 then v else fillGroups g p b l version v
                okay (routeTrace env g p 0x08 (b2n version) 0 (env.nowOf (portDie p)) v)

/-! ## SWAP_EPOCH (R151, R152) -/

/-- SWAP_EPOCH: open packets close, the epoch flips and the old version drains; the number in flight at the flip is kept for RESULT. -/
def swapEpochCmd : Handler := fun env _ bs v =>
  let g := coachOf bs
  let m := env.master
  if draining env v g then fail stBusy 0 v
  else
    let old := curEpoch env v g
    let n := inFlight v g old
    let v := (v.fab.ifaces.filter (fun e => ifaceOwner v e.1 == g)).foldl (fun v e => closePacket v e.1) v
    let v := (v.setB (EF_EPOCH m) g (!old)).setB (EF_EPOCH m) (4 + g) true
    (.later n, v.modCoach g (fun c => { c with swapped := true }))

/-- SWAP_EPOCH ends: its ROUTE_TRACE record is made, with the time of its start and of its end, and its completion (R408). -/
def swapEnds (env : Env) (g status : Nat) (v : Dev) : Dev :=
  match v.runs g 0x09 with
  | some r =>
    finishCoach env g 0x09 status (fun r => leBytes 4 r.aux)
      (routeTrace env g (v.coach g).port 0x09 (b2n (curEpoch env v g)) r.aux r.time v)
  | none => v

/-- SWAP_EPOCH_DRAINED: no packet of the old version is in flight. -/
def swapDrained (g : Nat) (env : Env) (v : Dev) : Dev :=
  if draining env v g && inFlight v g (!curEpoch env v g) == 0 then swapEnds env g stOk (v.setB (EF_EPOCH env.master) (4 + g) false) else v

/-- SWAP_EPOCH_TIMEOUT: EF_DRAIN_LIMIT microseconds after the flip packets of the old version are in flight. -/
def swapTimeout (g : Nat) (env : Env) (v : Dev) : Dev :=
  match v.runs g 0x09 with
  | some r =>
    if draining env v g && inFlight v g (!curEpoch env v g) != 0
        && decide (r.time + 1000 * v.rdN (EF_DRAIN_LIMIT env.master) ≤ env.nowOf (portDie (v.coach g).port)) then
      swapEnds env g stTimeout (v.setB (EF_EPOCH env.master) (8 + g) true)
    else v
  | none => v

/-! ## DRAIN (R153, R346) -/

/-- DRAIN: RELEASE clears HOLD; else HOLD is set, and the limit in microseconds is kept, EF_DRAIN_LIMIT for 0 (R338). -/
def drainCmd : Handler := fun env _ bs v =>
  let g := coachOf bs
  if fldN (leAt bs 8 1) 0 1 = 1 then okay (setHold env g false v)
  else
    let t := leAt bs 12 4
    (.later (if t = 0 then v.rdN (EF_DRAIN_LIMIT env.master) else t), setHold env g true v)

/-- Nothing of the coach is in flight, in either version. -/
def coachQuiet (v : Dev) (g : Nat) : Bool := inFlight v g false == 0 && inFlight v g true == 0

/-- DRAIN_DONE: a DRAIN completes, or the close of the coach goes on (R343). -/
def drainDone (g : Nat) (env : Env) (v : Dev) : Dev :=
  if coachQuiet v g && isHeld env v g then
    match (v.coach g).closeAt with
    | some _ => closeEnd env g v
    | none => finishCoach env g 0x0A stOk (fun _ => []) v
  else v

/-- DRAIN_TIMEOUT: HOLD stays set. -/
def drainTimeout (g : Nat) (env : Env) (v : Dev) : Dev :=
  match v.runs g 0x0A with
  | some r =>
    if !coachQuiet v g && decide (r.time + 1000 * r.aux ≤ env.nowOf (portDie (v.coach g).port)) then
      finishCoach env g 0x0A stTimeout (fun _ => []) v
    else v
  | none => v

/-! ## Running and stopping (R46, R47, R341, R346, R353) -/

def setCoachState (g : Nat) (st : CoachState) (v : Dev) : Dev := v.modCoach g (fun c => { c with state := st })

/-- The frame unit forgets what it published before the run (R282). -/
def forgetPublished (g : Nat) (v : Dev) : Dev :=
  match unitOf v g with
  | some p => v.modFu p (fun f => { f with last := none })
  | none => v

/-- A run begins with tick `n`: the pails and separators of the coach collect for it. One that collected for another tick, as after a
RESTORE, keeps what it holds, and no tick has been handed over (DEDUCED, log entry 150). -/
def collectFrom (env : Env) (g n : Nat) (v : Dev) : Dev :=
  let v := (coachChurns env v g).foldl (fun v x =>
    v.modChurn x.1 x.2 (fun h => if h.collTick = n then h else { h with collTick := n, handed := none })) v
  (coachSeps env v g).foldl (fun v x =>
    v.modSep x.1 x.2 (fun s => if s.collTick = n then s else { s with collTick := n, handed := none })) v

/-- START_RUN. A coach that a port loss stopped is cleared of it, and of HOLD_SAFE (R353). -/
def startRunCmd : Handler := fun env _ bs v =>
  let g := coachOf bs
  let m := env.master
  if !(v.coach g).swapped then fail stBusy 0 v
  else if !(genSettings v m g).valid then fail stBadParam 0 (v.setB (TG_STATUS m g) 0 true)
  else
    let first := v.tgTick env g
    let v := if (v.coach g).loss then clearSafe m g (v.modCoach g (fun c => { c with loss := false })) else v
    let v := setHold env g false v
    let v := collectFrom env g first (forgetPublished g v)
    let v := setCoachState g .running (bumpGen g (armGen env g false v))
    let start := match (v.gen g).next with
      | x :: _ => x.start
      | [] => 0
    (.done stOk 0 (leBytes 8 first ++ leBytes 8 (if v.fb (TG_CTRL m g) 1 then 0 else start)), v)

/-- STOP_RUN: in STOPPED at once, else at the end of the current tick. -/
def stopRunCmd : Handler := fun _ _ bs v =>
  let g := coachOf bs
  if coachState v g = .stopped then (.done stOk 0 (leBytes 8 ((v.gen g).lastTick.getD Config.noTick)), v)
  else (.later 0, setCoachState g .stopping (v.modGen g (fun t => { t with stopReq := true })))

/-- STEP: one tick, at now + 10,000 ns. -/
def stepCmd : Handler := fun env _ bs v =>
  let g := coachOf bs
  let m := env.master
  if !(genSettings v m g).valid then fail stBadParam 0 (v.setB (TG_STATUS m g) 0 true)
  else (.later 0, setCoachState g .stepping (bumpGen g (armGen env g true (collectFrom env g (v.tgTick env g) (setHold env g false v)))))

/-- The boundary after the current tick of coach `g`, at which the next does not start (R44, R47): the start that was distributed, or an
interval after a freewheel tick. A stalled generator has no boundary to wait for once its tick has passed its instants (log entry 121). -/
def atBoundary (env : Env) (v : Dev) (g : Nat) : Bool :=
  let m := env.master
  let t := v.gen g
  match t.cur with
  | none => true
  | some c => c.closed env v && c.pailed env v && c.acted && (match t.next with
    | x :: _ => decide (x.start ≤ env.now)
    | [] => !v.fb (TG_CTRL m g) 1 || v.fb (TG_STATUS m g) 4
        || (v.fb (TG_STATUS m g) 5 && decide (c.start + t.inForce.period ≤ env.now)))

/-- The timetable work of the last tick is over, or the time has come at which R55 abandons it: a stopped generator runs no frame (R47,
R48, R247; log entry 153). -/
def workOver (env : Env) (v : Dev) (g : Nat) : Bool := workOf env v g == none || (match (v.gen g).cur with
  | some c => decide (c.start + c.set.period + c.set.pail ≤ env.now)
  | none => true)

/-- GENERATOR_STOP: a stop was asked for and the boundary has come. -/
def generatorStop (g : Nat) (env : Env) (v : Dev) : Dev :=
  let t := v.gen g
  if v.genRuns env g && t.stopReq && !t.stepping && atBoundary env v g && workOver env v g then
    let v := stopGen env g (abandonFrame env g v)
    if (v.coach g).state = .closing then closeDrain env g v
    else
      let v := setCoachState g .stopped v
      finishCoach env g 0x0C stOk (fun _ => leBytes 8 ((v.gen g).lastTick.getD Config.noTick)) v
  else v

/-- STEP_DONE: the action instant and the end of the frame have passed (R346). -/
def stepDone (g : Nat) (env : Env) (v : Dev) : Dev :=
  let t := v.gen g
  match t.cur with
  | some c =>
    if v.genRuns env g && t.stepping && c.acted && (v.frame g == none) then
      let late := lateOfTick env v g c
      let v := setCoachState g .stopped (stopGen env g v)
      finishCoach env g 0x0D stOk (fun _ => leBytes 8 c.n ++ leBytes 4 late ++ leBytes 1 (b2n c.missed)) v
    else v
  | none => v

/-! ## TIMER_CFG (R58, R67) -/

/-- A claim of an owner field: it must be unassigned. -/
def claimOwner (g : Nat) (r : Reg) (lo : Nat) (v : Dev) : Ans × Dev :=
  if v.fd r lo 3 = 7 then okay (v.setF r lo 3 g) else fail stNoResource 10 v

/-- A release of an owner field: it must be the coach's own. -/
def releaseOwner (g : Nat) (r : Reg) (lo : Nat) (v : Dev) : Ans × Dev :=
  if v.fd r lo 3 = g then okay (v.setF r lo 3 7) else fail stNotOwner 10 v

/-- A write to TO_CTRL[k]: the bits that exist, and ERR for a pulse source of width 0 (R66). -/
def toCtrlWrite (env : Env) (k : Nat) (x : Word) (v : Dev) : Dev :=
  let r := TO_CTRL env.master k
  let src := fld x 0 3
  let v := plainWrite r x v
  if (src = 1 ∨ src = 2 ∨ src = 3) ∧ fld x 16 16 = 0 then v.setB r 14 true else v

/-- TIMER_CFG. -/
def timerCfgCmd : Handler := fun env _ bs v =>
  let g := coachOf bs
  let m := env.master
  let act := leAt bs 8 1
  let d := leAt bs 9 1
  let k := leAt bs 10 1
  let x := w32 (leAt bs 12 4)
  let count := if act < 2 then 64 else if act < 4 then 8 else 4
  if 6 < act then fail stBadParam 8 v
  else if env.dies ≤ d ∨ (4 ≤ act ∧ d ≠ m) then fail stBadParam 9 v
  else if count ≤ k then fail stBadParam 10 v
  else if act < 2 ∧ d = m ∧ k < 4 then fail (if act = 0 then stNoResource else stNotOwner) 10 v
  else match act with
    | 0 => claimOwner g (CMP_CTRL d k) 28 v
    | 1 => releaseOwner g (CMP_CTRL d k) 28 v
    | 2 => claimOwner g (CAP_CTRL d k) 28 v
    | 3 => releaseOwner g (CAP_CTRL d k) 28 v
    | 4 =>
      if v.fd (TO_OWNER m) (4 * k) 3 ≠ g then fail stNotOwner 10 v
      else if fld x 4 2 ≠ g ∨ (fld x 0 3 = 3 ∧ v.fd (CMP_CTRL m (fld x 8 6)) 28 3 ≠ g) then fail stBadParam 12 v
      else okay (toCtrlWrite env k x v)
    | 5 => claimOwner g (TO_OWNER m) (4 * k) v
    | _ => if v.fd (TO_OWNER m) (4 * k) 3 = g then okay (leavePin env g v k) else fail stNotOwner 10 v

/-! ## The commands -/

def execSetRoutes (p : Fin 4) (c : Cmd) (s : State) : Host.Outcome State Fault Refusal :=
  .next (s.onDev (runCommand 0x08 p.val c setRoutesCmd))
def execSwapEpoch (p : Fin 4) (c : Cmd) (s : State) : Host.Outcome State Fault Refusal :=
  .next (s.onDev (runCommand 0x09 p.val c swapEpochCmd))
def execSwapEpochDrained (g : Fin 4) (s : State) : Host.Outcome State Fault Refusal := .next (s.onDev (swapDrained g.val))
def execSwapEpochTimeout (g : Fin 4) (s : State) : Host.Outcome State Fault Refusal := .next (s.onDev (swapTimeout g.val))
def execDrain (p : Fin 4) (c : Cmd) (s : State) : Host.Outcome State Fault Refusal :=
  .next (s.onDev (runCommand 0x0A p.val c drainCmd))
def execDrainDone (g : Fin 4) (s : State) : Host.Outcome State Fault Refusal := .next (s.onDev (drainDone g.val))
def execDrainTimeout (g : Fin 4) (s : State) : Host.Outcome State Fault Refusal := .next (s.onDev (drainTimeout g.val))
def execStartRun (p : Fin 4) (c : Cmd) (s : State) : Host.Outcome State Fault Refusal :=
  .next (s.onDev (runCommand 0x0B p.val c startRunCmd))
def execStopRun (p : Fin 4) (c : Cmd) (s : State) : Host.Outcome State Fault Refusal :=
  .next (s.onDev (runCommand 0x0C p.val c stopRunCmd))
def execStep (p : Fin 4) (c : Cmd) (s : State) : Host.Outcome State Fault Refusal :=
  .next (s.onDev (runCommand 0x0D p.val c stepCmd))
def execGeneratorStop (g : Fin 4) (s : State) : Host.Outcome State Fault Refusal := .next (s.onDev (generatorStop g.val))
def execStepDone (g : Fin 4) (s : State) : Host.Outcome State Fault Refusal := .next (s.onDev (stepDone g.val))
def execTimerCfg (p : Fin 4) (c : Cmd) (s : State) : Host.Outcome State Fault Refusal :=
  .next (s.onDev (runCommand 0x1B p.val c timerCfgCmd))

end Sys2Proof.Machine
end

