-- ==== Sys2Proof/Machine/Firmware.lean ====
section
/-! DEFINITION. Firmware: crashes and restarts, trace forwarding, the debug token, the crock, updates, attestation, and the field tests
(R376, R400 to R430). -/
namespace Sys2Proof.Machine

open Sys2Proof

/-! ## Crashes and restarts (R402 to R407) -/

/-- State of an ostler in FW_STATUS, and of the coachman. -/
def ostlerState (v : Dev) (d k : Nat) : Nat := v.fd (FW_STATUS d) (2 * k + 2) 2
def setOstler (d k x : Nat) (v : Dev) : Dev := v.setF (FW_STATUS d) (2 * k + 2) 2 x
def cmState (v : Dev) (d : Nat) : Nat := v.fd (FW_STATUS d) 0 2

/-- Times of the last 10 minutes in a list of restarts: die × 5 + processor, or 64 + die for restarts of a coachman that failed. -/
def recentRestarts (env : Env) (v : Dev) (d key : Nat) : List Nat :=
  (SMap.get [] v.fw.restarts key).filter (fun t => decide (env.nowOf d < t + 600000000000))
def noteRestart (env : Env) (d key : Nat) (v : Dev) : Dev :=
  { v with fw := { v.fw with restarts := SMap.set [] v.fw.restarts key (env.nowOf d :: recentRestarts env v d key) } }

def setCause (key cause : Nat) (v : Dev) : Dev := { v with fw := { v.fw with cause := SMap.set 0 v.fw.cause key cause } }

/-- Firmware of a die runs: it was started, and the die is in service and not in a reset. -/
def fwRuns (env : Env) (v : Dev) (d : Nat) : Bool :=
  env.has d && v.fw.image.isSome && dieState env v d != 3 && dieState env v d != 4 && !v.dieDown.contains d && cmState v d == 0

/-- An ostler that crashed is reset by its coachman, or isolated after three restarts within 10 minutes (R404). -/
def ostlerDown (d k cause : Nat) (env : Env) (v : Dev) : Dev :=
  if !fwRuns env v d || ostlerState v d k != 0 then v
  else
    let v := logFwState env d (k + 1) 1 cause v
    if 3 ≤ (recentRestarts env v d (d * 5 + k + 1)).length then logFwState env d (k + 1) 3 cause (setOstler d k 3 v)
    else setCause (d * 5 + k + 1) cause (setOstler d k 1 v)

/-- OSTLER_CRASH: the crash of an ostler that runs makes an FW record. -/
def ostlerCrash (d k cause : Nat) (env : Env) (v : Dev) : Dev :=
  if !fwRuns env v d || ostlerState v d k != 0 then v else ostlerDown d k cause env (raiseFw env d 0x40 (mBlock d 8 k) 0 k v)

/-- OSTLER_RESTART_DONE. -/
def ostlerDone (d k : Nat) (env : Env) (v : Dev) : Dev :=
  if !env.has d || v.dieDown.contains d || cmState v d != 0 || ostlerState v d k != 1 then v
  else
    let v := noteRestart env d (d * 5 + k + 1) (serveDog env d (k + 1) (setOstler d k 0 v))
    let v := v.setF (FW_RESTARTS d) 16 16 (min 0xFFFF (v.fd (FW_RESTARTS d) 16 16 + 1))
    logFwState env d (k + 1) 2 (SMap.get 0 v.fw.cause (d * 5 + k + 1)) v

/-- COMPONENT_TRAP: the fault handler, or with `log` the log component, is restarted alone (R405). -/
def componentTrap (d : Nat) (log : Bool) (cause : Nat) (env : Env) (v : Dev) : Dev :=
  let key := d * 2 + b2n log
  if !fwRuns env v d || v.fw.compDown.contains key then v
  else
    let v := setCause (100 + key) cause (raiseFw env d 0x41 (mBlock d 7 0) 0 0 v)
    logFwState env d 5 1 cause { v with fw := { v.fw with compDown := v.fw.compDown ++ [key] } }

def componentDone (d : Nat) (log : Bool) (env : Env) (v : Dev) : Dev :=
  let key := d * 2 + b2n log
  if env.has d && v.fw.compDown.contains key then
    logFwState env d 5 2 (SMap.get 0 v.fw.cause (100 + key)) { v with fw := { v.fw with compDown := v.fw.compDown.filter (fun x => x != key) } }
  else v

/-- The coachman and the ostlers of a die go into reset. -/
def holdFirmware (d cause : Nat) (v : Dev) : Dev :=
  let v := (List.range 4).foldl (fun v k => if ostlerState v d k = 3 then v else setOstler d k 1 v) (v.setF (FW_STATUS d) 0 2 1)
  setCause (d * 5) cause { v with fw := { v.fw with compDown := v.fw.compDown.filter (fun x => x / 2 != d) } }

/-- The coachman and the ostlers of a die run. -/
def freeFirmware (env : Env) (d : Nat) (v : Dev) : Dev :=
  serveDogs env d <| (List.range 4).foldl (fun v k => if ostlerState v d k = 1 then setOstler d k 0 v else v) (v.setF (FW_STATUS d) 0 2 0)

/-- FW_IMAGE, FW_SVN and the slot that a die shows for an image that it runs. -/
def showImage (env : Env) (img : Image) (slot : Nat) (host : Bool) (d : Nat) (v : Dev) : Dev :=
  let v := (v.wrN (FW_IMAGE d) img.ver).wrN (FW_SVN d) (img.svn + 0x10000 * (if d = env.master then v.crock.arc else 0))
  (v.setB (FW_STATUS d) 10 (slot == 1)).setB (FW_STATUS d) 11 host

/-! ## Activation (R429, R430) -/

/-- The state of a firmware slot. -/
def slotState (v : Dev) (k : Nat) : Nat := if k = 0 then v.crock.slotA else v.crock.slotB
def setSlotState (k x : Nat) (v : Dev) : Dev :=
  if k = 0 then { v with crock := { v.crock with slotA := x } } else { v with crock := { v.crock with slotB := x } }
def slotImg (v : Dev) (k : Nat) : Option Image := if k = 0 then v.crock.imageA else v.crock.imageB
def setSlotImg (k : Nat) (x : Option Image) (v : Dev) : Dev :=
  if k = 0 then { v with crock := { v.crock with imageA := x } } else { v with crock := { v.crock with imageB := x } }

/-- A slot state is written, in both copies of its area (R422), if the crock can be written. -/
def writeSlot (env : Env) (k x : Nat) (v : Dev) : Dev := wearSectors env [2, 3] (setSlotState k x v)

/-- The sectors of `n` bytes of the crock from offset `off` on. -/
def sectorsOf (off n : Nat) : List Nat := (List.range ((off % 0x10000 + n + 0xFFFF) / 0x10000)).map (fun i => off / 0x10000 + i)

/-- The crock takes images: present, authenticated, not read-only, not removed (R425, R426, R428). -/
def crockWritable (env : Env) (v : Dev) : Bool := crockUsable env v && !v.fb (CR_STATUS env.master) 3

/-- The slot that is not in force. -/
def inactive (v : Dev) : Nat := 1 - v.crock.active

/-- Firmware of a die is restarted from the image that its PSRAM now holds. -/
def restartForTrial (env : Env) (d : Nat) (v : Dev) : Dev := logFwState env d 0 1 3 (holdFirmware d 3 v)

/-- The image in force before runs again on every die, and the FW_ACTIVATE ends with FAULTED. -/
def trialOver (env : Env) (a : Activation) (v : Dev) : Dev :=
  let v := logUpdate env 6 a.slot (slotImg v a.slot) { v with fw := { v.fw with act := none } }
  match a.port with
  | some p => finish env p 0x17 4 stFaulted 0 (fun _ => []) v
  | none => v

/-- The trial of an image has failed: its slot is FAILED if the crock can be written, FALLBACK is set, the image before is copied back to
every die's PSRAM, and every die's firmware restarts from it, each in turn (R429). -/
def trialFails (env : Env) (v : Dev) : Dev :=
  match v.fw.act with
  | none => v
  | some a =>
    if a.back then v
    else
      let v := if crockWritable env v then writeSlot env a.slot 5 v else v
      let dies := env.dieList.filter (fun d => dieUp env v d && !v.dieDown.contains d)
      let v := dies.foldl (fun v d => psramStore d a.oldBytes v) v
      let a := { a with due := dies, back := true }
      let v := { v.setB (BU_STATUS env.master) 12 true with fw := { v.fw with act := some a, image := some a.old } }
      match dies with
      | [] => trialOver env a v
      | d :: _ => restartForTrial env d v

/-- The activation starts: TRIAL, the image goes to every die's PSRAM, and the first die restarts. -/
def startTrial (env : Env) (port : Option Nat) (v : Dev) : Dev :=
  let k := inactive v
  let m := env.master
  let bs := slotImage v k
  let img := imageOf bs
  let dies := env.dieList.filter (fun d => dieUp env v d && !v.dieDown.contains d)
  let old := v.fw.image.getD img
  let a : Activation := ⟨k, some env.now, port, dies, old, v.fb (FW_STATUS m) 11, v.ldBytes (psramMem m 0) old.len, false⟩
  let v := writeSlot env k 4 v
  let v := dies.foldl (fun v d => psramStore d bs v) v
  let v := logUpdate env 4 k (some img) { v with fw := { v.fw with act := some a, image := some img } }
  match dies with
  | [] => v
  | d :: _ => restartForTrial env d v

/-- The dies that are due restart in turn; when none is, the image before runs everywhere, or the one on trial waits to be confirmed. -/
def trialGoesOn (env : Env) (a : Activation) (rest : List Nat) (v : Dev) : Dev :=
  let a := { a with due := rest, last := some env.now }
  let v := { v with fw := { v.fw with act := some a } }
  match rest with
  | y :: _ => restartForTrial env y v
  | [] => if a.back then trialOver env a v else v

/-- A die has restarted from the image on trial, or from the one before: the next one restarts. -/
def trialNext (env : Env) (d : Nat) (v : Dev) : Dev :=
  match v.fw.act with
  | none => v
  | some a =>
    match a.due with
    | [] => v
    | x :: rest =>
      if x ≠ d then v
      else
        let v := if a.back then showImage env a.old (1 - a.slot) a.oldHost d v else showImage env (v.fw.image.getD a.old) a.slot false d v
        trialGoesOn env a rest v

/-- A die that is reset is due no longer. -/
def trialSkip (env : Env) (d : Nat) (v : Dev) : Dev :=
  match v.fw.act with
  | none => v
  | some a => if a.due.head? = some d then trialGoesOn env a a.due.tail v
    else { v with fw := { v.fw with act := some { a with due := a.due.filter (fun x => x != d) } } }

/-- A power or thermal emergency is in force (R444). -/
def emergency (env : Env) (v : Dev) : Bool := v.fb (PM_STATUS env.master) 3 || v.fb (PM_STATUS env.master) 4

def deferred (env : Env) (v : Dev) : Bool := v.fb (FW_UPDATE env.master) 7
def setDeferred (env : Env) (b : Bool) (v : Dev) : Dev := v.setB (FW_UPDATE env.master) 7 b

/-- FW_ACTIVATE. -/
def fwActivateCmd : Handler := fun env p bs v =>
  let k := inactive v
  if v.fw.act.isSome then fail stBusy 0 v
  else if leAt bs 8 1 = 1 then
    if deferred env v then okay (logUpdate env 3 k (slotImg v k) (setDeferred env false v)) else fail stOkEmpty 0 v
  else if deferred env v then fail stDeferred 0 v
  else if !crockWritable env v then fail stNoResource 0 v
  else if slotState v k ≠ 2 then fail stBadParam 8 v
  else if emergency env v then fail stDeferred 0 (logUpdate env 2 k (slotImg v k) (setDeferred env true v))
  else (.later 0, startTrial env (some p) v)

/-- Every die in service reports its coachman and its ostlers started. -/
def allStarted (env : Env) (v : Dev) : Bool :=
  (env.dieList.filter (dieUp env v)).all (fun d => cmState v d == 0 && (List.range 4).all (fun k => ostlerState v d k == 0 || ostlerState v d k == 3))

/-- ACTIVATION_CONFIRM: within 1 s of the last restart; a counter that cannot be written blocks it (R421, R429). -/
def activationConfirm (env : Env) (v : Dev) : Dev :=
  match v.fw.act with
  | none => v
  | some a =>
    match a.last with
    | none => v
    | some t =>
      if a.due != [] || a.back || !allStarted env v || decide (t + 1000000000 < env.now) || !crockWritable env v then v
      else
        let img := v.fw.image.getD a.old
        let v := wearSectors env [1] (writeSlot env a.slot 3 v)
        let v := if slotState v (1 - a.slot) = 3 then setSlotState (1 - a.slot) 2 v else v
        let v := { v with crock := { v.crock with active := a.slot, arc := max v.crock.arc img.svn }, fw := { v.fw with act := none } }
        let v := v.setF (FW_SVN env.master) 16 16 v.crock.arc
        let v := logUpdate env 5 a.slot (some img) v
        match a.port with
        | some p => finish env p 0x17 4 stOk 0 (fun _ => []) v
        | none => v

/-- ACTIVATION_TIMEOUT: more than 1 s has passed since the last restart. -/
def activationTimeout (env : Env) (v : Dev) : Dev :=
  match v.fw.act with
  | some a => match a.last with
    | some t => if a.due = [] ∧ t + 1000000000 < env.now then trialFails env v else v
    | none => v
  | none => v

/-- DEFERRED_ACTIVATION_START: no emergency has been in force for 100 ms (R430). -/
def deferredStart (env : Env) (v : Dev) : Dev :=
  if deferred env v && !emergency env v && decide (v.fw.quiet + 100000000 ≤ env.now) && v.fwUp env && slotState v (inactive v) == 2 then
    startTrial env none (setDeferred env false v)
  else v

/-- A deferred activation is given up, because the crock is read-only or gone (R430). -/
def dropDeferred (env : Env) (v : Dev) : Dev :=
  if deferred env v then logUpdate env 1 (inactive v) (slotImg v (inactive v)) (setDeferred env false v) else v

/-! ## The die's firmware (R406) -/

/-- FW_RESTART: the coachman and the ostlers are reset; on the master die a trial has failed. -/
def fwRestart (d cause : Nat) (env : Env) (v : Dev) : Dev :=
  if !fwRuns env v d then v
  else
    let v := if d = env.master ∧ v.fw.act.isSome then trialFails env v else v
    logFwState env d 0 1 cause (holdFirmware d cause v)

/-- The die warm resets that the master die's firmware owes are made (R395, R407). -/
def resetsOwed (env : Env) (v : Dev) : Dev :=
  v.fw.resetDue.foldl (fun v d => dieWarm env d v) { v with fw := { v.fw with resetDue := [] } }

/-- FW_RESTART_DONE: the die's firmware runs again, or its coachman fails to restart: at the third time in 10 minutes the die is reset and
re-brought (R395); the master die, which no die warm reset may name, stays without firmware. -/
def fwRestartDone (d : Nat) (ok : Bool) (env : Env) (v : Dev) : Dev :=
  if !env.has d || v.dieDown.contains d || cmState v d != 1 then v
  else if ok then
    let cause := SMap.get 0 v.fw.cause (d * 5)
    let v := if copyBad v d then reloadCopy env d v else v
    let v := noteRestart env d (d * 5) (freeFirmware env d v)
    let v := v.setF (FW_RESTARTS d) 0 8 (min 255 (v.fd (FW_RESTARTS d) 0 8 + 1))
    let v := v.setF (FW_RESTARTS d) 8 2 (min 3 (recentRestarts env v d (d * 5)).length)
    let v := raiseFw env d 0x41 (mBlock d 7 0) 0 0 v
    let v := logFwState env d 0 2 cause v
    let v := if d = env.master ∧ v.bu.safeDue = true then bootRelease env v else v
    trialNext env d (if d = env.master then resetsOwed env v else v)
  else
    let v := noteRestart env d (64 + d) v
    if (recentRestarts env v d (64 + d)).length < 3 then v
    else if d = env.master then v.setF (FW_STATUS d) 0 2 3
    else trialSkip env d (requestWarm env d v)

/-- The period of a processor's watchdog in ns (R403). -/
def dogPeriod (v : Dev) (d proc : Nat) : Nat := 1000000 * (if proc = 0 then v.fd (FW_WDT_CFG d) 16 8 else v.fd (FW_WDT_CFG d) 0 8)

/-- WATCHDOG_EXPIRY: 0 the coachman's, 1 to 4 an ostler's: no earlier than a period after the processor's firmware started, the time not
counted while a debugger halted it; paused while one halts it (R403). -/
def watchdogExpiry (d proc : Nat) (env : Env) (v : Dev) : Dev :=
  if v.tick.halted.contains (d * 8 + 1 + proc) then v
  else if env.nowOf d < SMap.get 0 v.fw.served (d * 5 + proc) + SMap.get 0 v.tick.paused (d * 8 + 1 + proc) + dogPeriod v d proc then v
  else if proc = 0 then fwRestart d 1 env v
  else ostlerCrash d (proc - 1) 1 env v

/-- PSRAM_CRC_ERROR: 0 the secure monitor, 1 the fault handler, 2 the log component, 3 to 6 an ostler, 7 the debug port (R402, R477). -/
def psramCrcError (d comp off : Nat) (env : Env) (v : Dev) : Dev :=
  if !env.has d || decide (0x2000000 ≤ off) then v
  else
    let master := if comp < 3 then mBlock d 7 0 else if comp < 7 then mBlock d 8 (comp - 3) else mBlock env.master 11 0
    let v := raiseFw env d 0x42 master (psramMem d (off / 8 * 8)) 0 (v.inc (XR_CRC_ERR d) 1)
    let v := if off < 0x1000000 ∧ v.fw.badCopy.contains d = false then { v with fw := { v.fw with badCopy := v.fw.badCopy ++ [d] } } else v
    if comp = 0 then fwRestart d 2 env v
    else if comp < 3 then componentTrap d (comp == 2) 2 env v
    else if comp < 7 then ostlerCrash d (comp - 3) 2 env v
    else v

/-! ## Errors that circuits detect, and injection (R377, R398) -/

/-- The restart that an FW error brings (R377): that of the ostler, or of the firmware, that crashed (R402, R404, R406). FW_DEFECT_FULL and
FW_CROCK name no crash, and the rules of firmware state no restart for them (DEDUCED, log entry 184). -/
def fwAction (e : Detected) (env : Env) (v : Dev) : Dev :=
  let m := e.master.toNat
  let cause := if e.source.toNat = 0x42 then 2 else 0
  if [0x40, 0x41, 0x42].contains e.source.toNat && !mIsCore m then
    if mKind m = 8 then ostlerDown (mDie m) (mInst m % 4) cause env v
    else if mKind m = 7 then fwRestart (mDie m) cause env v
    else v
  else v

/-- FAULT_RAISE: the errors of one MCK cycle, each raised, and the hardware action of an FW error taken. -/
def faultRaise (l : List Detected) (env : Env) (v : Dev) : Dev := (byMaster l).foldl (fun v e => fwAction e env (detect env v e)) v

/-- What an internal address of R23 names in memory: the model's address of its 64-bit word, its die and its MASTER. -/
def injTarget (env : Env) (v : Dev) (a : Nat) : Option (Nat × Nat × Nat) :=
  let a := a / 8 * 8
  if a < 0x2000000000 then
    if a % 0x80000 < 0x40000 then (v.reach env (a / 0x80000)).map (fun p => (coreMem p (a % 0x80000), pDie p, mCore p)) else none
  else if dieSpace 0 ≤ a ∧ a < dieSpace env.dies then
    let d := (a - dieSpace 0) / 0x10000000000
    let o := (a - dieSpace 0) % 0x10000000000
    if o < 0x10000000 then some (a, d, mBlock d 6 (bankOfWord v d (o / 128)).1)
    else if 0x1000000000 ≤ o ∧ o < 0x1004000000 ∧ d < 2 then some (a, d, mBlock d 15 ((o - 0x1000000000) / 0x2000000))
    else none
  else none

/-- The die and offset of a PSRAM word that an internal address names. -/
def injPsram (env : Env) (a : Nat) : Option (Nat × Nat) :=
  let o := (a - dieSpace 0) % 0x10000000000
  if dieSpace 0 ≤ a ∧ a < dieSpace env.dies ∧ 0x2000000000 ≤ o ∧ o < 0x2002000000 then
    some ((a - dieSpace 0) / 0x10000000000, (o - 0x2000000000) / 8 * 8)
  else none

/-- The table of a churn, its pail or a separator that an internal address names: the two words of its 64 bits, its die and its MASTER. -/
def injTable (env : Env) (a : Nat) : Option (Reg × Reg × Nat × Nat) :=
  let d := (a - dieSpace 0) / 0x10000000000
  let r := (a - dieSpace 0) % 0x10000000000 - 0x4000000000
  let pair := fun (m : Nat) => some (dieReg d (r / 8 * 8), dieReg d (r / 8 * 8 + 4), d, m)
  if dieSpace 0 ≤ a ∧ a < dieSpace env.dies ∧ 0x4000000000 ≤ (a - dieSpace 0) % 0x10000000000 then
    if 0x60000 ≤ r ∧ r < 0xA0000 ∧ 0x2000 ≤ r % 0x10000 then
      pair (mBlock d (if 0x4000 ≤ r % 0x10000 ∧ r % 0x10000 < 0x8000 then 1 else 0) ((r - 0x60000) / 0x10000))
    else if 0xC0000 ≤ r ∧ r < 0x100000 ∧ 0x800 ≤ r % 0x4000 ∧ r % 0x4000 < 0x3000 then pair (mBlock d 2 ((r - 0xC0000) / 0x4000))
    else none
  else none

/-- A word of a table with bits flipped. -/
def flipTable (lo hi : Reg) (mask : Nat) (v : Dev) : Dev := (v.wr lo (v.rd lo ^^^ w32 mask)).wr hi (v.rd hi ^^^ w32 (mask / 0x100000000))

/-- FC_INJ_GO: the armed injection happens, at the access to its address that the row stands for (R24, R25, R398): flipped bits are corrected
(one) or stand in what is read (two), or a synthetic record is made; GO clears. The kind of the access and the syndrome are free values (log
entry 186); in the PSRAM, whose CRC corrects nothing, flipped bits stand and the component that reads them crashes (R402). -/
def injGo' (d : Nat) (env : Env) (v : Dev) : Dev :=
  let w := v.rd (FC_INJ_CTRL d)
  if !env.has d || !v.flt.factory || !bit w 24 then v
  else
    let v := v.setB (FC_INJ_CTRL d) 24 false
    let mode := fld w 0 2
    let a := v.rd64 (FC_INJ_ADDR_LO d) (FC_INJ_ADDR_HI d) % 0x1000000000000
    if mode = 3 then
      raise env { die := d, cls := fld w 8 3, owner := fld w 12 3, source := fld w 16 8, master := mBlock d 14 0, access := accNone, addr := 0,
                  info := 0 } v
    else if mode = 0 then v
    else
      let one := 2 ^ fld w 2 6
      let mask := if mode = 2 then one ^^^ (2 * one % 2 ^ 64) else one
      let x := v.takeFree
      let found (die m : Nat) : Detected :=
        ⟨Fin.ofNat 8 die, BitVec.ofNat 8 (if mode = 1 then 0x01 else if mIsCore m then 0x02 else 0x03), BitVec.ofNat 16 m,
         Fin.ofNat 8 ([accRead, accRmw, accFetch].getD (x.1 % 3) accRead), 4, BitVec.ofNat 48 (a / 8 * 8), BitVec.ofNat 64 (x.1 / 4 % 256)⟩
      match injTarget env v a, injPsram env a, injTable env a with
      | some (b, die, m), _, _ => detect env (if mode = 2 then x.2.stN b 8 (x.2.ldN b 8 ^^^ mask) else x.2) (found die m)
      | none, some (die, o), _ => psramCrcError die (x.1 % 8) o env (x.2.stN (psramMem die o) 8 (x.2.ldN (psramMem die o) 8 ^^^ mask))
      | none, none, some (lo, hi, die, m) => detect env (if mode = 2 then flipTable lo hi mask x.2 else x.2) (found die m)
      | none, none, none =>
        raise env { die := d, cls := clsIF, owner := 4, source := 0x24, master := mBlock d 14 0, access := accRead, addr := a, info := 0 } v

/-! ## Trace forwarding (R410) -/

/-- TRACE_FORWARD: the oldest record of a die's FIFO goes to the port of its coach, or is counted in LOST beyond 64 in a millisecond. -/
def traceForward (d : Nat) (env : Env) (v : Dev) : Dev :=
  match SMap.get [] v.traces d with
  | [] => v
  | r :: rest =>
    if !env.has d || v.dieDown.contains d || !v.ostlerUp d 0 then v
    else
      let v := { v with traces := SMap.set [] v.traces d rest }
      let ms := env.nowOf d / 1000000
      let old := SMap.get (0, 0) v.fw.fwd (d * 4 + r.coach)
      let n := if old.1 = ms then old.2 else 0
      if 64 ≤ n then v.setF (FW_TRACE d r.coach) 24 8 (min 255 (v.fd (FW_TRACE d r.coach) 24 8 + 1))
      else
        let v := { v with fw := { v.fw with fwd := SMap.set (0, 0) v.fw.fwd (d * 4 + r.coach) (ms, n + 1) } }
        let port := if v.isOpen r.coach then [(v.coach r.coach).port] else []
        logTo env (port.filter (fun p => (openPorts v).contains p)) r.kind r.coach r.body v

/-! ## Secure registers (R403, R411, R416) -/

/-- The secure monitor alone writes secure registers. -/
def secureWrite (env : Env) (who : Party) (d : Nat) (r : Reg) (f : Dev → Dev) (v : Dev) : Dev :=
  if !env.has d then missWrite env who r v
  else match who with
    | .monitor _ => f v
    | _ => raiseSecure env who d r v

/-- FW_WDT_CFG: a 0 keeps a period and sets CFG_ERR. -/
def wdtWrite (d : Nat) (x : Word) (v : Dev) : Dev :=
  let r := FW_WDT_CFG d
  let v := if bit x 24 then v.setB r 24 false else v
  let v := if fld x 0 8 = 0 then v.setB r 24 true else v.setF r 0 8 (fld x 0 8)
  if fld x 16 8 = 0 then v.setB r 24 true else v.setF r 16 8 (fld x 16 8)

/-- The words of a token as they stand, the last one as it is written. -/
def tokenBytes (v : Dev) (d : Nat) (x : Word) : List Byte :=
  wordBytes ((List.range 255).map (fun i => v.rd (SEC_DBG_TOKEN d i)) ++ [x])

/-- SEC_DBG_TOKEN: the last word of a token is written from the debug port; each check draws a new nonce. -/
def debugToken (who : Party) (d : Nat) (x : Word) (env : Env) (v : Dev) : Dev :=
  let r := SEC_DBG_TOKEN d 255
  if !env.has d then missWrite env who r v
  else if debugOff v who then v
  else if who != .debug then raiseSecure env who d r v
  else
    let level := Config.debugToken (tokenBytes v d x) v.crock.enrol (v.rdN (SEC_NONCE d)) % 3
    let n := (v.wr r x).takeFree
    let v := n.2.wrN (SEC_NONCE d) n.1
    if level = 0 then raiseSE env d 4 who (regAddr v r) (v.setB (SEC_STATUS d) 4 true)
    else
      let v := env.dieList.foldl (fun v e => v.setF (SEC_DEBUG e) 0 2 (max level (v.fd (SEC_DEBUG e) 0 2))) v
      { v with fw := { v.fw with debugged := true } }

/-! ## The crock (R423, R425, R426) -/

/-- CROCK_DET_CHANGE: with `high` the module that READ_CROCK found, authentic or not, is gone and the controller stops; one put back is ignored
until the next package reset. -/
def crockDet (high : Bool) (env : Env) (v : Dev) : Dev :=
  let m := env.master
  let u : Dev := { v with pins := { v.pins with crockDet := !high } }
  if high && v.pins.crockDet && crockSeen env v && v.bu.perst && !v.fb (CR_STATUS m) 8 then dropDeferred env (logCrock env 3 (u.setB (CR_STATUS m) 8 true)) else u

/-- A RESTORE from the crock whose access fails: FAULTED, once the checks before the access have passed (R350, R423). -/
def restoreFails : Handler := fun env _ bs v =>
  if 8 ≤ leAt bs 9 1 then fail stBadParam 9 v
  else if !v.fb (CR_CKPT env.master) (leAt bs 9 1) then fail stNoResource 8 v
  else fail stFaulted 0 (bumpGen (coachOf bs) v)

/-- A SNAPSHOT to the crock whose access fails: the slot's previous stream is invalid, and none takes its place (R423, R424). -/
def snapshotFails : Handler := fun env _ bs v =>
  if 8 ≤ leAt bs 9 1 then fail stBadParam 9 v
  else if !crockWritable env v then fail stNoResource 8 v
  else fail stFaulted 0 (dropCkpt env (leAt bs 9 1) v)

/-- Sectors that failed since: each has its spare; which they are is a free value. -/
def newSpares (old new : Nat) (v : Dev) : Dev :=
  (List.range (new - old)).foldl (fun v i => let x := v.takeFree; useSpare (x.1 % 0x2000) (old + i) x.2) v

/-- CROCK_LIFE_THRESHOLD: the spare sectors in use and the highest erase count, the wear record's or the row's, take LIFE to `reached` percent
or past it; life only grows. What a threshold brings comes once. -/
def crockLife (reached spares erase : Nat) (env : Env) (v : Dev) : Dev :=
  let m := env.master
  let erase := max erase (v.rdN (CR_MAX_ERASE m))
  let life := lifeOf spares erase
  if !crockUsable env v || life < v.fd (CR_LIFE m) 0 8 || spares < v.fd (CR_LIFE m) 8 10 || life < reached then v
  else
    let v := newSpares (v.fd (CR_LIFE m) 8 10) spares v
    let v := ((v.setF (CR_LIFE m) 0 8 life).setF (CR_LIFE m) 8 10 spares).wrN (CR_MAX_ERASE m) erase
    let v := if !v.fb (CR_STATUS m) 6 && decide (80 ≤ life) then logCrock env 0 (v.setB (CR_STATUS m) 6 true) else v
    let v := if !v.fb (CR_STATUS m) 7 && decide (95 ≤ life) then logCrock env 1 (v.setB (CR_STATUS m) 7 true) else v
    if !v.fb (CR_STATUS m) 3 && decide (100 ≤ life) then dropDeferred env (logCrock env 2 ((v.setB (CR_STATUS m) 3 true).setB (BU_STATUS m) 11 true)) else v

/-! ## FW_STAGE (R428) -/

/-- The certificate's place in the identity area (log entry 34). -/
def certOffset : Nat := 0x12000

/-- A chunk of an image; `LAST` has the slot checked. -/
def stageImage (env : Env) (p off : Nat) (bs : List Byte) (last : Bool) (v : Dev) : Ans × Dev :=
  let k := inactive v
  let v := wearSectors env (sectorsOf (slotOffset k + off) bs.length) (writeSlot env k 1 (v.st (crockRaw (slotOffset k + off)) bs))
  if !last then okay v
  else if imageAccepted env v (slotImage v k) then
    let img := imageOf (slotImage v k)
    okay (logUpdate env 0 k (some img) (setSlotImg k (some img) (setSlotState k 2 v)))
  else secureFail env p env.master 8 0 (logUpdate env 1 k none (setSlotImg k none (setSlotState k 5 v)))

/-- A chunk of the identity certificate; `LAST` has it checked. -/
def stageCert (env : Env) (p off : Nat) (bs : List Byte) (last : Bool) (v : Dev) : Ans × Dev :=
  let m := env.master
  let v := wearSectors env (sectorsOf (certOffset + off) bs.length) (v.st (crockRaw (certOffset + off)) bs)
  if !last then okay v
  else
    let n := off + bs.length
    if Config.certValid (v.ldBytes (crockRaw certOffset) n) (Config.idKey v.crock.enrol) then
      okay ({ v with crock := { v.crock with certLen := n } }.setB (SEC_STATUS m) 1 true)
    else secureFail env p m 8 0 v

/-- How FW_STAGE's writing ends: whole, by a restart of the firmware, or by an access that fails its tag (R407, R423). -/
inductive StageEnd where
  | whole | restart | access
  deriving DecidableEq, Repr

/-- FW_STAGE. Where the firmware restarts or an access fails while it writes the chunk, how much was written is free. -/
def fwStageCmd (how : StageEnd) : Handler := fun env p bs v =>
  let x := leAt bs 8 4
  let off := fldN x 0 24
  let area := fldN x 31 1
  let b := bufAt bs 12
  let last := leAt bs 20 1 == 1
  if off % 64 ≠ 0 then fail stBadParam 8 v
  else if !bufOk v p b false then fail stBadParam 12 v
  else if (if area = 0 then 0x1000000 else 0x2000) < off + b.len then fail stBadParam 8 v
  else if b.len = 0 then fail stOkEmpty 0 v
  else if v.fw.act.isSome || deferred env v then fail stBusy 0 v
  else if !crockWritable env v then fail stNoResource 0 v
  else if how ≠ .whole then
    let n := v.takeFree
    let v := n.2
    let part := (bufBytes v p b).take (n.1 % b.len)
    let base := if area = 0 then slotOffset (inactive v) + off else certOffset + off
    let v := wearSectors env (sectorsOf base part.length) ((if area = 0 then writeSlot env (inactive v) 1 v else v).st (crockRaw base) part)
    fail stFaulted 0 (if how = .restart then fwRestart env.master 0 env v else v)
  else if area = 0 then stageImage env p off (bufBytes v p b) last v
  else stageCert env p off (bufBytes v p b) last v

/-- CROCK_AUTH_FAIL: an access fails its tag: that of a RESTORE, a SNAPSHOT or an FW_STAGE, which ends with FAULTED, or with `none` one that
firmware makes to the crock's metadata, which fails and changes nothing more (R423). -/
def crockAuthFail (cmd : Option (Fin 4 × Cmd)) (env : Env) (v : Dev) : Dev :=
  if !crockUsable env v then v
  else
    let m := env.master
    let v := logCrock env 4 (raiseFw env m 0x44 (mBlock m 7 0) 0 0 (v.inc (CR_AUTH_FAIL m) 1))
    match cmd with
    | none => v
    | some (p, c) =>
      let named := leAt c.bytes 8 1 == 1
      if opOf c.bytes = 0x10 ∧ named = true then runCommand 0x10 p.val c restoreFails env v
      else if opOf c.bytes = 0x0F ∧ named = true ∧ applying v (coachOf c.bytes) = false then runCommand 0x0F p.val c snapshotFails env v
      else if opOf c.bytes = 0x16 then runCommand 0x16 p.val c (fwStageCmd .access) env v
      else v

/-! ## LOG_READ (R409) -/

/-- The record concerns one of the port's coaches, or the device. -/
def logConcerns (v : Dev) (p : Nat) (r : LogRec) : Bool := r.coach == 4 || (v.isOpen r.coach && (v.coach r.coach).port == p)

/-- LOG_READ. -/
def logReadCmd : Handler := fun env p bs v =>
  let n := leAt bs 12 4
  let b := bufAt bs 16
  if !bufOk v p b true then fail stBadParam 16 v
  else if n = 0 then fail stOkEmpty 0 v
  else if b.len < 64 * n then fail stBadParam 12 v
  else
    let l := (v.fw.log.filter (fun r => decide (leAt bs 8 4 ≤ r.seq) && logConcerns v p r)).take n
    let next := match l.getLast? with
      | some r => (r.seq + 1) % 0x100000000
      | none => v.fw.nextSeq
    (.done stOk 0 (leBytes 4 l.length ++ leBytes 4 next), v.stSram env p b.off ((l.map LogRec.bytes).flatten))

/-! ## ATTEST (R419, R420) -/

/-- PART of HP_ID. -/
def partCode : Part → Nat
  | .vn2_8 => 0
  | .vn2_4 => 1
  | .vn2_2 => 2

/-- Bytes 0 to 223 of a report. -/
def reportHead (env : Env) (v : Dev) (nonce : List Byte) (len : Nat) (cert : Bool) : List Byte :=
  let m := env.master
  let img := v.fw.image.getD ⟨0, 0, 0, 0, 0, 0⟩
  leBytes 1 2 ++ leBytes 1 1 ++ leBytes 2 0 ++ leBytes 4 len ++ nonce ++ leBytes 48 img.hash ++ leBytes 2 img.svn ++ leBytes 2 v.crock.arc
    ++ leBytes 1 (partCode env.hw.part) ++ leBytes 1 m
    ++ leBytes 1 (b2n (v.fb (BU_STATUS m) 12) + 2 * b2n cert + 4 * b2n v.fw.debugged + 8 * b2n (v.fb (FW_STATUS m) 11)) ++ leBytes 1 0
    ++ leBytes 8 env.now ++ leBytes 24 0 ++ leBytes 96 (Config.idKey v.crock.enrol)

/-- QUERY with WHAT 4. -/
def attestCmd : Handler := fun env p bs v =>
  let b := bufAt bs 16
  if leAt bs 8 1 ≠ 4 then fail stBadParam 8 v
  else if !bufOk v p b true then fail stBadParam 16 v
  else if b.len < 384 then fail stBadParam 20 v
  else if !v.fb (SEC_STATUS env.master) 0 then fail stNoResource 8 v
  else
    let n := v.crock.certLen
    let cert := decide (n ≠ 0) && decide (384 + n ≤ b.len)
    let k := if cert then n else 0
    let head := reportHead env v ((bufBytes v p b).take 32) (384 + k) cert
    let r := head ++ leBytes 96 (Config.sign (Config.idKey v.crock.enrol) head) ++ leBytes 4 k ++ leBytes 60 0
      ++ v.ldBytes (crockRaw certOffset) k
    (.done stOk 0 [], v.stSram env p b.off r)

/-- ATTEST. -/
def attest (p : Nat) (c : Cmd) (env : Env) (v : Dev) : Dev :=
  if leAt c.bytes 8 1 = 4 then runCommand 0x1A p c attestCmd env v else v

/-! ## Field tests (R376, R404) -/

/-- A failure lies in the resources of a coach. -/
def foundOwned (v : Dev) (g : Nat) (f : Found) : Bool :=
  let d := f.die.val
  let lo2 := fldN f.loc 0 2
  match f.kind.val with
  | 0x01 => v.coreOwner (coreOfFound f) == g
  | 0x02 => v.coreOwner (coreOfFound f) == g
  | 0x04 => v.churnOwner d lo2 == g
  | 0x05 => v.churnOwner d lo2 == g
  | 0x06 => v.churnOwner d lo2 == g
  | 0x07 => portOwner v d (fldN f.loc 0 6) 0 == g || portOwner v d (fldN f.loc 0 6) 1 == g
  | 0x08 => portOwner v d (fldN f.loc 0 6) 0 == g || portOwner v d (fldN f.loc 0 6) 1 == g
  | 0x09 => v.sepOwner d (fldN f.loc 0 4) == g
  | 0x0A => v.fd (SN_OWN_VWJ d) (12 + 3 * lo2) 3 == g
  | _ => false

/-- The failures of a field test: those of the kinds that its step finds, in its scope. -/
def fieldFound (env : Env) (v : Dev) (step scope g : Nat) (l : List Found) : List Found :=
  l.filter (fun f => env.has f.die.val && (stepKinds step).contains f.kind.val && (scope == 1 || foundOwned v g f))

/-- The vat ranges of a coach hold 0. -/
def zeroRanges (env : Env) (g : Nat) (v : Dev) : Dev :=
  env.dieList.foldl (fun v d => (List.range 64).foldl (fun v r =>
    let x := v.rgn d r
    if x.valid && x.space == 0 && x.owner == g then v.clearMem (vatMem d x.base) (x.limit + 1 - x.base) else v) v) v

/-- The memories of a core hold 0: local memory, program store, accumulators and input buffer (R360 step 4, R376). -/
def zeroCore (v : Dev) (q : Nat) : Dev := zeroStores ((v.clearMem (coreMem q 0) 0x40000).clearMem (progMem q 0) 0x4000) q

/-- A destructive test leaves what it has tested at 0: the first `n` cores and, if the test ends, the churns, separators and vat ranges of
the coach, or for the device every vat and the port SRAM that no host has open. The PSRAM, from which the firmware that tests runs, and the
SRAM of an open port, where the command's rings lie, keep their contents (DESIGN CHOICE, log entry 187). -/
def zeroScope (env : Env) (scope g : Nat) (cut : Option Nat) (v : Dev) : Dev :=
  let cores := if scope = 1 then List.range (env.dies * 2112) else (v.coachCores g).map (·.2)
  let v := (cores.take (cut.getD cores.length)).foldl zeroCore v
  match cut with
  | some _ => v
  | none =>
    let mine (o : Nat) : Bool := scope == 1 || o == g
    let v := env.dieList.foldl (fun v d =>
      ((List.range 16).filter (fun k => mine (v.sepOwner d k))).foldl (zeroSep d)
        (((List.range 4).filter (fun c => mine (v.churnOwner d c))).foldl (zeroChurn d) v)) v
    if scope = 1 then
      ((List.range 4).filter (fun p => !v.portOpen p)).foldl (fun v p => v.clearMem (sramMem p 0) 0x2000000)
        (env.dieList.foldl (fun v d => v.clearMem (vatMem d 0) 0x10000000) v)
    else zeroRanges env g v

/-- The maximum of a field test in ns: that of its step, for MARCH_RUN in the mode of the command (R360, R376). -/
def fieldMax (step mode : Nat) : Nat := if step = 4 then (if mode = 1 then 260000000 else 600000000) else 720000000

/-- MARCH_RUN (`step` 4) and BIST_RUN (`step` 10). With `cut` ostler 3 crashes once that many core memories have been tested. What is
tested, how far and how long is free, and so is the number of failing words of a march that finds a failure; a BIST covers at least the least
share of R365. -/
def fieldTestCmd (step : Nat) (found : List Found) (cut : Option Nat) : Handler := fun env _ bs v =>
  let scope := leAt bs 8 1
  let mode := leAt bs 9 1
  let g := coachOf bs
  if 2 ≤ scope then fail stBadParam 8 v
  else if step = 4 ∧ 2 ≤ mode then fail stBadParam 9 v
  else if scope = 1 ∧ (List.range 4).any (fun h => v.isOpen h) = true then fail stBusy 0 v
  else
    let v := if step = 4 ∧ mode = 1 then zeroScope env scope g cut v else v
    if cut.isSome then fail stFaulted 0 (ostlerCrash env.master (v.worker env.master 3) 0 env v)
    else
      let l := fieldFound env v step scope g found
      let v := l.foldl (applyDefect env (if step = 4 then 0x20 else 0x21)) v
      let a := v.takeFree
      let b := a.2.takeFree
      let c := b.2.takeFree
      let n := c.2.takeFree
      let failed := if step = 4 then (if l = [] then 0 else 1 + n.1 % 0xFFFFFFFF) else l.length
      let covered := if step = 4 then b.1 % 10001 else coverage 9200 b.1
      (.done stOk 0 (leBytes 4 a.1 ++ leBytes 4 failed ++ leBytes 2 covered ++ leBytes 2 0
        ++ leBytes 4 (c.1 % (fieldMax step mode / 1000 + 1))), n.2)

/-- A field test is ostler 3's work on the master die: it waits while that stands still (R400, R407). -/
def fieldTest (op step p : Nat) (c : Cmd) (found : List Found) (cut : Option Nat) (env : Env) (v : Dev) : Dev :=
  if v.ostlerUp env.master 3 then runCommand op p c (fieldTestCmd step found cut) env v else v

/-! ## The rows -/

def execFaultRaise (errs : List Detected) (s : State) : Host.Outcome State Fault Refusal := .next (s.onDev (faultRaise errs))
def execFcInjGo (d : Fin 8) (s : State) : Host.Outcome State Fault Refusal := .next (s.onDev (injGo' d.val))
def execMarchRun (p : Fin 4) (c : Cmd) (found : List Found) (cut : Option Nat) (s : State) : Host.Outcome State Fault Refusal :=
  .next (s.onDev (fieldTest 0x13 4 p.val c found cut))
def execBistRun (p : Fin 4) (c : Cmd) (found : List Found) (cut : Option Nat) (s : State) : Host.Outcome State Fault Refusal :=
  .next (s.onDev (fieldTest 0x14 10 p.val c found cut))
def execLogRead (p : Fin 4) (c : Cmd) (s : State) : Host.Outcome State Fault Refusal := .next (s.onDev (runCommand 0x15 p.val c logReadCmd))
def execFwStage (p : Fin 4) (c : Cmd) (restart : Bool) (s : State) : Host.Outcome State Fault Refusal :=
  .next (s.onDev (runCommand 0x16 p.val c (fwStageCmd (if restart then .restart else .whole))))
def execFwActivate (p : Fin 4) (c : Cmd) (s : State) : Host.Outcome State Fault Refusal := .next (s.onDev (runCommand 0x17 p.val c fwActivateCmd))
def execActivationConfirm (s : State) : Host.Outcome State Fault Refusal := .next (s.onDev activationConfirm)
def execActivationTimeout (s : State) : Host.Outcome State Fault Refusal := .next (s.onDev activationTimeout)
def execDeferredActivationStart (s : State) : Host.Outcome State Fault Refusal := .next (s.onDev deferredStart)
def execAttest (p : Fin 4) (c : Cmd) (s : State) : Host.Outcome State Fault Refusal := .next (s.onDev (attest p.val c))
def execWatchdogExpiry (d : Fin 8) (proc : Fin 5) (s : State) : Host.Outcome State Fault Refusal := .next (s.onDev (watchdogExpiry d.val proc.val))
def execOstlerCrash (d : Fin 8) (k : Fin 4) (s : State) : Host.Outcome State Fault Refusal := .next (s.onDev (ostlerCrash d.val k.val 0))
def execOstlerRestartDone (d : Fin 8) (k : Fin 4) (s : State) : Host.Outcome State Fault Refusal := .next (s.onClk d.val 3 (ostlerDone d.val k.val))
def execComponentTrap (d : Fin 8) (log : Bool) (s : State) : Host.Outcome State Fault Refusal := .next (s.onDev (componentTrap d.val log 0))
def execComponentRestartDone (d : Fin 8) (log : Bool) (s : State) : Host.Outcome State Fault Refusal := .next (s.onClk d.val 3 (componentDone d.val log))
def execFwRestart (d : Fin 8) (s : State) : Host.Outcome State Fault Refusal := .next (s.onDev (fwRestart d.val 0))
def execFwRestartDone (d : Fin 8) (ok : Bool) (s : State) : Host.Outcome State Fault Refusal := .next (s.onClk d.val 3 (fwRestartDone d.val ok))
def execPsramCrcError (d : Fin 8) (comp : Fin 8) (off : Nat) (s : State) : Host.Outcome State Fault Refusal :=
  .next (s.onDev (psramCrcError d.val comp.val off))
def execTraceForward (d : Fin 8) (s : State) : Host.Outcome State Fault Refusal := .next (s.onClk d.val 3 (traceForward d.val))
def execFwWdtCfgWrite (who : Party) (d : Fin 8) (x : Word) (s : State) : Host.Outcome State Fault Refusal :=
  .next (s.onWrite who d.val (fun env => secureWrite env who d.val (FW_WDT_CFG d.val) (wdtWrite d.val x)))
def execSecDbgToken (who : Party) (d : Fin 8) (x : Word) (s : State) : Host.Outcome State Fault Refusal :=
  .next (s.onWrite who d.val (debugToken who d.val x))
def execCrockDetChange (high : Bool) (s : State) : Host.Outcome State Fault Refusal := .next (s.onDev (crockDet high))
def execCrockAuthFail (cmd : Option (Fin 4 × Cmd)) (s : State) : Host.Outcome State Fault Refusal := .next (s.onDev (crockAuthFail cmd))
def execCrockLifeThreshold (life : Fin 101) (spares : Fin 769) (erase : Word) (s : State) : Host.Outcome State Fault Refusal :=
  .next (s.onDev (crockLife life.val spares.val erase.toNat))

end Sys2Proof.Machine
end

