-- ==== Sys2Proof/Machine/Power.lean ====
section
/-! DEFINITION. Operating points, emergencies, HOLD as a command, clock sources and IDLE (R435 to R449, R459, R461, R462, R470). -/
namespace Sys2Proof.Machine

open Sys2Proof

/-! ## The entry in force (R439 to R443) -/

/-- Every die runs at an entry: domains that their PLL clocks take its frequencies. -/
def setEntry (env : Env) (e : Nat) (v : Dev) : Dev :=
  env.dieList.foldl (fun v d =>
    let v := v.setF (PM_STATUS d) 8 3 e
    (List.range 3).foldl (fun v p => if v.fb (CK_STATUS d) (8 + p) then setFreq env d p (domainMHz e p) v else v) v) v

/-- A step is scheduled: the frequencies that it brings are the targets of every domain that its PLL clocks (R441). -/
def stepAt (env : Env) (lower : Bool) (v : Dev) : Dev :=
  let e := if lower then oppNow env v - 1 else min 7 (oppNow env v + 1)
  let v := env.dieList.foldl (fun v d =>
    (List.range 3).foldl (fun v p => if v.fb (CK_STATUS d) (8 + p) then setTarget d p (domainMHz e p) v else v) v) v
  { v with pw := { v.pw with step := some (env.now, lower) } }

/-- The next step towards the ceiling is scheduled: towards a lower index only outside an emergency and its recovery. -/
def scheduleStep (env : Env) (v : Dev) : Dev :=
  if v.pw.step != none then v
  else if oppNow env v < ceiling env v then stepAt env false v
  else if ceiling env v < oppNow env v ∧ emergency env v = false ∧ v.pw.recovering = false then stepAt env true v
  else v

/-- SET_OPP completes once the entry in force has reached the ceiling, or an emergency holds it higher (R443, R446). -/
def setOppDone (env : Env) (v : Dev) : Dev :=
  if oppNow env v = ceiling env v ∨ (emergency env v = true ∧ ceiling env v ≤ oppNow env v) then
    finish env env.bringUpPort 0x18 4 stOk 0 (fun _ => []) v
  else v

/-- The voltage guard in force: the highest of the dies', in mV (R440). -/
def guardMv (env : Env) (v : Dev) : Nat := env.dieList.foldl (fun x d => max x (v.rdN (PM_VGUARD d))) 0

/-- The package asks the VCORE regulator for the voltage of an entry (R440, R470). -/
def askVcore (env : Env) (e : Nat) (v : Dev) : Dev := { v with pw := { v.pw with vcore := some (oppCol e 0 + guardMv env v) } }

/-- OPP_STEP: at its scheduled value every die applies the step, with one voltage request. -/
def oppStep (env : Env) (v : Dev) : Dev :=
  match v.pw.step with
  | none => v
  | some (t, lower) =>
    if env.now < t then v
    else
      let v := { v with pw := { v.pw with step := none } }
      let e := oppNow env v
      if (lower && e == 0) || (!lower && e == 7) then v
      else
        let v := askVcore env (if lower then e - 1 else e + 1) (setEntry env (if lower then e - 1 else e + 1) v)
        let v := env.dieList.foldl (fun v d => v.inc (PM_OPP_CHANGES d) 1) v
        let v := logPower env 3 v
        let v := if oppNow env v ≤ ceiling env v then { v with pw := { v.pw with recovering := false } } else v
        setOppDone env (scheduleStep env v)

/-- The allocation of R18. -/
def partAllocation : Part → Nat
  | .vn2_8 => 1000
  | .vn2_4 => 510
  | .vn2_2 => 266

/-- The limit is within the bounds of R443 for a ceiling entry. -/
def limitOk (part : Part) (e w : Nat) : Bool :=
  let low := decide (w < partAllocation part)
  !(low && part == .vn2_2 && decide (w < oppCol e 6)) && !(low && part != .vn2_2) && decide (45 ≤ w) && decide (w ≤ partTdp part)

/-- The ceiling, as every die's PM_STATUS shows it (R462). -/
def setCeiling (env : Env) (e : Nat) (v : Dev) : Dev := env.dieList.foldl (fun v d => v.setF (PM_STATUS d) 12 3 e) v

/-- SET_OPP: with the entry in force at the new ceiling the way back from an emergency has ended (R445). -/
def setOppCmd : Handler := fun env _ bs v =>
  let e := leAt bs 8 1
  let w := leAt bs 10 2
  let m := env.master
  if 8 ≤ e then fail stBadParam 8 v
  else if w = 0 then fail stBadParam 10 v
  else if env.dieList.any (fun d => overChurns v e d || overCores v e d) then fail stNoResource 8 v
  else if !limitOk env.hw.part e w then fail stBadParam 10 v
  else
    let v := logPower env 6 ((setCeiling env e v).wrN (PM_LIMIT m) w)
    let v := if oppNow env v ≤ e then { v with pw := { v.pw with recovering := false } } else v
    let v := scheduleStep env v
    if oppNow env v = e ∨ (emergency env v = true ∧ e ≤ oppNow env v) then okay v else (.later 0, v)

/-! ## Emergencies (R444 to R446, R481) -/

/-- A measurement reaches PM_POWER and PM_TEMP. -/
def storeMeasure (env : Env) (x : Measure) (v : Dev) : Dev :=
  let v := (env.dieList.zip x.dies).foldl (fun v e =>
    (v.setF (PM_POWER e.1) 0 16 e.2.power.toNat).wrN (PM_TEMP e.1) (e.2.temp.toNat + 0x10000 * e.2.sensor.val)) v
  v.setF (PM_POWER env.master) 16 16 x.package.toNat

/-- The conditions of R444. -/
def limitW (env : Env) (v : Dev) : Nat := v.fd (PM_LIMIT env.master) 0 11
def hotC (env : Env) (v : Dev) : Nat := v.fd (PM_THERM env.master) 0 8
def hystC (env : Env) (v : Dev) : Nat := v.fd (PM_THERM env.master) 8 8
def overPower (env : Env) (v : Dev) (x : Measure) : Bool := decide (limitW env v < x.package.toNat)
def overHeat (env : Env) (v : Dev) (x : Measure) : Bool := (x.dies.take env.dies).any (fun e => decide (10 * hotC env v ≤ e.temp.toNat))
def calm (env : Env) (v : Dev) (x : Measure) : Bool :=
  decide (100 * x.package.toNat ≤ 95 * limitW env v)
    && (x.dies.take env.dies).all (fun e => decide (e.temp.toNat + 10 * hystC env v ≤ 10 * hotC env v))

/-- EMERG_PWR (bit 3) or EMERG_THERM (bit 4), as every die's PM_STATUS shows it (R462). -/
def setEmerg (env : Env) (i : Nat) (b : Bool) (v : Dev) : Dev := env.dieList.foldl (fun v d => v.setB (PM_STATUS d) i b) v

/-- EMERGENCY_BEGIN: a measurement above the limit, or at HOT, begins an emergency or joins the one in force. -/
def emergencyBegin (x : Measure) (env : Env) (v : Dev) : Dev :=
  let m := env.master
  let v := storeMeasure env x v
  let fresh := !emergency env v
  let p := overPower env v x && !v.fb (PM_STATUS m) 3
  let t := overHeat env v x && !v.fb (PM_STATUS m) 4
  let v := if !fresh && !calm env v x then { v with pw := { v.pw with overAt := env.now } } else v
  if !p && !t then v
  else
    let v := if p then setEmerg env 3 true v else v
    let v := if t then setEmerg env 4 true v else v
    let v : Dev := { v with pw := { v.pw with overAt := env.now } }
    let v := if fresh then
        { env.dieList.foldl (fun v d => v.inc (PM_EMERG_CNT d) 1) v with
          pins := { v.pins with smbAlert := true }, pw := { v.pw with lastStep := env.now, recovering := false } }
      else v
    let v := if p then logPower env 0 v else v
    let v := if t then logPower env 1 v else v
    setOppDone env v

/-- EMERGENCY_STEP: every 100 µs one index higher, up to PM_EMERG_FLOOR; a step that is under way completes first. -/
def emergencyStep (env : Env) (v : Dev) : Dev :=
  if emergency env v && v.pw.step == none && decide (v.pw.lastStep + 100000 ≤ env.now)
      && decide (oppNow env v < v.fd (PM_EMERG_FLOOR env.master) 0 3) then
    stepAt env false { v with pw := { v.pw with lastStep := env.now } }
  else v

/-- EMERGENCY_END: power and temperature have stayed below the thresholds for 100 ms; the first step back follows at once. -/
def emergencyEnd (x : Measure) (env : Env) (v : Dev) : Dev :=
  let v := storeMeasure env x v
  if !emergency env v then v
  else if !calm env v x then { v with pw := { v.pw with overAt := env.now } }
  else if env.now < v.pw.overAt + 100000000 then v
  else
    let v := logPower env 2 (setEmerg env 4 false (setEmerg env 3 false v))
    let v := { v with fw := { v.fw with quiet := env.now },
                      pw := { v.pw with recovering := decide (ceiling env v < oppNow env v), lastStep := env.now - 100000000 } }
    scheduleStep env v

/-- RECOVERY_STEP: every 100 ms one index lower, down to the ceiling. -/
def recoveryStep (env : Env) (v : Dev) : Dev :=
  if v.pw.recovering && !emergency env v && v.pw.step == none && decide (v.pw.lastStep + 100000000 ≤ env.now)
      && decide (ceiling env v < oppNow env v) then
    stepAt env true { v with pw := { v.pw with lastStep := env.now } }
  else v

/-- AVS_FAULT: a US record of source PLL_UNLOCK with INFO 0xF for each open coach (R470). -/
def avsFault (env : Env) (v : Dev) : Dev :=
  raiseEach env ((List.range 4).filter (fun g => v.isOpen g))
    { die := env.master, cls := clsUS, owner := 4, source := 0x0B, master := mBlock env.master 12 0, access := accEvent, addr := 0, info := 0xF } v

/-- PM_THERM: a value out of range keeps the old one with CFG_ERR. -/
def thermWrite (env : Env) (x : Word) (v : Dev) : Dev :=
  let hot := fld x 0 8
  let hyst := fld x 8 8
  if 85 ≤ hot ∧ hot ≤ 105 ∧ 1 ≤ hyst ∧ hyst ≤ 20 then v.wr (PM_THERM env.master) (x &&& 0xFFFF) else v.setB (PM_STATUS env.master) 6 true

/-- PM_EMERG_FLOOR: an entry below the ceiling is refused. -/
def floorWrite (env : Env) (x : Word) (v : Dev) : Dev :=
  if fld x 0 3 < ceiling env v then v.setB (PM_STATUS env.master) 6 true else v.wrN (PM_EMERG_FLOOR env.master) (fld x 0 3)

/-- Firmware and the debug port write CK, PM and XR registers; a host's write is dropped with an SE record (R461, R462, R478). -/
def unitWrite (env : Env) (who : Party) (d : Nat) (r : Reg) (f : Dev → Dev) (v : Dev) : Dev := fcWrite env who d r f v

/-! ## IDLE (R438, R448) -/

/-- A die with nothing to do: no frame of a coach with a table there, no fire, no apply, no arrival, no pass, no separator word or event. -/
def dieQuiet (env : Env) (v : Dev) (d : Nat) : Bool :=
  (List.range 4).all (fun g => v.frame g == none || v.table d g == none)
    && v.cores.all (fun e => pDie e.1 != d || (e.2.fire == none && e.2.apply == none && e.2.arrivals.isEmpty && e.2.msgs.isEmpty && e.2.replies.isEmpty))
    && v.churns.all (fun e => e.1 / 4 != d || (e.2.running.isEmpty && e.2.eout.isEmpty && decide (e.2.passEnd ≤ v.chkAt d (env.nowOf d))))
    && v.seps.all (fun e => e.1 / 16 != d || (e.2.inq.isEmpty && e.2.eout.isEmpty)) && v.fab.flights.all (fun f => f.die != d)

def dieIdle (d : Nat) (env : Env) (v : Dev) : Dev := if env.has d && dieQuiet env v d then v.setB (PM_STATUS d) 0 true else v

/-! ## ENTER_HOLD (R449, R450) -/

/-- Retained banks of die `d` in a selection, and its core ranges. -/
def holdBanks (v : Dev) (p : Nat) (b : Buf) (d : Nat) : List Nat := (bitsOf (bufN v p b (64 + 8 * d) 8) 64).map (fun k => d * 64 + k)
def holdRanges (v : Dev) (p : Nat) (b : Buf) : List (Nat × Nat) :=
  (List.range (bufN v p b 2 2)).map (fun j => (fldN (bufN v p b (128 + 8 * j) 8) 0 18, fldN (bufN v p b (128 + 8 * j) 8) 18 18))

/-- What is wrong with a retention selection: status and DETAIL. -/
def holdError (env : Env) (v : Dev) (p : Nat) (b : Buf) : Option (Nat × Nat) :=
  if b.len < 128 then some (stBadParam, 12)
  else if bufN v p b 0 1 ≠ 2 then some (stBadParam, inBuf 0)
  else if bufN v p b 1 1 ≠ 0 then some (stBadParam, inBuf 1)
  else if 256 < bufN v p b 2 2 then some (stBadParam, inBuf 2)
  else match (List.range 60).find? (fun i => bufN v p b (4 + i) 1 != 0) with
    | some i => some (stBadParam, inBuf (4 + i))
    | none =>
      if b.len ≠ 128 + 8 * bufN v p b 2 2 then some (stBadParam, inBuf 2)
      else match (List.range 8).find? (fun d => decide (env.dies ≤ d) && bufN v p b (64 + 8 * d) 8 != 0) with
        | some d => some (stBadParam, inBuf (64 + 8 * d))
        | none => match (List.range (bufN v p b 2 2)).find? (fun j =>
            let x := bufN v p b (128 + 8 * j) 8
            decide (2 ^ 36 ≤ x) || decide (fldN x 18 18 < fldN x 0 18) || decide (env.cores ≤ fldN x 18 18)) with
          | some j => some (stBadParam, inBuf (128 + 8 * j))
          | none => none

/-- ENTER_HOLD: its completion is written with OK, and the entry follows 10 µs later. The POWER record of the entry is made here, while a port
can still take it (DEDUCED, log entry 77). A WAKE_N of an entry under way stays due (R453). -/
def enterHoldCmd : Handler := fun env p bs v =>
  let b := bufAt bs 8
  if !(List.range 4).all (fun g => (coachState v g == .stopped) || (coachState v g == .none)) then fail stBusy 0 v
  else if !bufOk v p b false then fail stBadParam 8 v
  else if b.len = 0 then fail stBadParam 12 v
  else match holdError env v p b with
    | some e => fail e.1 e.2 v
    | none =>
      let ranges := holdRanges v p b
      let cores := (v.place.place.filter (fun e => e.2 != 0 && ranges.any (fun r => decide (r.1 ≤ e.1) && decide (e.1 ≤ r.2)))).map
        (fun e => (e.1, e.2 - 1))
      let v := if v.pw.phase = .run then logPower env 4 v else v
      okay { v with pw := { v.pw with
        phase := .entering, since := if v.pw.phase = .run then env.now else v.pw.since, wakeDue := v.pw.phase != .run && v.pw.wakeDue,
        banks := env.dieList.flatMap (holdBanks v p b), cores := cores } }

/-! ## Clock sources (R435, R436) -/

/-- Bit `p` of CK_STATUS.SW_PENDING. -/
def switching (v : Dev) (d p : Nat) : Bool := v.fb (CK_STATUS d) (16 + p)

/-- The multiplexer of a domain passes the source that SEL names. -/
def passClock (env : Env) (d p : Nat) (v : Dev) : Dev :=
  let pll := v.fb (CK_SEL d) p
  let v := (v.setB (CK_STATUS d) (16 + p) false).setB (CK_STATUS d) (8 + p) pll
  let v := setFreq env d p (if pll then domainMHz (oppNow env v) p else 100) v
  { v with pw := { v.pw with switches := SMap.erase v.pw.switches (d * 8 + p) } }

/-- SEL of a domain is written: a change starts a switch. -/
def selWrite (env : Env) (d : Nat) (x : Word) (v : Dev) (p : Nat) : Dev :=
  if bit x p = v.fb (CK_SEL d) p then v
  else
    let v := (v.setB (CK_SEL d) p (bit x p)).setB (CK_STATUS d) (16 + p) true
    { v with pw := { v.pw with switches := SMap.set 0 v.pw.switches (d * 8 + p) env.now } }

/-- FORCE of a domain is written 1. -/
def forceWrite (env : Env) (d : Nat) (x : Word) (v : Dev) (p : Nat) : Dev :=
  if !bit x (8 + p) then v
  else if v.fb (CK_SEL d) (16 + p) then passClock env d p v
  else v.setB (CK_HANG d) 6 true

/-- What a domain that is held in reset loses: what a die warm reset would lose of it (R436, R432). -/
def domainReset (d p : Nat) (v : Dev) : Dev :=
  match p with
  | 0 => resetCompute d v
  | 1 => resetNeuro d v
  | 3 => holdFirmware d 3 v
  | 4 => resetTimers d v
  | _ => v

/-- DOMRST of a domain is written: its blocks are held in reset, and leave it in the reset state; firmware runs again by way of its boot
ROM. -/
def domrstWrite (d : Nat) (x : Word) (v : Dev) (p : Nat) : Dev :=
  let new := bit x (16 + p)
  if new = v.fb (CK_SEL d) (16 + p) then v
  else
    domainReset d p (v.setB (CK_SEL d) (16 + p) new)

/-- A write to CK_SEL: SEL, then FORCE under DOMRST as it stood, then DOMRST. -/
def ckSelWrite (env : Env) (d : Nat) (x : Word) (v : Dev) : Dev :=
  let l := List.range 6
  l.foldl (domrstWrite d x) (l.foldl (forceWrite env d x) (l.foldl (selWrite env d x) v))

def ckSel (who : Party) (d : Nat) (x : Word) (env : Env) (v : Dev) : Dev := unitWrite env who d (CK_SEL d) (ckSelWrite env d x) v

/-- CK_SWITCH_DONE: both clocks run, so the multiplexer finds its low phases. -/
def switchDone (d p : Nat) (env : Env) (v : Dev) : Dev :=
  if env.has d && switching v d p && sourceRuns v d p (v.fb (CK_STATUS d) (8 + p)) && sourceRuns v d p (v.fb (CK_SEL d) p) then passClock env d p v
  else v

/-- CK_HANG: the switch has been pending for 2 µs. -/
def ckHang (d p : Nat) (env : Env) (v : Dev) : Dev :=
  if env.has d && switching v d p && decide (SMap.get 0 v.pw.switches (d * 8 + p) + 2000 ≤ env.nowOf env.master) then v.setB (CK_HANG d) p true else v

/-- CK_PLL_EN: a PLL that is enabled locks, one that is not has no lock. -/
def pllEnWrite (d : Nat) (x : Word) (v : Dev) : Dev := (v.wrN (CK_PLL_EN d) (fld x 0 6)).setF (CK_STATUS d) 0 6 (fld x 0 6)

/-! ## The rows -/

def execSetOpp (p : Fin 4) (c : Cmd) (s : State) : Host.Outcome State Fault Refusal := .next (s.onDev (runCommand 0x18 p.val c setOppCmd))
def execEnterHold (p : Fin 4) (c : Cmd) (s : State) : Host.Outcome State Fault Refusal := .next (s.onDev (runCommand 0x19 p.val c enterHoldCmd))
def execEmergencyBegin (x : Measure) (s : State) : Host.Outcome State Fault Refusal := .next (s.onDev (emergencyBegin x))
def execEmergencyStep (s : State) : Host.Outcome State Fault Refusal := .next (s.onDev emergencyStep)
def execEmergencyEnd (x : Measure) (s : State) : Host.Outcome State Fault Refusal := .next (s.onDev (emergencyEnd x))
def execRecoveryStep (s : State) : Host.Outcome State Fault Refusal := .next (s.onDev recoveryStep)
def execOppStep (s : State) : Host.Outcome State Fault Refusal := .next (s.onDev oppStep)
def execDieIdleEntry (d : Fin 8) (s : State) : Host.Outcome State Fault Refusal := .next (s.onDev (dieIdle d.val))
def execCkSelSwitch (who : Party) (d : Fin 8) (x : Word) (s : State) : Host.Outcome State Fault Refusal := .next (s.onWrite who d.val (ckSel who d.val x))
def execCkSwitchDone (d : Fin 8) (p : Fin 6) (s : State) : Host.Outcome State Fault Refusal := .next (s.onDev (switchDone d.val p.val))
def execCkHang (d : Fin 8) (p : Fin 6) (s : State) : Host.Outcome State Fault Refusal := .next (s.onDev (ckHang d.val p.val))
def execCkSelForce (who : Party) (d : Fin 8) (x : Word) (s : State) : Host.Outcome State Fault Refusal := .next (s.onWrite who d.val (ckSel who d.val x))
def execCkSelDomrst (who : Party) (d : Fin 8) (x : Word) (s : State) : Host.Outcome State Fault Refusal := .next (s.onWrite who d.val (ckSel who d.val x))
/-- PM_THERM, or with `floor` PM_EMERG_FLOOR. -/
def execPmThermWrite (who : Party) (floor : Bool) (x : Word) (s : State) : Host.Outcome State Fault Refusal :=
  .next (s.onWrite who s.env.master (fun env => unitWrite env who env.master (if floor then PM_EMERG_FLOOR env.master else PM_THERM env.master)
    (if floor then floorWrite env x else thermWrite env x)))
def execAvsFault (s : State) : Host.Outcome State Fault Refusal := .next (s.onDev avsFault)

end Sys2Proof.Machine
end

