-- ==== Sys2Proof/Machine/Package.lean ====
section
/-! DEFINITION. The PSRAM channel, the SMBus target, the test access port (R476 to R483) and QUERY (R346). -/
namespace Sys2Proof.Machine

open Sys2Proof

/-! ## XR registers (R476, R478) -/

def xrCounters (d : Nat) : List Reg := [XR_RD_LO d, XR_RD_HI d, XR_WR_LO d, XR_WR_HI d, XR_RMW d, XR_CRC_ERR d]

/-- XR_CTRL: EN and CLR_CNT at any time; FIXED_LAT, LAT and DRIVE only while EN is 0, and LAT only from 3 to 7. -/
def xrCtrlWrite (env : Env) (who : Party) (d : Nat) (x : Word) (v : Dev) : Dev :=
  let r := XR_CTRL d
  let v := if bit x 8 then v.clearRegs (xrCounters d) else v
  let v :=
    if v.fb r 0 then
      if v.fd r 1 7 = fld x 1 7 then v else raiseAccess env d 4 who (regAddr v r) v
    else
      let v := (v.setB r 1 (bit x 1)).setF r 6 2 (fld x 6 2)
      if 3 ≤ fld x 2 4 ∧ fld x 2 4 ≤ 7 then v.setF r 2 4 (fld x 2 4) else v.setB (XR_STATUS d) 2 true
  v.setB r 0 (bit x 0)

/-- XR_TCSM: 1,000 to 4,000, only while EN is 0. -/
def xrTcsmWrite (env : Env) (who : Party) (d : Nat) (x : Word) (v : Dev) : Dev :=
  if v.fb (XR_CTRL d) 0 then raiseAccess env d 4 who (regAddr v (XR_TCSM d)) v
  else if 1000 ≤ fld x 0 12 ∧ fld x 0 12 ≤ 4000 then v.wrN (XR_TCSM d) (fld x 0 12)
  else v.setB (XR_STATUS d) 2 true

/-- XR_CAL.RECAL: allowed only while EN is 0; `ok` says that the calibration finds a window. -/
def xrRecal (env : Env) (who : Party) (d : Nat) (ok : Bool) (v : Dev) : Dev :=
  if v.fb (XR_CTRL d) 0 then raiseAccess env d 4 who (regAddr v (XR_CAL d)) v else calibrate d ok v

/-! ## SMBus (R480, R481) -/

/-- HP_ID of a port (R15). -/
def hpId (env : Env) (p : Nat) : Nat := p + 0x10 * partCode env.hw.part + 0x100 * env.master + 0x10000 * (Config.siRev % 256) + 0x2000000

/-- FW_STATUS as it reads: a processor that a debugger halts shows HALTED. -/
def fwStatusValue (v : Dev) (d : Nat) : Word :=
  let w := v.rd (FW_STATUS d)
  let mark (w : Word) (i : Nat) : Word :=
    if v.tick.halted.contains (d * 8 + 1 + i) && fld w (2 * i) 2 == 0 then setFld w (2 * i) 2 2 else w
  (List.range 5).foldl mark w

/-- The target answers from 10 ms after PERST_N has risen, and not in HOLD. -/
def smbUp (env : Env) (v : Dev) : Bool := v.bu.perst && v.pw.phase != .hold && decide (v.bu.perstAt + 10000000 ≤ env.now)

/-- The die is powered: POWER_DIES has brought it up. -/
def diePowered (env : Env) (v : Dev) (d : Nat) : Bool := env.has d && dieState env v d != 0 && dieState env v d != 4

/-- A die's temperature word, and the package's. -/
def smbTemp (env : Env) (v : Dev) (d : Nat) : Nat := if diePowered env v d then v.fd (PM_TEMP d) 0 12 else 0xFFFF
def smbMax (env : Env) (v : Dev) : Nat :=
  if env.dieList.any (diePowered env v) then v.fd (PM_TEMP (hottest env v)) 0 12 else 0xFFFF

/-- SAFE_N is asserted (R284): by a reset that holds, BOOT_HOLD, FORCE, or a frame unit's contribution. -/
def smbSafe (env : Env) (v : Dev) : Bool := v.pw.thermtrip || safeAsserted env v

/-- The answer to a listed read command. -/
def smbValue (env : Env) (v : Dev) (code : Nat) : Option (List Byte) :=
  let m := env.master
  match code with
  | 0x01 => some (leBytes 1 (b2n (buReady env v) + 2 * b2n (smbSafe env v) + 4 * b2n v.pw.thermtrip + 8 * b2n (v.fb (PM_STATUS m) 3)
      + 16 * b2n (v.fb (PM_STATUS m) 4)))
  | 0x02 => some (leBytes 2 (smbMax env v))
  | 0x03 => some ((List.range 8).flatMap (fun d => leBytes 2 (smbTemp env v d)))
  | 0x04 => some (leBytes 2 (v.fd (PM_POWER m) 16 16))
  | 0x05 => some (leBytes 1 (oppNow env v + 16 * ceiling env v))
  | 0x06 => some (leBytes 1 (if crockSeen env v then v.fd (CR_LIFE m) 0 8 else 0xFF))
  | 0x07 => some (leBytes 1 (if v.fw.image.isSome then fld (fwStatusValue v m) 0 8 else 0xFF))
  | 0x08 => some (leBytes 4 (hpId env 0))
  | _ => none

/-- One bit of the SMBus packet error code, the CRC-8 with polynomial x^8 + x^2 + x + 1 (SMBus 3.1). -/
def pecBit (c : Nat) : Nat := if 128 ≤ c % 256 then (2 * c % 256) ^^^ 7 else 2 * c % 256

/-- The packet error code of a message. -/
def pec (bs : List Nat) : Nat := bs.foldl (fun c b => (List.range 8).foldl (fun c _ => pecBit c) (c ^^^ b)) 0

/-- The bytes of an answer on the bus: a block read sends its length first. -/
def smbBytes (code : Nat) (bs : List Byte) : List Byte := if code = 0x03 ∨ code = 0x08 then BitVec.ofNat 8 bs.length :: bs else bs

/-- The PEC byte of a read: over the address with its write bit, the command code, the address with its read bit, and the answer. -/
def smbPec (env : Env) (code : Nat) (bs : List Byte) : Byte :=
  let a := 2 * (0x58 + env.hw.smbAddr)
  BitVec.ofNat 8 (pec ([a, code, a + 1] ++ (smbBytes code bs).map (·.toNat)))

/-- SMBUS_READ: the answer, with its PEC byte where the host reads one. A write transaction is not acknowledged. -/
def smbusRead (code : Nat) (use : SmbUse) (env : Env) (v : Dev) : Dev :=
  let value := if smbUp env v then smbValue env v code else none
  { v with pins := { v.pins with smbAnswer := match use with
    | .read => value
    | .readPec => value.map (fun bs => bs ++ [smbPec env code bs])
    | .write => none } }

/-- SMBUS_ALERT_RESPONSE: the target's address; SMB_ALERT_N is released unless THERMTRIP holds it. -/
def smbusAlert (env : Env) (v : Dev) : Dev :=
  if smbUp env v then
    { v with pins := { v.pins with smbAnswer := some (leBytes 1 (0x58 + env.hw.smbAddr)), smbAlert := v.pins.smbAlert && v.pw.thermtrip } }
  else { v with pins := { v.pins with smbAnswer := none } }

/-! ## The TAP (R482, R483) -/

/-- The identification register. -/
def idcode (part : Part) : Nat :=
  let p := match part with
    | .vn2_8 => 0x5628
    | .vn2_4 => 0x5624
    | .vn2_2 => 0x5622
  Config.siRev % 16 * 0x10000000 + p * 0x1000 + 0x2C3 * 2 + 1

/-- An instruction is loaded into every TAP of the chain, with what data register it selects at the master die's and at another die's; the rows
name one instruction and no TAP (DESIGN CHOICE, log entry 190). -/
def setIr (env : Env) (ir : Nat) (tdr : Option Nat) (v : Dev) : Dev :=
  let chain := (env.dieList.filter (fun d => d != env.master)).map (fun d => (d, (ir, tdr.getD (SMap.get (1, 0) v.pins.chain d).2)))
  { v with pins := { v.pins with ir := ir, tdr := tdr.getD v.pins.tdr, chain := chain } }

/-- EXTEST, CLAMP and HIGHZ take effect only while PERST_N is low. -/
def pinInstr (ir : Nat) (env : Env) (v : Dev) : Dev := if v.bu.perst then setIr env 0xFF (some 0) v else setIr env ir none v

/-- How the package drives a pin: it never does, it drives a level, or it only pulls an open drain low. -/
inductive PinDrive where
  | input
  | level (b : Bool)
  /-- SAFE_N and THERMTRIP_N: a level whose cells are observe-only. -/
  | guarded (b : Bool)
  deriving DecidableEq, Repr

/-- The pins of a host port but for its reference resistor: of an LPDDR5 bus the model carries bursts and no levels. -/
def portPins (v : Dev) (p : Nat) : List PinDrive := List.replicate 37 .input ++ [.level (!v.alertLow p)]

/-- Data pins of a memory module: pulled down until its reset is released, then either side drives them. -/
def modulePins (n : Nat) (released : Bool) : List PinDrive := List.replicate n (if released then .input else .level false)

/-- The PSRAM pins of a die between two accesses. -/
def psramPins (v : Dev) (d : Nat) : List PinDrive :=
  let r := v.pins.hrReset.contains d
  [.level false, .level true, .level true] ++ modulePins 9 r ++ [.level r]

/-- The crock's pins between two accesses; a crock that is fitted ties CROCK_DET_N to ground. -/
def crockPins (v : Dev) : List PinDrive :=
  [.level false, .level true] ++ modulePins 9 v.pins.crReset ++ [.level v.pins.crReset, .level (!v.pins.crockDet)]

/-- The signal pins that the boundary register covers, in the order of R465's table (R482; the order is a DESIGN CHOICE, log entry 190), with
what stands on each: a level, or that the outside drives it. -/
def pins (env : Env) (v : Dev) : List PinDrive :=
  (List.range 4).flatMap (portPins v) ++ env.dieList.flatMap (psramPins v) ++ crockPins v
    ++ [.level v.bu.perst, .input, .guarded (!smbSafe env v), .guarded (!v.pw.thermtrip)] ++ List.replicate 4 .input
    ++ List.replicate 4 .input ++ (List.range 4).map (fun k => .level (tickOutPin env v k))
    ++ [.input, .input, .level (!v.pins.smbAlert)]
    ++ [if v.pw.vcore.isNone then .level false else .input, if v.pw.vcore.isNone then .level false else .input, .input]
    ++ [.level v.pins.vcoreEn]

/-- The level that SAMPLE finds on a pin: what the model holds of it, else what the outside drives, a free value. -/
def samplePin (l : List Bool) (v : Dev) : PinDrive → List Bool × Dev
  | .level b => (l ++ [b], v)
  | .guarded b => (l ++ [b], v)
  | .input => let x := v.takeFree; (l ++ [decide (x.1 % 2 = 1)], x.2)

/-- SAMPLE/PRELOAD: the boundary register captures the pins and `cells` are shifted in behind them; it keeps its length. -/
def samplePreload (cells : List Bool) (env : Env) (v : Dev) : Dev :=
  let x := (pins env v).foldl (fun x d => samplePin x.1 x.2 d) ([], v)
  let v := setIr env 2 none x.2
  { v with pins := { v.pins with sampled := x.1, boundary := (x.1 ++ cells).drop cells.length } }

/-- The level on pin `i` of the boundary register, or none where the package leaves it to the outside: EXTEST and CLAMP drive it from its cell,
HIGHZ from nothing, and no instruction reaches SAFE_N or THERMTRIP_N (R483). -/
def pinLevel (env : Env) (v : Dev) (i : Nat) : Option Bool :=
  match (pins env v)[i]? with
  | none => none
  | some (.guarded b) => some b
  | some .input => none
  | some (.level b) =>
    if v.bu.perst then some b
    else if v.pins.ir = 3 ∨ v.pins.ir = 4 then v.pins.boundary[i]?
    else if v.pins.ir = 5 then none
    else some b

/-! ## QUERY (R346) -/

/-- What QUERY reports of the device: identity, firmware and interface versions, crock life. -/
def deviceFacts (env : Env) (v : Dev) : List Nat :=
  let m := env.master
  [hpId env 0, b2n (v.fb (SEC_STATUS m) 0), Config.idKey v.crock.enrol, v.rdN (FW_IMAGE m), v.rdN (FW_SVN m), ((v.fw.image.map (·.ifMin)).getD 1),
   ((v.fw.image.map (·.ifMax)).getD 1), v.rdN (CR_LIFE m)]

/-- What QUERY reports of a die: usable cores and spares, the stages and coverage of its last re-bring, and its unplaced core numbers (R347,
R368, R375). -/
def dieFacts (v : Dev) (d : Nat) : List Nat :=
  let usable := (List.range 2112).filter (fun i => (v.numberOf (pMake d 0 i)).isSome && !v.isFenced (pMake d 0 i))
  let spares := (List.range 64).filter (fun t => match SMap.get 0 v.place.spare (d * 64 + t) with
    | 0 => false
    | s + 1 => unusedSpare v s && !v.isFenced s)
  let r := (SMap.get none v.bu.rebrung d).getD ⟨[], []⟩
  [usable.length, spares.length] ++ r.stages ++ r.coverage
    ++ ((List.range 2048).map (fun i => 2048 * d + i)).filter (fun n => (v.placeOf n).isNone)

/-- What QUERY reports of a coach and of a port's interface. -/
def coachFacts (v : Dev) (g : Nat) : List Nat :=
  let c := v.coach g
  [(coachState v g).code, c.port, c.rankBase, c.rankLimit, c.rankCount, c.imageId, c.snapGen]
def ifaceFacts (v : Dev) (p : Nat) : List Nat := let h := v.port p; [h.ifState, h.ifMajor, Config.ifMinor h.ifMajor]

/-- QUERY with WHAT 0–3. The spec names what a query reports and not how it is laid out: RESULT and the buffer are an unstated function of what
is reported and of a free value (log entry 18). -/
def queryCmd : Handler := fun env p bs v =>
  let what := leAt bs 8 1
  let i := leAt bs 9 1
  let b := bufAt bs 16
  if 4 ≤ what then fail stBadParam 8 v
  else if (what = 1 ∧ env.dies ≤ i) ∨ (what = 2 ∧ 4 ≤ i) then fail stBadParam 9 v
  else if !bufOk v p b true then fail stBadParam 16 v
  else
    let f := v.takeFree
    let facts := f.1 :: (match what with
      | 0 => deviceFacts env v
      | 1 => dieFacts v i
      | 2 => coachFacts v i
      | _ => ifaceFacts v p)
    (.done stOk 0 (leBytes 16 (Config.queryData 0 what facts)), f.2.stSram env p b.off (leBytes b.len (Config.queryData 1 what facts)))

/-- QUERY: WHAT 4 is ATTEST. -/
def query (p : Nat) (c : Cmd) (env : Env) (v : Dev) : Dev :=
  if leAt c.bytes 8 1 = 4 then v else runCommand 0x1A p c queryCmd env v

/-! ## The rows -/

/-- XR_CTRL, or with `tcsm` XR_TCSM. -/
def execXrCtrlWrite (who : Party) (d : Fin 8) (tcsm : Bool) (x : Word) (s : State) : Host.Outcome State Fault Refusal :=
  .next (s.onWrite who d.val (fun env => unitWrite env who d.val (if tcsm then XR_TCSM d.val else XR_CTRL d.val)
    (if tcsm then xrTcsmWrite env who d.val x else xrCtrlWrite env who d.val x)))
def execXrCalRecal (who : Party) (d : Fin 8) (ok : Bool) (s : State) : Host.Outcome State Fault Refusal :=
  .next (s.onWrite who d.val (fun env => unitWrite env who d.val (XR_CAL d.val) (xrRecal env who d.val ok)))
def execSmbusRead (code : Byte) (use : SmbUse) (s : State) : Host.Outcome State Fault Refusal := .next (s.onDev (smbusRead code.toNat use))
def execQuery (p : Fin 4) (c : Cmd) (s : State) : Host.Outcome State Fault Refusal := .next (s.onDev (query p.val c))
def execSmbusAlertResponse (s : State) : Host.Outcome State Fault Refusal := .next (s.onDev smbusAlert)
def execIdcode (s : State) : Host.Outcome State Fault Refusal := .next (s.onDev (fun env => setIr env 1 (some (idcode env.hw.part))))
def execBypass (s : State) : Host.Outcome State Fault Refusal := .next (s.onDev (fun env => setIr env 0xFF (some 0)))
/-- `cells` are the bits shifted into the boundary register. -/
def execSamplePreload (cells : List Bool) (s : State) : Host.Outcome State Fault Refusal := .next (s.onDev (samplePreload cells))
def execExtest (s : State) : Host.Outcome State Fault Refusal := .next (s.onDev (pinInstr 3))
def execClamp (s : State) : Host.Outcome State Fault Refusal := .next (s.onDev (pinInstr 4))
def execHighz (s : State) : Host.Outcome State Fault Refusal := .next (s.onDev (pinInstr 5))
def execDebug (s : State) : Host.Outcome State Fault Refusal := .next (s.onDev (fun env => setIr env 0x20 none))

end Sys2Proof.Machine
end

