-- ==== Sys2Proof/Machine/RegRead.lean ====
section
/-! DEFINITION. What a register of a die reads as, the LO/HI pairs, and what a port sees of it (R10, R11, R35, R124, R143, R196, R299, R300,
R305, R411). -/
namespace Sys2Proof.Machine

open Sys2Proof

/-! ## Which registers a die has -/

/-- Offsets of registers that exist on the master die only (R160, 02_ticks_and_time.md, 09_separators.md, 12_bring_up.md,
13_faults_and_fencing.md, 14_firmware_and_security.md, 15_clocks_power_reset.md). -/
def masterOnly (off : Nat) : Bool :=
  decide (off < 0x10000) || (decide (0x20800 ≤ off) && decide (off < 0x30000)) || (decide (0x40008 ≤ off) && decide (off < 0x40020))
    || off == 0x100200 || off == 0x12005C || off == 0x120800 || off == 0x120804 || off == 0x130014
    || (decide (0x150000 ≤ off) && decide (off < 0x160000))
    || off == 0x170004 || off == 0x170010 || off == 0x170018 || off == 0x170020 || (decide (0x170040 ≤ off) && decide (off < 0x180000))

/-- Offsets of the frame units and host ports, which D0 and D1 have. -/
def portOnly (off : Nat) : Bool := decide (0x100000 ≤ off) && decide (off < 0x120000) && off != 0x100200

/-- The die has a register at the offset. -/
def Env.hasReg (env : Env) (d off : Nat) : Bool :=
  env.has d && (regRow (dieReg d off)).isSome && (!masterOnly off || d == env.master) && (!portOnly off || decide (d < 2))

/-! ## LO/HI pairs (R35) -/

/-- The HI registers of the pairs: offset, stride and count, unit stride and count. The LO register lies 4 below. -/
def hiRows : List (Nat × Nat × Nat × Nat × Nat) := [
  (0x10004, 4, 1, 4, 1), (0x2000C, 0x10, 64, 0x400, 1), (0x2040C, 0x10, 8, 0x400, 1), (0x20824, 8, 5, 0x100, 4), (0x40088, 4, 1, 4, 1),
  (0x40104, 8, 2, 0x10, 1), (0x40144, 8, 2, 0x10, 1), (0x60084, 8, 4, 0x10000, 4), (0x600C4, 4, 1, 0x10000, 4), (0x60204, 0x10, 16, 0x10000, 4),
  (0xA0044, 4, 1, 4, 1), (0xB006C, 8, 3, 0x20, 1), (0xC0014, 8, 2, 0x4000, 16), (0x110104, 8, 2, 0x1000, 2), (0x120C0C, 4, 1, 4, 1),
  (0x15003C, 4, 1, 4, 1), (0x180014, 8, 2, 0x20, 1)]

/-- The offset is that of a pair's HI register. -/
def isHi (off : Nat) : Bool :=
  hiRows.any (fun x => decide (x.1 ≤ off) && decide ((off - x.1) / x.2.2.2.1 < x.2.2.2.2)
    && decide ((off - x.1) % x.2.2.2.1 / x.2.1 < x.2.2.1) && (off - x.1) % x.2.2.2.1 % x.2.1 == 0)

/-- The offset is that of a pair's LO register. -/
def isLo (off : Nat) : Bool := isHi (off + 4)

/-! ## Registers that are computed as they are read -/

/-- The stored value without its write-only bits (R10). -/
def stored (v : Dev) (r : Reg) : Word := v.rd r &&& readMask r

/-- The time base (R31, R33). -/
def tbRead (env : Env) (v : Dev) (d off : Nat) : Word :=
  if off = 0x10000 then w32 (env.nowOf d)
  else if off = 0x10004 then w32 (env.nowOf d / 0x100000000)
  else if off = 0x10008 then setBit (stored v (dieReg d off)) 0 (d == env.master)
  else if off = 0x1000C ∧ d = env.master then setBit (stored v (dieReg d off)) 8 true
  else stored v (dieReg d off)

/-- Captured values (R65). -/
def timerRead (v : Dev) (d off : Nat) : Word :=
  if 0x20400 ≤ off ∧ off < 0x20480 ∧ off % 16 = 12 then w32 (SMap.get 0 v.tick.cap (d * 8 + (off - 0x20400) / 16) / 0x100000000)
  else stored v (dieReg d off)

/-- The physical cores of a die. -/
def dieCores (d : Nat) : List Nat := (List.range 2112).map (fun i => pMake d 0 i)

/-- NC registers of a die. -/
def ncDieRead (v : Dev) (d off : Nat) : Word :=
  let failed := ((dieCores d).filter (fun p => v.fb (NC_STATUS p) 3)).length
  if off = 0x30000 then setBit (stored v (NC_DIE_UCODE d)) 17 (decide (0 < failed))
  else if off = 0x30004 then w32 failed
  else w32 (((dieCores d).filter (fun p => v.enabled p)).length + 0x10000 * ((dieCores d).filter (fun p => v.fb (NC_STATUS p) 5)).length)

/-- A saturating sum of a counter over the die's cores. -/
def dieSum (v : Dev) (d : Nat) (r : Nat → Reg) : Word := w32 (min ((dieCores d).map (fun p => v.rdN (r p))).sum 0xFFFFFFFF)

/-- QM registers of a die. -/
def qmDieRead (v : Dev) (d off : Nat) : Word :=
  if off = 0x50000 then w32 ((dieCores d).map (fun p => ((List.range 16).filter (fun q => v.qOpen p q)).length)).sum
  else if off = 0x50004 then dieSum v d QM_CLOSED_DROP
  else if off = 0x50008 then dieSum v d QM_STALLED_OUT
  else dieSum v d QM_TIMEOUT

/-- A route entry (R136). -/
def routeWord (v : Dev) (version : Bool) (n : Nat) : Nat :=
  match routeOf v version n with
  | some p => pSlot p + 64 * pTile p + 4096 * pDie p + 0x8000
  | none => 0

/-- A group's entry in a router (R136, R142): MESH and CPL name every output by which the order of R138 leaves the router towards a member, so
that the entry serves every source router; a packet's copies leave by those of them that lie on its way (R143; DEDUCED, log entry 108).
The die routes are those in force at the read, so that DROUTE_COMMIT changes them without a SET_ROUTES (DESIGN CHOICE, log entry 175).
LOCAL names the members on the router's tile, OWNER and VALID are the group's. -/
def groupWord (env : Env) (v : Dev) (version : Bool) (n d t : Nat) : Nat :=
  match groupOf v version n with
  | some g =>
    let hops := g.places.map (nextHop env v d t)
    ((List.range 4).map (fun p => if hops.any (fun h => hopPort h == p) then 2 ^ p else 0)).sum
      + 16 * b2n (hops.any (fun h => hopPort h == 4))
      + 32 * ((List.range 33).map (fun s => if g.places.contains (pMake d t s) then 2 ^ s else 0)).sum
      + 2 ^ 38 * g.owner + 2 ^ 40
  | none => 0

/-- The entry that EF_RT_SEL selects (R160). -/
def selectedEntry (env : Env) (v : Dev) (d : Nat) : Nat :=
  let w := v.rd (EF_RT_SEL d)
  if bit w 14 then groupWord env v (bit w 15) (fld w 0 14 % 4096) d (fld w 16 6) else routeWord v (bit w 15) (fld w 0 14)

/-- Bits `f g` of the four coaches from bit `lo`. -/
def coachBits (lo : Nat) (f : Nat → Bool) : Nat := ((List.range 4).map (fun g => if f g then 2 ^ (lo + g) else 0)).sum

/-- EF registers: packets in flight, IDLE, the die routes staged and committed, and the selected entry (R137, R152, R160). -/
def efRead (env : Env) (v : Dev) (d off : Nat) : Word :=
  if off = 0x40004 then
    setFld (stored v (EF_STATUS d)) 4 4 (coachBits 0 (fun g => v.fab.flights.all (fun f => f.die != d || f.pkt.coach != g)))
  else if 0x40010 ≤ off ∧ off < 0x40020 then
    let g := (off - 0x40010) / 4
    w32 (min (inFlight v g false) 65535 + 0x10000 * min (inFlight v g true) 65535)
  else if 0x40040 ≤ off ∧ off < 0x40060 then
    let e := (off - 0x40040) / 4
    w32 (staged env v d e + 16 * drouteOf env v d e)
  else if off = 0x40084 then w32 (selectedEntry env v d)
  else if off = 0x40088 then w32 (selectedEntry env v d / 0x100000000)
  else stored v (dieReg d off)

/-- CHN_STATUS: ACTIVE while a pass or an output stage runs (R229). PAIL_STATUS: ABSENT and ENTRIES (R211, R213). -/
def churnRead (env : Env) (v : Dev) (d off : Nat) : Word :=
  let c := (off - 0x60000) / 0x10000
  if (off - 0x60000) % 0x10000 = 0x44 then
    let l := pailEntries v d c
    setFld (setBit (stored v (dieReg d off)) 1 (absentHere env v d l)) 16 12 l.length
  else if (off - 0x60000) % 0x10000 = 4 then
    let w := stored v (dieReg d off)
    setBit w 0 (bit w 0 || decide (v.chkAt d (env.nowOf d) < (v.churn d c).passEnd))
  else stored v (dieReg d off)

/-- The round that a coach's running frame plays on a die. -/
def frameRound (env : Env) (v : Dev) (t : DieTable) (f : Frame) (d : Nat) : Nat :=
  let slot := (v.chkAt d (env.nowOf d) - v.chkAt d f.start) / 1000
  min ((slot - t.offset) / t.slots) t.roundsM1

/-- SN registers: SN_STATUS and SN_FRAME (R260). -/
def snRead (env : Env) (v : Dev) (d off : Nat) : Word :=
  let runs (g : Nat) : Bool := (v.frame g).isSome && (v.table d g).isSome
  if off = 0xA0004 then
    setFld (stored v (dieReg d off)) 4 12
      (coachBits 0 (fun g => SMap.get none v.net.armed g != none) + coachBits 4 runs + coachBits 8 (fun g => (v.table d g).isSome))
  else if 0xA0030 ≤ off ∧ off < 0xA0040 then
    let g := (off - 0xA0030) / 4
    match v.frame g, v.table d g with
    | some f, some t => w32 (f.tick % 0x10000 + 0x10000 * (frameRound env v t f d % 0x10000))
    | _, _ => 0
  else stored v (dieReg d off)

/-- VAT registers: BANK_FENCED and VAT_ROWS_USED (R238). -/
def vatRegRead (v : Dev) (d off : Nat) : Word :=
  if off = 0xB0004 then setBit (stored v (dieReg d off)) 1 (v.net.fencedBanks.any (fun b => b / 64 == d))
  else if off = 0xB008C then w32 (min (SMap.get 0 v.net.rowsUsed (d * 64 + v.fd (VAT_BANK_SEL d) 0 6)) 16)
  else stored v (dieReg d off)

/-- SP_STATUS: ABSENT and BUSY (R267, R272). -/
def sepRead (env : Env) (v : Dev) (d off : Nat) : Word :=
  let k := (off - 0xC0000) / 0x4000
  if (off - 0xC0000) % 0x4000 = 8 then
    let i := v.iface (blockIface d (4 + k))
    setBit (setBit (stored v (dieReg d off)) 2 (absentHere env v d (spEntries v d k))) 3
      (!(v.sep d k).inq.isEmpty || !(v.sep d k).eout.isEmpty || i.opened.isSome || !i.closed.isEmpty)
  else stored v (dieReg d off)

/-- Frame units: CONTRIB and COPYING; FR_SAFEN.LEVEL (R282, R284). -/
def frameRead (env : Env) (v : Dev) (d off : Nat) : Word :=
  if off = 0x100200 then setBit (stored v (dieReg d off)) 3 (safeAsserted env v)
  else
    let p := 2 * d + (off - 0x100000) / 0x100
    if (off - 0x100000) % 0x100 = 4 then
      setBit (setBit (stored v (dieReg d off)) 1 (safeContrib env v p)) 3 ((v.fu p).copies != [])
    else stored v (dieReg d off)

/-- The HP block (R304). -/
def hpRead (env : Env) (v : Dev) (d off : Nat) : Word :=
  let p := 2 * d + (off - 0x110000) / 0x1000
  if (off - 0x110000) % 0x1000 = 0 then w32 (hpId env p)
  else if (off - 0x110000) % 0x1000 = 8 then hpStatusValue env v p
  else stored v (dieReg d off)

/-- A figure of the selected block kind (R365). -/
def kindRead (v : Dev) (m off : Nat) : Word :=
  let k := (SMap.get none v.bu.kinds (v.fd (BU_KIND_SEL m) 0 3)).getD ⟨0, 0, 0, 0, 0, 0⟩
  if off = 0x64 then w32 k.tested
  else if off = 0x68 then w32 k.failed
  else if off = 0x6C then w32 (k.ka % 0x10000 + 0x10000 * (k.bist % 0x10000))
  else if off = 0x70 then w32 k.kaTime
  else w32 k.bistTime

/-- The BU block. -/
def buRead (env : Env) (v : Dev) (off : Nat) : Word :=
  let m := env.master
  if off = 4 then setBit (stored v (dieReg m off)) 14 (m == 1)
  else if off = 0x1C then (if v.bu.perst then w32 (min ((env.now - v.bu.since) / 1000) 0xFFFFFFFF) else 0)
  else if 0x64 ≤ off ∧ off < 0x78 then kindRead v m off
  else if off = 0x80 then w32 (buDefects env v)
  else if off = 0x88 then w32 (0x10000 * v.fd (PM_PAD_RELEASE 0) 16 5 + 0x1000000 * v.fd (PM_PAD_RELEASE 1) 16 5)
  else stored v (dieReg m off)

/-- FC registers (R385, R396, R398, R399). -/
def fcRead (env : Env) (who : Party) (v : Dev) (d off : Nat) : Word :=
  if off = 0x120004 then fcStatusValue v d
  else if off = 0x120020 then fcSel v who d
  else if 0x120024 ≤ off ∧ off < 0x120044 then fcRecValue v who d ((off - 0x120024) / 4)
  else if off = 0x120054 then fcAgeData v d
  else if off = 0x120800 then fcAggStatus env v
  else if 0x120C00 ≤ off ∧ !v.flt.factory then 0
  else stored v (dieReg d off)

/-- FW registers: FW_STATUS and FW_UPDATE (R428 to R430). -/
def fwRead (env : Env) (v : Dev) (d off : Nat) : Word :=
  if off = 0x130000 then fwStatusValue v d
  else if off = 0x130014 then
    w32 (v.crock.slotA % 8 + 8 * (v.crock.slotB % 8) + 64 * (v.crock.active % 2) + 128 * b2n (deferred env v) + 256 * b2n v.fw.act.isSome)
  else stored v (dieReg d off)

/-- SEC_STATUS shows the debug level (R416). -/
def secRead (v : Dev) (d off : Nat) : Word :=
  if off = 0x140000 then setFld (stored v (dieReg d off)) 2 2 (v.fd (SEC_DEBUG d) 0 2) else stored v (dieReg d off)

/-- The operating-point table (R439, R443). -/
def pmRead (v : Dev) (d off : Nat) : Word :=
  if 0x170040 ≤ off then
    let e := (off - 0x170040) / 16
    if off % 16 = 0 then w32 (oppCol e 0 + 0x400 * oppCol e 1)
    else if off % 16 = 4 then w32 (oppCol e 2 + 0x800 * oppCol e 3)
    else w32 (oppCol e 4 + 16 * oppCol e 5 + 0x10000 * oppCol e 6)
  else stored v (dieReg d off)

/-- What the register of die `d` at an offset reads as for a requester, 0 where the die has none (R10, R11); the HI register of a pair
as it is latched by a read of its LO register. -/
def regValue (env : Env) (who : Party) (v : Dev) (d off : Nat) : Word :=
  if !env.hasReg d off then 0
  else match off / 0x10000 with
    | 0x0 => buRead env v off
    | 0x1 => tbRead env v d off
    | 0x2 => timerRead v d off
    | 0x3 => ncDieRead v d off
    | 0x4 => efRead env v d off
    | 0x5 => qmDieRead v d off
    | 0x6 => churnRead env v d off
    | 0x7 => churnRead env v d off
    | 0x8 => churnRead env v d off
    | 0x9 => churnRead env v d off
    | 0xA => snRead env v d off
    | 0xB => vatRegRead v d off
    | 0xC => sepRead env v d off
    | 0xD => sepRead env v d off
    | 0xE => sepRead env v d off
    | 0xF => sepRead env v d off
    | 0x10 => frameRead env v d off
    | 0x11 => hpRead env v d off
    | 0x12 => fcRead env who v d off
    | 0x13 => fwRead env v d off
    | 0x14 => secRead v d off
    | 0x17 => pmRead v d off
    | _ => stored v (dieReg d off)

/-! ## What a port sees (R305) -/

/-- Whose register it is. -/
inductive RegClass where
  /-- A die-level register that belongs to no coach. -/
  | shared
  /-- A register of a coach's block, or indexed by the coach's number; 4 and above for no coach. -/
  | coach (g : Nat)
  /-- The HP block or the frame unit of a port. -/
  | port (p : Nat)
  /-- The BU block: the bring-up port's. -/
  | bringUp
  /-- Hidden from every host. -/
  | hidden
  deriving DecidableEq, Repr

/-- The class of a register of the timers. -/
def timerClass (v : Dev) (d off : Nat) : RegClass :=
  if off < 0x20400 then .coach (v.fd (CMP_CTRL d ((off - 0x20000) / 16)) 28 3)
  else if off < 0x20800 then .coach (v.fd (CAP_CTRL d ((off - 0x20400) / 16)) 28 3)
  else if off < 0x20C00 then .coach ((off - 0x20800) / 0x100)
  else if off < 0x20C10 then .coach (v.fd (TO_OWNER d) (4 * ((off - 0x20C00) / 4)) 3)
  else .shared

/-- The class of a register. -/
def regClass (v : Dev) (d off : Nat) : RegClass :=
  match off / 0x10000 with
  | 0x0 => .bringUp
  | 0x2 => timerClass v d off
  | 0x4 => if 0x40010 ≤ off ∧ off < 0x40020 then .coach ((off - 0x40010) / 4) else .shared
  | 0x6 => .coach (v.churnOwner d 0)
  | 0x7 => .coach (v.churnOwner d 1)
  | 0x8 => .coach (v.churnOwner d 2)
  | 0x9 => .coach (v.churnOwner d 3)
  | 0xA =>
    if 0xA0030 ≤ off ∧ off < 0xA0040 then .coach ((off - 0xA0030) / 4)
    else if 0xA0400 ≤ off ∧ off < 0xA0600 then .coach ((off - 0xA0400) / 0x80)
    else if 0xA0800 ≤ off then .coach ((off - 0xA0800) / 0x100)
    else .shared
  | 0xC => .coach (v.sepOwner d ((off - 0xC0000) / 0x4000))
  | 0xD => .coach (v.sepOwner d ((off - 0xC0000) / 0x4000))
  | 0xE => .coach (v.sepOwner d ((off - 0xC0000) / 0x4000))
  | 0xF => .coach (v.sepOwner d ((off - 0xC0000) / 0x4000))
  | 0x10 =>
    if off = 0x100200 then .shared
    else if v.fb (SEC_BLOCK0 d) (8 + (off - 0x100000) / 0x100) then .hidden
    else .port (2 * d + (off - 0x100000) / 0x100)
  | 0x11 => .port (2 * d + (off - 0x110000) / 0x1000)
  | 0x12 =>
    if 0x120010 ≤ off ∧ off < 0x120020 then .coach ((off - 0x120010) / 4)
    else if 0x120100 ≤ off ∧ off < 0x120180 then .coach ((off - 0x120100) / 0x20)
    else .shared
  | 0x13 =>
    if off = 0x130008 then .hidden else if 0x130020 ≤ off then .coach ((off - 0x130020) / 4) else .shared
  | 0x14 =>
    if off = 0x140000 then .shared
    else if 0x140100 ≤ off ∧ off < 0x140300 then .coach (v.rgn d ((off - 0x140100) / 8)).owner
    else .hidden
  | _ => .shared

/-- Coach `g` is open through port `p`. -/
def Dev.coachVia (v : Dev) (p g : Nat) : Bool := decide (g < 4) && v.isOpen g && (v.coach g).port == p

/-- The register is visible to port `p`. -/
def visible (env : Env) (v : Dev) (p d off : Nat) : Bool :=
  match regClass v d off with
  | .shared => true
  | .coach g => v.coachVia p g
  | .port q => q == p
  | .bringUp => p == env.bringUpPort
  | .hidden => false

/-- Where a register holds one field per coach: the lowest bits of its groups of four bits. -/
def coachFields (off : Nat) : List Nat :=
  if off = 0x40000 then [0] else if off = 0x40004 then [4] else if off = 0x40008 then [0, 4, 8] else if off = 0xA0004 then [0, 4, 8, 12] else []

/-- The bits that belong to coaches of other ports. -/
def otherBits (v : Dev) (p off : Nat) : Nat := ((coachFields off).map (fun lo => coachBits lo (fun g => !v.coachVia p g))).sum

/-- The requester of a port. -/
def portParty (p : Nat) : Party := .port (Fin.ofNat 4 p)

/-- A register as port `p` reads it. -/
def portValue (env : Env) (v : Dev) (p d off : Nat) : Word := regValue env (portParty p) v d off &&& ~~~(w32 (otherBits v p off))

/-! ## The window (R295, R296, R299) -/

/-- The die and offset of an address in the register shadow window. -/
def windowDie (a : Nat) : Nat := (a - 0x2000000) / 0x800000
def windowOff (a : Nat) : Nat := (a - 0x2000000) % 0x800000

/-- The port serves the address: from OPEN_PORTS on every register of the part, before that the bring-up port its own HP block and the
BU block. -/
def served (env : Env) (v : Dev) (p a : Nat) : Bool :=
  decide (0x2000000 ≤ a) && decide (a < 0x6000000) && env.hasReg (windowDie a) (windowOff a)
    && (v.portOpen p
      || (p == env.bringUpPort && (regClass v (windowDie a) (windowOff a) == .bringUp
        || (windowOff a / 0x10000 == 0x11 && regClass v (windowDie a) (windowOff a) == .port p))))

/-- Registers that are always read live: the port's own HP block and, for the bring-up port, the BU block (R304, R355). -/
def readLive (off : Nat) : Bool := off / 0x10000 == 0x11 || off / 0x10000 == 0

/-! ## Live reads (R35, R65, R307) -/

/-- A live read by a port: its value, the HI half latched by a read of LO, FULL cleared by a read of CAP_VALUE_LO. -/
def liveRead (env : Env) (p d off : Nat) (v : Dev) : Word × Dev :=
  if isHi off then (v.getLatch (portParty p) (dieReg d (off - 4)), v)
  else
    let x := portValue env v p d off
    if 0x20400 ≤ off ∧ off < 0x20480 ∧ off % 16 = 8 ∧ visible env v p d off = true then
      let y := capRead env d ((off - 0x20400) / 16) v
      (w32 y.1, y.2.setLatch (portParty p) (dieReg d off) (w32 (y.1 / 0x100000000)))
    else (x, if isLo off then v.setLatch (portParty p) (dieReg d off) (portValue env v p d (off + 4)) else v)

end Sys2Proof.Machine
end

