-- ==== Sys2Proof/Machine/Timers.lean ====
section
/-! DEFINITION. The time base, its alignment and reads, compare and capture channels (R31 to R35, R58 to R65, 02_ticks_and_time.md). -/
namespace Sys2Proof.Machine

open Sys2Proof

/-! ## The time base -/

/-- One TBK cycle: every die's copy counts, except those that withhold this increment (R31, R32). -/
def Clock.tick (dies : Nat) (c : Clock) : Clock :=
  { tb := (List.range dies).foldl (fun m d => if c.withhold.contains d then m else SMap.set 0 m d (SMap.get 0 m d + 1)) c.tb,
    withhold := [] }

/-- The offset of follower `d` from the master, in ns. -/
def Env.offset (e : Env) (d : Nat) : Int := (e.nowOf d : Int) - (e.now : Int)

/-- The follower may slew: it never has, or its last slew lies 1,024 ns back (R32). -/
def maySlew (d : Nat) (env : Env) (v : Dev) : Bool :=
  let l := SMap.get 0 v.tick.lastSlew d
  v.fb (TB_CTRL d) 1 && (decide (l = 0) || decide (l + 1024 ≤ env.nowOf d)) && decide (env.offset d ≠ 0)

/-- A sync word slews the follower by one increment, added at once or withheld from the next cycle, at most once in 1,024 ns (R32). -/
def syncClock (d : Nat) (env : Env) (may : Bool) : Clock :=
  if !may then env.clk
  else if env.offset d < 0 then { env.clk with tb := SMap.set 0 env.clk.tb d (env.clk.now d + 1) }
  else { env.clk with withhold := d :: env.clk.withhold.filter (fun x => x ≠ d) }

/-- Alignment lost: LOST, TB_ALIGN_LOSS and a US record for each coach that owns resources on the die (R34). -/
def alignLost (env : Env) (d : Nat) (v : Dev) : Dev :=
  let v := v.setF (TB_ALIGN d) 8 2 2
  let v := v.inc (TB_ALIGN_LOSS d) 1
  let v := v.modTick (fun t => { t with goodSync := SMap.set 0 t.goodSync d 0 })
  raiseEach env (v.ownersOn d)
    { die := d, cls := clsUS, owner := 4, source := 0x0A, master := mBlock d 12 0, access := accEvent, addr := 0,
      info := v.fd (TB_ALIGN d) 0 8 } v

/-- What a follower notes of a sync word: its offset, the runs of bad and good words, and what they decide. ALIGNED is cleared by a word
beyond ±2 ns (R33) and set by the 64th good word in a row, after a loss as R34 says and, which the spec leaves open, after training and
after a word beyond ±2 ns as well (DESIGN CHOICE, log entry 129). -/
def syncNote (d : Nat) (env : Env) (v : Dev) : Dev :=
  let o := env.offset d
  let v := v.setF (TB_ALIGN d) 0 8 (ofSigned 8 (clampI (-127) 127 o))
  let bad := if o < -8 ∨ 8 < o then min (SMap.get 0 v.tick.badSync d + 1) 5 else 0
  let good := if -2 ≤ o ∧ o ≤ 2 then min (SMap.get 0 v.tick.goodSync d + 1) 64 else 0
  let v := v.modTick (fun t =>
    { t with
      badSync := SMap.set 0 t.badSync d bad, goodSync := SMap.set 0 t.goodSync d good,
      lastSync := SMap.set 0 t.lastSync d (env.nowOf d),
      lastSlew := if maySlew d env v then SMap.set 0 t.lastSlew d (env.nowOf d) else t.lastSlew })
  let v := if good = 64 then v.setB (TB_ALIGN d) 8 true else if good = 0 then v.setB (TB_ALIGN d) 8 false else v
  if bad = 4 then alignLost env d v else v

/-- SYNC_WORD at die `d` (R32 to R34). -/
def execSyncWord (d : Fin 8) (s : State) : Host.Outcome State Fault Refusal :=
  .next (if s.env.follower d.val then
    { s with clk := syncClock d.val s.env (maySlew d.val s.env s.dev), dev := syncNote d.val s.env s.dev }
  else s)

/-- No sync word for 16,384 ns (R34). Words are due from TRAIN_COUPLINGS on, which sets `lastSync` (R32). -/
def syncTimeout (d : Nat) (env : Env) (v : Dev) : Dev :=
  let l := SMap.get 0 v.tick.lastSync d
  if env.follower d && decide (l ≠ 0) && decide (l + 16384 ≤ env.nowOf d) then
    alignLost env d (v.modTick (fun t => { t with lastSync := SMap.set 0 t.lastSync d (env.nowOf d) }))
  else v

def execSyncTimeout (d : Fin 8) (s : State) : Host.Outcome State Fault Refusal := .next (s.onDev (syncTimeout d.val))

/-- What a requester reads. -/
def Dev.answer (v : Dev) (who : Party) (x : Word) : Dev := { v with rdata := SMap.set 0 v.rdata (partyNum who) x }

/-- A read of a LO/HI pair's LO register: the low half is answered and the high half latched for the requester (R35). -/
def readLo (who : Party) (lo : Reg) (x : Nat) (v : Dev) : Dev :=
  (v.setLatch who lo (w32 (x / 0x100000000))).answer who (w32 x)

/-- A live read on a die that the part lacks: 0, with an IF record but for a host (R25). -/
def missRead (env : Env) (who : Party) (r : Reg) (v : Dev) : Dev :=
  if debugOff v who then v
  else if isHost who then v.answer who 0 else raiseMiss env who 4 accRead (regAddr v r) (v.answer who 0)

/-- A live read of a LO register: 0 with an SE record for the debug port while it is closed (R415, R416). -/
def readGate (env : Env) (who : Party) (d : Nat) (lo : Reg) (f : Dev → Dev) (v : Dev) : Dev :=
  if debugOff v who then v
  else if debugShut env v who then raiseRegion env d 4 who accRead (regAddr v lo) (v.answer who 0) else f v

/-- TB_NOW_LO (R35). -/
def execTbNowLoRead (who : Party) (d : Fin 8) (s : State) : Host.Outcome State Fault Refusal :=
  .next (s.onDev (fun env v => if env.has d.val then readGate env who d.val (TB_NOW_LO d.val) (readLo who (TB_NOW_LO d.val) (env.nowOf d.val)) v
    else missRead env who (TB_NOW_LO d.val) v))

/-! ## Compare channels (R58 to R63) -/

/-- The owner of a channel writes it: its coach's port, or firmware (R58). -/
def mayWriteOwned (v : Dev) (owner : Nat) (who : Party) : Bool :=
  if owner < 4 then !isFirmware who && mayWriteCoach v owner who else decide (owner = 4) && isFirmware who

/-- A write to a compare channel reaches it, or is dropped: with an IF record while the generator uses it, with an SE record from
anything but the owner (R37, R58). A write that both rules drop makes the SE record alone (DESIGN CHOICE, log entry 164). -/
def cmpWrite (env : Env) (who : Party) (d c : Nat) (r : Reg) (f : Dev → Dev) (v : Dev) : Dev :=
  let o := v.fd (CMP_CTRL d c) 28 3
  if !env.has d then missWrite env who r v
  else if !mayWriteOwned v o who then raiseSE env d (ownerOf3 o) who (regAddr v r) v
  else if cmpServes env v d c then raiseAccess env d (ownerOf3 o) who (regAddr v r) v
  else f v

/-- An enabled channel whose match value is not in the future matches at the next increment with LATE (R60). -/
def cmpArm (env : Env) (d c : Nat) (v : Dev) : Dev :=
  v.modCmp d c (fun h => { h with lateAt := if v.fb (CMP_CTRL d c) 0 && decide (h.next ≤ env.nowOf d) then some (env.nowOf d) else none })

/-- The time of the channel's due match, if one is due: its next-match value, or the increment after the write that made it late. -/
def cmpDue (env : Env) (d c : Nat) (v : Dev) : Option Nat :=
  let h := v.cmpCh d c
  let time := match h.lateAt with
    | some t => t + 1
    | none => h.next
  if v.fb (CMP_CTRL d c) 0 && !cmpServes env v d c && !cmpFrozen v d c && decide (time ≤ env.nowOf d) then some time else none

/-- A match of a compare channel: in the first cycle in which the time base has reached the next-match value (R59 to R63). -/
def cmpMatch (d c : Nat) (env : Env) (v : Dev) : Dev :=
  match (if env.has d then cmpDue env d c v else none) with
  | none => v
  | some time =>
    let w := v.rd (CMP_CTRL d c)
    let v := if (v.cmpCh d c).lateAt != none then v.setB (CMP_CTRL d c) 17 true else v
    let v := cmpFire env d c time v
    if bit w 1 then
      let n := time + v.rdN (CMP_PERIOD d c)
      (v.wr64 (CMP_MATCH_LO d c) (CMP_MATCH_HI d c) n).modCmp d c (fun h => { h with last := some time, next := n, lateAt := none })
    else (v.setB (CMP_CTRL d c) 0 false).modCmp d c (fun h => { h with last := some time, lateAt := none })

/-- What the owner's write to CMP_CTRL does (R60, R62, R63): a match that is due is taken, then bits [6:0], the W1C bits, then arming. -/
def cmpCtrlStore (d c : Nat) (x : Word) (env : Env) (v : Dev) : Dev :=
  let r := CMP_CTRL d c
  let v := cmpMatch d c env v
  let was := v.fb r 0
  let w := v.rd r
  let w := setFld w 0 7 (fld x 0 7)
  let w := if bit x 16 then setBit w 16 false else w
  let w := if bit x 17 then setBit w 17 false else w
  let w := if bit x 18 then setBit w 18 false else w
  let w := if 6 ≤ fld x 3 3 then setBit w 18 true else w
  let v := v.wr r w
  let v := if bit w 0 && bit w 1 && v.rd (CMP_PERIOD d c) == 0 then (v.setB r 0 false).setB r 18 true else v
  let v := if v.fb r 0 && !was then cmpArm env d c (v.modCmp d c (fun h => { h with last := none })) else
           if v.fb r 0 then v else v.modCmp d c (fun h => { h with lateAt := none })
  cmpRefreeze env d c v

/-- A write to CMP_CTRL. Firmware's write of another OWNER hands the channel on, and the rest of the word takes effect where firmware is the
new owner (DEDUCED, log entry 115); while a tick generator uses the channel, that write is dropped with an IF record (R37; log entry 164).
Any other write is the owner's (R58). -/
def cmpCtrlWrite (who : Party) (d c : Nat) (x : Word) (env : Env) (v : Dev) : Dev :=
  let r := CMP_CTRL d c
  if isFirmware who && env.has d && decide (fld x 28 3 ≠ v.fd r 28 3) then
    if cmpServes env v d c then raiseAccess env d (ownerOf3 (v.fd r 28 3)) who (regAddr v r) v
    else
      let v := v.setF r 28 3 (fld x 28 3)
      if fld x 28 3 = 4 then cmpCtrlStore d c x env v else v
  else cmpWrite env who d c r (cmpCtrlStore d c x env) v

/-- A write to CMP_MATCH_HI commits the next-match value with the buffered low half (R59, R60). -/
def cmpMatchHiWrite (who : Party) (d c : Nat) (x : Word) (env : Env) (v : Dev) : Dev :=
  cmpWrite env who d c (CMP_MATCH_HI d c) (fun v =>
    let v := cmpMatch d c env v
    let n := x.toNat * 0x100000000 + (v.cmpCh d c).buf
    let v := (v.wr64 (CMP_MATCH_LO d c) (CMP_MATCH_HI d c) n).modCmp d c (fun h => { h with next := n })
    cmpArm env d c v) v

/-- A write to CMP_MATCH_LO is buffered until CMP_MATCH_HI is written (R59). -/
def cmpMatchLoWrite (who : Party) (d c : Nat) (x : Word) (env : Env) (v : Dev) : Dev :=
  cmpWrite env who d c (CMP_MATCH_LO d c) (fun v => v.modCmp d c (fun h => { h with buf := x.toNat })) v

/-- A write to CMP_PERIOD: a match that is due is taken under the old period; then an armed periodic channel is rebased at once, or
disarmed by 0 (R61, R62). Without a match since it was armed its next match stays (log entry 9). -/
def cmpPeriodWrite (who : Party) (d c : Nat) (x : Word) (env : Env) (v : Dev) : Dev :=
  cmpWrite env who d c (CMP_PERIOD d c) (fun v =>
    let v := (cmpMatch d c env v).wr (CMP_PERIOD d c) x
    let w := v.rd (CMP_CTRL d c)
    if bit w 0 && bit w 1 then
      if x = 0 then
        (((v.setB (CMP_CTRL d c) 0 false).setB (CMP_CTRL d c) 18 true).modCmp d c (fun h => { h with lateAt := none }))
      else
        let v := v.modCmp d c (fun h => { h with next := match h.last with
          | some l => l + x.toNat
          | none => h.next })
        let v := v.wr64 (CMP_MATCH_LO d c) (CMP_MATCH_HI d c) (v.cmpCh d c).next
        cmpArm env d c v
    else v) v

/-- A debugger halts a processor: 1 the coachman, 2–5 the ostlers (R63). A match that is due has been made before. -/
def processorHalt (d bind : Nat) (env : Env) (v : Dev) : Dev :=
  if env.has d && decide (1 ≤ bind) && decide (bind ≤ 5) && !v.tick.halted.contains (d * 8 + bind) then
    let v := (List.range 64).foldl (fun v c => cmpMatch d c env v) v
    let v := v.modTick (fun t => { t with halted := (d * 8 + bind) :: t.halted, haltAt := SMap.set 0 t.haltAt (d * 8 + bind) (env.nowOf d) })
    (List.range 64).foldl (fun v c => cmpRefreeze env d c v) v
  else v

/-- The processor resumes: frozen channels' next matches advance by the halt time (R63). -/
def processorResume (d bind : Nat) (env : Env) (v : Dev) : Dev :=
  if v.tick.halted.contains (d * 8 + bind) then
    let v := v.modTick (fun t => { t with
      halted := t.halted.filter (fun x => x ≠ d * 8 + bind),
      paused := SMap.set 0 t.paused (d * 8 + bind)
        (SMap.get 0 t.paused (d * 8 + bind) + (env.nowOf d - SMap.get 0 t.haltAt (d * 8 + bind))) })
    (List.range 64).foldl (fun v c => cmpRefreeze env d c v) v
  else v

def execCmpMatch (d : Fin 8) (c : Fin 64) (s : State) : Host.Outcome State Fault Refusal := .next (s.onClk d.val 4 (cmpMatch d.val c.val))
def execCmpMatchHiWrite (who : Party) (d : Fin 8) (c : Fin 64) (x : Word) (s : State) : Host.Outcome State Fault Refusal :=
  .next (s.onWrite who d.val (cmpMatchHiWrite who d.val c.val x))
def execCmpCtrlWrite (who : Party) (d : Fin 8) (c : Fin 64) (x : Word) (s : State) : Host.Outcome State Fault Refusal :=
  .next (s.onWrite who d.val (cmpCtrlWrite who d.val c.val x))
def execCmpPeriodWrite (who : Party) (d : Fin 8) (c : Fin 64) (x : Word) (s : State) : Host.Outcome State Fault Refusal :=
  .next (s.onWrite who d.val (cmpPeriodWrite who d.val c.val x))
def execProcessorHalt (d : Fin 8) (bind : Fin 8) (s : State) : Host.Outcome State Fault Refusal :=
  .next (s.onDev (processorHalt d.val bind.val))
def execProcessorResume (d : Fin 8) (bind : Fin 8) (s : State) : Host.Outcome State Fault Refusal :=
  .next (s.onDev (processorResume d.val bind.val))

/-! ## Capture channels (R64, R65) -/

/-- Channel `k` takes an edge at TICK_IN[`pin`]: channels 0 to 3 of the master die take the pin of their own number (R64), on the edges and
with the width of the pulse before it that CAP_CTRL asks for. A latched input is ignored (R452). -/
def captureTakes (env : Env) (v : Dev) (d k pin : Nat) (rising : Bool) (width : Nat) : Bool :=
  let w := v.rd (CAP_CTRL d k)
  d == env.master && k == pin && !v.fb (PM_PAD_RELEASE d) 20 && bit w 0 && edgeTaken (fld w 1 2) rising && decide (fld w 12 4 * 4 ≤ width)

/-- CAPTURE: an edge at a pin is captured as the time at which it reached the pin, `ago` ns before it is captured (R64). Channels 4 to 7
have no pin: an internal event is captured in the step that makes it (`captureOn`). -/
def capture (d k pin : Nat) (rising : Bool) (width ago : Nat) (env : Env) (v : Dev) : Dev :=
  if env.has d && captureTakes env v d k pin rising width then capStore env d k (env.nowOf d - ago) v else v

/-- A read of CAP_VALUE_LO: the low half, the high half latched, FULL cleared (R65). -/
def capValueLoRead (who : Party) (d k : Nat) (env : Env) (v : Dev) : Dev :=
  if env.has d then
    readGate env who d (CAP_VALUE_LO d k)
      (fun v => let x := capRead env d k v
                readLo who (CAP_VALUE_LO d k) x.1 x.2) v
  else missRead env who (CAP_VALUE_LO d k) v

def execCapture (d k : Fin 8) (pin : Fin 4) (rising : Bool) (width ago : Nat) (s : State) :
    Host.Outcome State Fault Refusal :=
  .next (s.onClk d.val 4 (capture d.val k.val pin.val rising width ago))
def execCapValueLoRead (who : Party) (d k : Fin 8) (s : State) : Host.Outcome State Fault Refusal :=
  .next (s.onDev (capValueLoRead who d.val k.val))

end Sys2Proof.Machine
end

