-- ==== Sys2Proof/Machine/RegWrite.lean ====
section
/-! DEFINITION. A write to any register: who may make it and what it does, by the access rules of every chapter (R10, R11, R36, R58, R66, R160,
R229, R261, R289, R306, R386, R399, R410, R461, R462, R478, R488). -/
namespace Sys2Proof.Machine

open Sys2Proof

/-! ## The time base (R488) -/

/-- TB_CTRL.ALIGN_EN is locked from OPEN_PORTS on; TB_ALIGN.LOST clears. -/
def tbWrite (env : Env) (who : Party) (d off : Nat) (x : Word) (v : Dev) : Dev :=
  let r := dieReg d off
  if off = 0x10008 then
    if buReady env v then raiseAccess env d 4 who (regAddr v r) v else debugGate env who d 4 r (fun v => v.setB r 1 (bit x 1)) v
  else debugGate env who d 4 r (plainWrite r x) v

/-! ## Timers (R45, R58, R64, R66, R67) -/

/-- A capture channel's registers, for its owner; firmware sets OWNER. -/
def capWrite (env : Env) (who : Party) (d off : Nat) (x : Word) (v : Dev) : Dev :=
  let r := dieReg d off
  let c := CAP_CTRL d ((off - 0x20400) / 16)
  let o := v.fd c 28 3
  if isFirmware who && off % 16 == 0 && decide (fld x 28 3 ≠ o) then
    let v := v.setF c 28 3 (fld x 28 3)
    if fld x 28 3 = 4 then plainWrite r x v else v
  else if mayWriteOwned v o who then plainWrite r x v
  else raiseSE env d (v.coachOrDevice o) who (regAddr v r) v

/-- TG_CTRL: SOURCE and PIN only while the generator stands; CLEAR_SAFE and CLR_CNT at any time. -/
def tgCtrlWrite (env : Env) (who : Party) (g : Nat) (x : Word) (v : Dev) : Dev :=
  let m := env.master
  let r := TG_CTRL m g
  let v :=
    if v.genRuns env g then
      if v.fd r 1 3 = fld x 1 3 then v else raiseAccess env m (v.coachOrDevice g) who (regAddr v r) v
    else v.setF r 1 3 (fld x 1 3)
  let v := if bit x 4 then clearSafe m g v else v
  if bit x 5 then v.clearRegs (tgCounters m g) else v

/-- TG_REACT: MISS_ACT and MISS_EDGE_ACT have a floor of SUBSTITUTE, OVR_ACT and OVR_LIMIT have none (R56). -/
def tgReactWrite (m g : Nat) (x : Word) (v : Dev) : Dev :=
  v.wrN (TG_REACT m g) (fld x 0 2 + max 1 (fld x 2 2) * 4 + max 1 (fld x 4 2) * 16 + fld x 8 8 * 256)

/-- A write at an offset of a generator's registers, once it reaches them: TG_START_AT_LO waits for HI, and TG_TICK is written only while
the generator stands. -/
def tgPageWrite (env : Env) (who : Party) (g off : Nat) (x : Word) (v : Dev) : Dev :=
  let m := env.master
  let r := dieReg m (0x20800 + 0x100 * g + off)
  if off = 0 then tgCtrlWrite env who g x v
  else if off = 0x18 then tgReactWrite m g x v
  else if off = 0x20 then v.modGen g (fun t => { t with startBuf := x.toNat })
  else if off = 0x24 then v.wr64 (TG_START_AT_LO m g) (TG_START_AT_HI m g) ((v.gen g).startBuf + 0x100000000 * x.toNat)
  else if off = 0x28 ∨ off = 0x2C then
    if v.genRuns env g then raiseAccess env m (v.coachOrDevice g) who (regAddr v r) v else v.wr r x
  else plainWrite r x v

/-- A generator's registers. -/
def tgRegWrite (env : Env) (who : Party) (off : Nat) (x : Word) (v : Dev) : Dev :=
  let g := (off - 0x20800) / 0x100
  let o := (off - 0x20800) % 0x100
  if 4 ≤ o ∧ o ≤ 0x14 then tgTimingWrite who g ((o - 4) / 4) x env v
  else tgWrite env who g (dieReg env.master off) (tgPageWrite env who g o x) v

/-- TO_CTRL for the owner of the pin, but never for a host; TO_OWNER for firmware. -/
def toWrite (env : Env) (who : Party) (off : Nat) (x : Word) (v : Dev) : Dev :=
  let m := env.master
  let r := dieReg m off
  if off = 0x20C10 then
    if isFirmware who then v.wr r (x &&& 0x7777) else v
  else
    let k := (off - 0x20C00) / 4
    let o := v.fd (TO_OWNER m) (4 * k) 3
    if isFirmware who && o == 4 then toCtrlWrite env k x v else raiseSE env m (v.coachOrDevice o) who (regAddr v r) v

/-- The timer block. -/
def timerWrite (env : Env) (who : Party) (d off : Nat) (x : Word) (v : Dev) : Dev :=
  if off < 0x20400 then
    let c := (off - 0x20000) / 16
    match off % 16 with
    | 0 => cmpCtrlWrite who d c x env v
    | 4 => cmpPeriodWrite who d c x env v
    | 8 => cmpMatchLoWrite who d c x env v
    | _ => cmpMatchHiWrite who d c x env v
  else if off < 0x20800 then capWrite env who d off x v
  else if off < 0x20C00 then tgRegWrite env who off x v
  else toWrite env who off x v

/-! ## The event fabric (R146, R152, R153, R159, R160) -/

/-- EF_EMIT_LIMIT: 0 disarms the limit and sets CFG_ERR. -/
def emitLimitWrite (d : Nat) (x : Word) (v : Dev) : Dev :=
  let n := fld x 0 24
  let v := (v.wrN (EF_EMIT_LIMIT d) n).setB (EF_STATUS d) 2 (n == 0)
  if n = 0 then v.setB (EF_STATUS d) 1 true else v

/-- EF_DRAIN_LIMIT: 0 is refused. -/
def drainLimitWrite (d : Nat) (x : Word) (v : Dev) : Dev :=
  if fld x 0 16 = 0 then v.setB (EF_STATUS d) 1 true else v.wrN (EF_DRAIN_LIMIT d) (fld x 0 16)

/-- A write at an offset of the EF block, once it reaches it. -/
def efPageWrite (env : Env) (d off : Nat) (x : Word) (v : Dev) : Dev :=
  if off = 0x40000 then
    let v := if bit x 4 then drouteCommit d env v else v
    if bit x 5 then v.clearRegs (efCounters d) else v
  else if off = 0x40020 then emitLimitWrite d x v
  else if off = 0x40024 then drainLimitWrite d x v
  else if 0x40040 ≤ off ∧ off < 0x40060 then
    v.modFab (fun b => { b with staged := SMap.set 0 b.staged (d * 8 + (off - 0x40040) / 4) (fld x 0 4 + 1) })
  else if off = 0x40090 then linkSelWrite d x v
  else plainWrite (dieReg d off) x v

/-! ## The timetable network and the vat (R261) -/

/-- Ownership registers: a write with an owner encoding 4 to 6 is refused whole. -/
def ownersWrite (r : Reg) (n : Nat) (x : Word) (v : Dev) : Dev :=
  if (List.range n).all (fun i => decide (fld x (3 * i) 3 < 4) || fld x (3 * i) 3 == 7) then v.wrN r (fld x 0 (3 * n)) else v

/-- SN and VAT registers: the counters and the bank selection also from the debug port. -/
def snVatWrite (env : Env) (who : Party) (d off : Nat) (x : Word) (v : Dev) : Dev :=
  let r := dieReg d off
  let k := (off - 0xB0010) / 4
  if off = 0xA0000 then snWrite env who d true r (fun v => if bit x 0 then v.clearRegs (snCounters d) else v) v
  else if off = 0xB0000 then snWrite env who d true r (fun v => if bit x 0 then v.clearRegs (vatCounters d) else v) v
  else if off = 0xB0060 then snWrite env who d true r (bankSelWrite d x) v
  else if 0xA0010 ≤ off ∧ off < 0xA0020 then snWrite env who d false r (ownersWrite r 8 x) v
  else if 0xA0020 ≤ off ∧ off < 0xA0030 then snWrite env who d false r (ownersWrite r 4 x) v
  else if 0xB0010 ≤ off ∧ off < 0xB0050 then snWrite env who d false r (vatSetWrite env d k x) v
  else if off = 0xB0050 then snWrite env who d false r (fun v => v.wr r (x &&& 0x7F7F)) v
  else snWrite env who d false r (plainWrite r x) v

/-! ## Host ports (R304 to R318) -/

/-- A write to HP_FETCH_ADDR starts a fetch, unless one runs (R307). -/
def fetchStart (p : Nat) (x : Word) (v : Dev) : Dev :=
  let d := portDie p
  let u := portUnit p
  let v := v.wrN (HP_FETCH_ADDR d u) (fld x 0 27)
  if (v.port p).fetch.isSome then v
  else
    let r := HP_FETCH_DONE d u
    ((v.setF r 16 16 (v.fd r 16 16 + 1)).setB r 0 false).modPort p (fun h => { h with fetch := some (fld x 0 27) })

/-- A write at an offset of the HP block of port `p`, once it reaches it. -/
def hpPageWrite (env : Env) (p off : Nat) (x : Word) (v : Dev) : Dev :=
  if off = 4 then hpCtrlWrite p x env v
  else if off = 0x14 then lossTimeoutWrite p x v
  else if off = 0x18 then heartbeat p env v
  else if off = 0x20 then fetchStart p x v
  else plainWrite (dieReg (portDie p) (0x110000 + 0x1000 * portUnit p + off)) x v

/-! ## Bring-up -/

/-- A write at an offset of the BU block, once it reaches it. -/
def buPageWrite (env : Env) (off : Nat) (x : Word) (v : Dev) : Dev :=
  if off = 0 then buStepWrite env x v
  else if off = 8 then buCtrlWrite env x v
  else if off = 0x88 then buPadsWrite x v
  else plainWrite (dieReg env.master off) x v

/-! ## Frame units and SAFE_N (R284, R289) -/

/-- FR_SAFEN: RELEASE clears BOOT_HOLD, FORCE is stored. -/
def safenValue (env : Env) (x : Word) (v : Dev) : Dev :=
  let v := if bit x 1 then safenRelease env v else v
  v.setB (FR_SAFEN env.master) 2 (bit x 2)

/-! ## Faults (R385, R386, R398, R399) -/

/-- FC registers. -/
def fcRegWrite (env : Env) (who : Party) (d off : Nat) (x : Word) (v : Dev) : Dev :=
  let r := dieReg d off
  if off = 0x120000 then fcWrite env who d r (fcCtrlWrite env d x) v
  else if 0x120010 ≤ off ∧ off < 0x120020 then fcReactWrite who d ((off - 0x120010) / 4) x env v
  else if off = 0x120020 then fcSelWrite who d x env v
  else if off = 0x120044 then fcAckWrite who d x env v
  else if off = 0x120C00 then injUnlock who d (wordBytes [x]) env v
  else if 0x120C00 < off then injWrite env who d r (plainWrite r x) v
  else fcWrite env who d r (plainWrite r x) v

/-! ## Firmware, security and the crock (R403, R410, R411, R416) -/

/-- FW registers: FW_TRACE for the coach's host and firmware, FW_WDT_CFG for the secure monitor. -/
def fwRegWrite (env : Env) (who : Party) (d off : Nat) (x : Word) (v : Dev) : Dev :=
  let r := dieReg d off
  if off = 0x130008 then secureWrite env who d r (wdtWrite d x) v
  else if 0x130020 ≤ off then
    if mayWriteCoach v ((off - 0x130020) / 4) who then plainWrite r x v
    else debugGate env who d 4 r (if who = .debug then plainWrite r x else raiseSE env d 4 who (regAddr v r)) v
  else match who with
    | .port _ => raiseSE env d 4 who (regAddr v r) v
    | _ => v

/-- SEC_BLOCK: a unit becomes secure only while no coach owns it; the bit of an owned unit stays. -/
def secBlockWrite (r : Reg) (owned : Nat → Bool) (x : Word) (v : Dev) : Dev :=
  (List.range 16).foldl (fun v i => if owned i then v else v.setB r i (bit x i)) v

/-- A coach owns the unit of a bit of SEC_BLOCK0: churns, join units, frame units. -/
def unitOwned (v : Dev) (d i : Nat) : Bool :=
  if i < 4 then decide (v.churnOwner d i < 4)
  else if i < 8 then decide (v.fd (SN_OWN_VWJ d) (12 + 3 * (i - 4)) 3 < 4)
  else if i < 10 then decide (d < 2) && (v.fu (2 * d + (i - 8))).holder.isSome
  else true

/-- SEC registers. -/
def secRegWrite (env : Env) (who : Party) (d off : Nat) (x : Word) (v : Dev) : Dev :=
  let r := dieReg d off
  if 0x140400 ≤ off then
    if off = 0x1407FC then debugToken who d x env v
    else if debugOff v who then v
    else if who = .debug then v.wr r x
    else raiseSE env d 4 who (regAddr v r) v
  else if off = 0x140010 then secureWrite env who d r (secBlockWrite r (unitOwned v d) x) v
  else if off = 0x140014 then secureWrite env who d r (secBlockWrite r (fun k => decide (v.sepOwner d k < 4)) x) v
  else if 0x140140 ≤ off ∧ off < 0x140300 ∧ off % 8 = 4 then secureWrite env who d r (plainWrite r (setBit x 2 false)) v
  else if off = 0x140004 then
    secureWrite env who d r (fun v =>
      let v := plainWrite r x v
      if fld x 0 2 = 0 then v else { v with fw := { v.fw with debugged := true } }) v
  else secureWrite env who d r (plainWrite r x) v

/-! ## Clocks, power and PSRAM (R443, R461, R462, R478) -/

/-- CK registers. -/
def ckRegWrite (env : Env) (who : Party) (d off : Nat) (x : Word) (v : Dev) : Dev :=
  let r := dieReg d off
  if off = 0x160004 then ckSel who d x env v
  else if off = 0x160008 then unitWrite env who d r (pllEnWrite d x) v
  else unitWrite env who d r (plainWrite r x) v

/-- PM_LIMIT within the bounds of R443; a POWER record says that the limit changed (R459). -/
def limitWrite (env : Env) (x : Word) (v : Dev) : Dev :=
  if limitOk env.hw.part (ceiling env v) (fld x 0 11) then logPower env 6 (v.wrN (PM_LIMIT env.master) (fld x 0 11)) else v

/-- PM registers. -/
def pmRegWrite (env : Env) (who : Party) (d off : Nat) (x : Word) (v : Dev) : Dev :=
  let r := dieReg d off
  if off = 0x170020 then debugGate env who d 4 r (pmResetReq who x env) v
  else if off = 0x17001C then pmHostWrite env who d r (padRelease d (fld x 0 5)) v
  else if off = 0x170004 then unitWrite env who d r (limitWrite env x) v
  else if off = 0x170010 then unitWrite env who d r (thermWrite env x) v
  else if off = 0x170018 then unitWrite env who d r (floorWrite env x) v
  else unitWrite env who d r (plainWrite r x) v

/-- XR registers; whether a calibration finds a window is free. -/
def xrRegWrite (env : Env) (who : Party) (d off : Nat) (x : Word) (v : Dev) : Dev :=
  let r := dieReg d off
  if off = 0x180000 then unitWrite env who d r (xrCtrlWrite env who d x) v
  else if off = 0x180008 then unitWrite env who d r (xrTcsmWrite env who d x) v
  else if off = 0x18000C then
    unitWrite env who d r (fun v => if bit x 8 then xrRecal env who d (v.takeFree.1 % 2 == 1) v.takeFree.2 else v) v
  else unitWrite env who d r (plainWrite r x) v

/-! ## Any register of a die -/

/-- A die in warm reset answers at its through-way and at its host port blocks alone (R155, R308, R458; log entry 107). -/
def dieAnswers (v : Dev) (d off : Nat) : Bool := !v.dieDown.contains d || off / 0x10000 == 4 || off / 0x10000 == 0x11

/-- A write that reaches die `d`: an offset at which the die has no register ignores it (R11). -/
def dieRegWrite (env : Env) (who : Party) (d off : Nat) (x : Word) (v : Dev) : Dev :=
  if !env.hasReg d off || !dieAnswers v d off then v
  else match off / 0x10000 with
    | 0x0 => buWrite env who (dieReg d off) (buPageWrite env off x) v
    | 0x1 => tbWrite env who d off x v
    | 0x2 => timerWrite env who d off x v
    | 0x4 => efWrite env who d (dieReg d off) (efPageWrite env d off x) v
    | 0x6 => blockWrite env who d off x v
    | 0x7 => blockWrite env who d off x v
    | 0x8 => blockWrite env who d off x v
    | 0x9 => blockWrite env who d off x v
    | 0xA => snVatWrite env who d off x v
    | 0xB => snVatWrite env who d off x v
    | 0xC => blockWrite env who d off x v
    | 0xD => blockWrite env who d off x v
    | 0xE => blockWrite env who d off x v
    | 0xF => blockWrite env who d off x v
    | 0x10 => if off = 0x100200 then safenWrite env who (safenValue env x) v else blockWrite env who d off x v
    | 0x11 =>
      let p := 2 * d + (off - 0x110000) / 0x1000
      hpWrite env who p (dieReg d off) (hpPageWrite env p ((off - 0x110000) % 0x1000) x) v
    | 0x12 => fcRegWrite env who d off x v
    | 0x13 => fwRegWrite env who d off x v
    | 0x14 => secRegWrite env who d off x v
    | 0x15 => raiseSE env d 4 who (regAddr v (dieReg d off)) v
    | 0x16 => ckRegWrite env who d off x v
    | 0x17 => pmRegWrite env who d off x v
    | 0x18 => xrRegWrite env who d off x v
    | _ => v

/-! ## Host writes (R306) -/

/-- A chapter permits host writes to the register, from the port to which it is visible. -/
def hostMay (env : Env) (p off : Nat) : Bool :=
  match off / 0x10000 with
  | 0x0 => true
  | 0x1 => true
  | 0x2 => decide (off < 0x20C00) || off == 0x20C10
  | 0x3 => true
  | 0x5 => true
  | 0x11 => true
  | 0x12 => decide (0x120010 ≤ off) && decide (off < 0x120024)
  | 0x13 => decide (0x130020 ≤ off)
  | 0x17 => p == env.bringUpPort && (off == 0x17001C || off == 0x170020)
  | _ => false

/-- The owner in the SE record of a denied write: the coach that owns the register's block, else the device (R378). -/
def deniedOwner (v : Dev) (d off : Nat) : Nat :=
  if 0x100000 ≤ off ∧ off < 0x100200 then
    match (v.fu (2 * d + (off - 0x100000) / 0x100)).holder with
    | some g => g
    | none => 4
  else match regClass v d off with
  | .coach g => if g < 4 then v.coachOrDevice g else 4
  | _ => 4

/-- A host write to a register: it takes effect only if the register is visible to the port and its chapter permits it; else it is
dropped, counted and recorded. To the FC_INJ registers R398 gives a source of their own outside factory test mode. -/
def hostRegWrite (env : Env) (p d off : Nat) (x : Word) (v : Dev) : Dev :=
  if !env.hasReg d off then v
  else if visible env v p d off && hostMay env p off then dieRegWrite env (portParty p) d off x v
  else if decide (0x120C00 ≤ off) && decide (off < 0x121000) && !v.flt.factory then raiseInject env d (portParty p) v
  else raiseSE env d (deniedOwner v d off) (portParty p) (regAddr v (dieReg d off)) v

/-- A write to a register of a die by any requester. -/
def anyRegWrite (env : Env) (who : Party) (d off : Nat) (x : Word) (v : Dev) : Dev :=
  match who with
  | .port p => if env.hasReg d off then hostRegWrite env p.val d off x (seqCount env who d v) else v
  | _ => dieRegWrite env who d off x v

/-! ## The rows -/

/-- The die of a block. -/
def cntDie : CntBlock → Nat
  | .chn d _ => d.val
  | .sn d => d.val
  | .vat d => d.val
  | .sp d _ => d.val
  | .fr p => portDie p.val
  | .hp p => portDie p.val
  | .fc d => d.val
  | .xr d => d.val

/-- The clear write of a block. -/
def clrCnt (env : Env) (who : Party) (b : CntBlock) (v : Dev) : Dev :=
  let v := seqCount env who (cntDie b) v
  match b with
  | .chn d c => chnWrite env who d.val c.val (CHN_CTRL d.val c.val) (fun v => v.clearRegs (chnCounters d.val c.val)) v
  | .sn d => snVatWrite env who d.val 0xA0000 1 v
  | .vat d => snVatWrite env who d.val 0xB0000 1 v
  | .sp d k => spWrite env who d.val k.val (SP_CTRL d.val k.val) (fun v => v.clearRegs (spCounters d.val k.val)) v
  | .fr p => frWrite env who p.val (frCtrl p.val) (fun v => v.clearRegs (frCounters (portDie p.val) (portUnit p.val))) v
  | .hp p => hpWrite env who p.val (HP_CTRL (portDie p.val) (portUnit p.val)) (fun v => v.clearRegs (hpCounters p.val)) v
  | .fc d => fcWrite env who d.val (FC_CTRL d.val) (fcCtrlWrite env d.val 1) v
  | .xr d => unitWrite env who d.val (XR_CTRL d.val) (fun v => v.clearRegs (xrCounters d.val)) v

/-- CLR_CNT_WRITE: the other fields of the register are written as they stand. -/
def execClrCntWrite (who : Party) (b : CntBlock) (s : State) : Host.Outcome State Fault Refusal := .next (s.onDev (fun env => clrCnt env who b))

/-- A limit of 0 is refused with CFG_ERR, or disarms the emission limit (R146, R152, R190, R320). -/
def limitRegWrite (env : Env) (who : Party) (l : Limit) (x : Word) (v : Dev) : Dev :=
  match l with
  | .stall n => coreWrite env who n.val 0x408 (fun p => queueLimitWrite p true x) v
  | .reply n => coreWrite env who n.val 0x40C (fun p => queueLimitWrite p false x) v
  | .drain d => efWrite env who d.val (EF_DRAIN_LIMIT d.val) (drainLimitWrite d.val x) (seqCount env who d.val v)
  | .emit d => efWrite env who d.val (EF_EMIT_LIMIT d.val) (emitLimitWrite d.val x) (seqCount env who d.val v)
  | .loss p =>
    hpWrite env who p.val (HP_LOSS_TIMEOUT (portDie p.val) (portUnit p.val)) (lossTimeoutWrite p.val x) (seqCount env who (portDie p.val) v)

def execLimitWrite (who : Party) (l : Limit) (x : Word) (s : State) : Host.Outcome State Fault Refusal :=
  .next (s.onDev (fun env => limitRegWrite env who l x))

/-- Internal address of a register of die space or of the package-global space (R23). -/
def dieRegAddr (d off : Nat) : Nat := dieSpace d + 0x4000000000 + off
def globalAddr (off : Nat) : Nat := 0x200000000000 + off

/-- The registers of the package-global space (R23): the time base master, the aggregator, the crock and the package power registers. The
crock chapter gives its block's offset in that space; the others are taken at their own die offsets (DESIGN CHOICE, log entry 165). -/
def globalReg (off : Nat) : Bool :=
  off / 0x10000 == 1 || off / 0x10000 == 0x15 || off / 0x10000 == 0x17 || (decide (0x120800 ≤ off) && decide (off < 0x120C00))

/-- A write to a register by its place. The package-global space is decoded on the master die (R23). A host's window holds neither core space nor that space (R26), and an internal write to an
address that nothing maps is dropped with an IF record (R25). -/
def placeWrite (env : Env) (who : Party) (r : RegPlace) (x : Word) (v : Dev) : Dev :=
  if debugOff v who then v
  else match r with
  | .core n i => coreRegWrite env who n.val (4 * i.val) x v
  | .die d i =>
    if !isHost who && !env.has d.val then raiseMiss env who 4 accWrite (dieRegAddr d.val (4 * i.val)) v
    else anyRegWrite env who d.val (4 * i.val) x v
  | .global i =>
    if isHost who then v
    else if globalReg (4 * i.val) then anyRegWrite env who env.master (4 * i.val) x v
    else raiseMiss env who 4 accWrite (globalAddr (4 * i.val)) v

def execRegisterWrite (who : Party) (r : RegPlace) (x : Word) (s : State) : Host.Outcome State Fault Refusal :=
  .next (s.onDev (fun env => placeWrite env who r x))

/-- HP_FETCH_ADDR_WRITE. -/
def execHpFetchAddrWrite (who : Party) (p : Fin 4) (x : Word) (s : State) : Host.Outcome State Fault Refusal :=
  .next (s.onWrite who (portDie p.val) (fun env => hpWrite env who p.val (HP_FETCH_ADDR (portDie p.val) (portUnit p.val)) (fetchStart p.val x)))

end Sys2Proof.Machine
end

