-- ==== Sys2Proof/Machine/HostRegs.lean ====
section
/-! DEFINITION. The register shadow window as a host reads and writes it: the shadow store, the write queue, and the fetch handshake (R296,
R299 to R314). -/
namespace Sys2Proof.Machine

open Sys2Proof

/-! ## The shadow store (R300, R303, R304) -/

/-- The number of a register in a port's shadow store. -/
def shadowKey (d off : Nat) : Nat := d * 0x800000 + off

/-- The registers of a die as a port captures them: those whose value is not 0, in ascending order. -/
def captureDie (env : Env) (v : Dev) (p d : Nat) : SMap Word :=
  (List.range 0x200000).filterMap (fun i =>
    let x := portValue env v p d (4 * i)
    if x = 0 then none else some (shadowKey d (4 * i), x))

/-- SHADOW_RECAPTURE: every register of a die that is not frozen. -/
def shadowRecapture (p d : Nat) (env : Env) (v : Dev) : Dev :=
  if env.has d && v.portOpen p && !freezes env v p d then
    let new := captureDie env v p d
    v.modPort p (fun h =>
      { h with
        shadow := h.shadow.filter (fun e => decide (e.1 < shadowKey d 0)) ++ new ++ h.shadow.filter (fun e => decide (shadowKey (d + 1) 0 ≤ e.1)),
        frozen := h.frozen.filter (fun e => e != d) })
  else v

/-- What the shadow window shows for a register: the store, but the live value for the port's own HP block and the BU block. -/
def shadowValue (env : Env) (v : Dev) (p d off : Nat) : Word :=
  if readLive off then portValue env v p d off else SMap.get 0 (v.port p).shadow (shadowKey d off)

/-- A word of the shadow window (R296, R299, R301, R305). -/
def shadowWord (env : Env) (p a : Nat) (v : Dev) : Word × Dev :=
  let d := windowDie a
  let off := windowOff a
  if !served env v p a then (0, v)
  else if !visible env v p d off then (0, v.inc (HP_DENIED_RD (portDie p) (portUnit p)) 1)
  else if isHi off then (SMap.get 0 (v.port p).shHold (shadowKey d (off - 4)), v)
  else
    let x := shadowValue env v p d off
    if isLo off then
      let hi := shadowValue env v p d (off + 4)
      (x, v.modPort p (fun h => { h with shHold := SMap.set 0 h.shHold (shadowKey d off) hi }))
    else (x, v)

/-- The words of a read burst in ascending order, and the state after them. -/
def shadowWords (env : Env) (p : Nat) : List Nat → Dev → List Byte × Dev
  | [], v => ([], v)
  | a :: l, v =>
    let x := shadowWord env p a v
    let y := shadowWords env p l x.2
    (leBytes 4 x.1.toNat ++ y.1, y.2)

/-- The bytes of port SRAM for a read burst: 0 while it is closed (R299, R356). -/
def sramWords (env : Env) (v : Dev) (p a n : Nat) : List Byte :=
  if sramOpen env v p then v.ldCycle (v.cycle env (portDie p)) (sramMem p a) n else List.replicate n 0

/-- A read burst at a linear address of the window. -/
def readBurst (p a n : Nat) (env : Env) (v : Dev) : Dev :=
  if !v.takes p then v
  else
    let v := (v.awake (portDie p)).inc64 (HP_RD_BURSTS_LO (portDie p) (portUnit p)) (HP_RD_BURSTS_HI (portDie p) (portUnit p)) 1
    if a < 0x2000000 then v.modPort p (fun h => { h with rdata := sramWords env v p a n })
    else
      let x := shadowWords env p ((List.range (n / 4)).map (fun i => a + 4 * i)) v
      x.2.modPort p (fun h => { h with rdata := x.1 })

/-! ## Posted writes (R296, R311 to R314) -/

/-- One write enters the queue, or is dropped where it is full. -/
def enqueueWrite (p a : Nat) (x : Word) (v : Dev) : Dev :=
  if (v.port p).wq.length < 256 then v.modPort p (fun h => { h with wq := h.wq ++ [(a, x)] })
  else setAlert p 5 ((v.inc (HP_WQ_DROP (portDie p) (portUnit p)) 1).setB (hpStatus p) 5 true)

/-- The words of a write burst: address, value and bytes masked. -/
def burstWords (b : Burst) : List (Nat × Word × Nat) :=
  (List.range (b.size / 4)).map (fun i =>
    (b.addr + 4 * i, w32 (leAt b.data (4 * i) 4), (((b.masked.drop (4 * i)).take 4).filter (fun m => m)).length))

/-- One word of a write burst: a masked word is no write, a partly masked one is counted, a reserved one is dropped, and the others enter
the queue. -/
def burstWord (env : Env) (p : Nat) (v : Dev) (w : Nat × Word × Nat) : Dev :=
  if w.2.2 = 4 then v
  else if 0 < w.2.2 then v.inc (HP_PARTIAL_WR (portDie p) (portUnit p)) 1
  else if served env v p w.1 then enqueueWrite p w.1 w.2.1 v
  else v

/-- The whole burst is an access to the reserved range, to the window of a die that the part lacks, or to a port that is not open, but for
what the bring-up port serves (R296, R299). -/
def burstReserved (env : Env) (v : Dev) (p a : Nat) : Bool :=
  decide (0x6000000 ≤ a) || !env.has (windowDie a) || (!v.portOpen p && p != env.bringUpPort)

/-- HOST_REG_BURST. A reserved burst is counted once whatever its mask; in the window of a die, so is one with a write to an unmapped offset. -/
def hostRegBurst (p : Nat) (b : Burst) (env : Env) (v : Dev) : Dev :=
  if !v.takes p || decide (b.addr < 0x2000000) then v
  else
    let v := (v.awake (portDie p)).inc64 (HP_WR_BURSTS_LO (portDie p) (portUnit p)) (HP_WR_BURSTS_HI (portDie p) (portUnit p)) 1
    if burstReserved env v p b.addr then noteReserved p v
    else
      let v := if (burstWords b).any (fun w => w.2.2 == 0 && !served env v p w.1) then noteReserved p v else v
      (burstWords b).foldl (burstWord env p) v

/-- WRITE_QUEUE_APPLY: the oldest write, unless a fetch runs. HP_WRITE_SEQ counts it, whether it takes effect or is dropped. -/
def writeQueueApply (p : Nat) (env : Env) (v : Dev) : Dev :=
  match (v.port p).wq with
  | [] => v
  | (a, x) :: rest =>
    if (v.port p).fetch.isSome then v
    else
      let who := portParty p
      hostRegWrite env p (windowDie a) (windowOff a) x (seqCount env who (portDie p) ((v.awake (windowDie a)).modPort p (fun h => { h with wq := rest })))

/-! ## The fetch handshake (R307 to R309) -/

/-- A fetch ends: DATA and DONE, with ERR where it failed; HP_FETCHES and the alert. -/
def fetchEnd (p : Nat) (err : Bool) (x : Word) (v : Dev) : Dev :=
  let d := portDie p
  let u := portUnit p
  let v := (v.wr (HP_FETCH_DATA d u) x).setF (HP_FETCH_DONE d u) 0 2 (1 + 2 * b2n err)
  setAlert p 6 ((v.inc (HP_FETCHES d u) 1).modPort p (fun h => { h with fetch := none }))

/-- FETCH_DONE: the live read. -/
def fetchDone (p : Nat) (env : Env) (v : Dev) : Dev :=
  match (v.port p).fetch with
  | none => v
  | some a =>
    let d := windowDie a
    let off := windowOff a
    if a % 4 ≠ 0 ∨ a < 0x2000000 ∨ 0x6000000 ≤ a ∨ env.dies ≤ d then fetchEnd p true 0 v
    else if !env.hasReg d off then fetchEnd p false 0 v
    else if !served env v p a || !visible env v p d off then fetchEnd p true 0 (v.inc (HP_DENIED_RD (portDie p) (portUnit p)) 1)
    else if !dieAnswers v d off then fetchEnd p true 0 v
    else
      let x := liveRead env p d off (v.awake d)
      fetchEnd p false x.1 x.2

/-! ## The rows -/

/-- SHADOW_READ: a read burst anywhere in the window, or a read of the interface's own registers and FIFO. -/
def hostRead (p : Nat) (row : Fin 65536) (bank : Fin 16) (col : Fin 64) (kind : PortRead) (env : Env) (v : Dev) : Dev :=
  let burst (long : Bool) : Dev := let b : Burst := ⟨row, bank, col, long, [], []⟩; readBurst p b.addr b.size env v
  match kind with
  | .bl16 => burst false
  | .bl32 => burst true
  | _ => if v.takes p then trainingRead p kind v else v

def execShadowRead (p : Fin 4) (row : Fin 65536) (bank : Fin 16) (col : Fin 64) (kind : PortRead) (s : State) :
    Host.Outcome State Fault Refusal :=
  .next (s.onDev (hostRead p.val row bank col kind))
def execShadowRecapture (p : Fin 4) (d : Fin 8) (s : State) : Host.Outcome State Fault Refusal := .next (s.onDev (shadowRecapture p.val d.val))
/-- A burst whose data or mask is not as long as the burst is no burst. -/
def execHostRegBurst (p : Fin 4) (b : Burst) (s : State) : Host.Outcome State Fault Refusal :=
  if b.wellFormed then .next (s.onDev (hostRegBurst p.val b)) else .fault .illFormed
def execWriteQueueApply (p : Fin 4) (s : State) : Host.Outcome State Fault Refusal := .next (s.onDev (writeQueueApply p.val))
def execFetchDone (p : Fin 4) (s : State) : Host.Outcome State Fault Refusal := .next (s.onDev (fetchDone p.val))

end Sys2Proof.Machine
end

