-- ==== Sys2Proof/Machine/Dispatch.lean ====
section
/-! DEFINITION. Which meaning each command has: one arm per constructor. -/
namespace Sys2Proof.Machine

open Sys2Proof

/-- The effect of a command on everything but the queue. -/
def exec (i : Instr) (s : State) : Host.Outcome State Fault Refusal :=
  match i with
  | .openCoach p c => Sys2Proof.Machine.execOpenCoach p c s
  | .closeCoach p c => Sys2Proof.Machine.execCloseCoach p c s
  | .setRanks p c => Sys2Proof.Machine.execSetRanks p c s
  | .setPlacement p c => Sys2Proof.Machine.execSetPlacement p c s
  | .loadCores p c => Sys2Proof.Machine.execLoadCores p c s
  | .loadVat p c => Sys2Proof.Machine.execLoadVat p c s
  | .loadTimetable p c => Sys2Proof.Machine.execLoadTimetable p c s
  | .setRoutes p c => Sys2Proof.Machine.execSetRoutes p c s
  | .swapEpoch p c => Sys2Proof.Machine.execSwapEpoch p c s
  | .swapEpochDrained g => Sys2Proof.Machine.execSwapEpochDrained g s
  | .swapEpochTimeout g => Sys2Proof.Machine.execSwapEpochTimeout g s
  | .drain p c => Sys2Proof.Machine.execDrain p c s
  | .drainDone g => Sys2Proof.Machine.execDrainDone g s
  | .drainTimeout g => Sys2Proof.Machine.execDrainTimeout g s
  | .startRun p c => Sys2Proof.Machine.execStartRun p c s
  | .stopRun p c => Sys2Proof.Machine.execStopRun p c s
  | .step p c => Sys2Proof.Machine.execStep p c s
  | .generatorStop g => Sys2Proof.Machine.execGeneratorStop g s
  | .stepDone g => Sys2Proof.Machine.execStepDone g s
  | .readState p c => Sys2Proof.Machine.execReadState p c s
  | .snapshot p c => Sys2Proof.Machine.execSnapshot p c s
  | .restore p c => Sys2Proof.Machine.execRestore p c s
  | .fenceCore p c => Sys2Proof.Machine.execFenceCore p c s
  | .bringSpare p c => Sys2Proof.Machine.execBringSpare p c s
  | .marchRun p c found cut => Sys2Proof.Machine.execMarchRun p c found cut s
  | .bistRun p c found cut => Sys2Proof.Machine.execBistRun p c found cut s
  | .logRead p c => Sys2Proof.Machine.execLogRead p c s
  | .fwStage p c restart => Sys2Proof.Machine.execFwStage p c restart s
  | .fwActivate p c => Sys2Proof.Machine.execFwActivate p c s
  | .activationConfirm => Sys2Proof.Machine.execActivationConfirm s
  | .activationTimeout => Sys2Proof.Machine.execActivationTimeout s
  | .deferredActivationStart => Sys2Proof.Machine.execDeferredActivationStart s
  | .setOpp p c => Sys2Proof.Machine.execSetOpp p c s
  | .enterHold p c => Sys2Proof.Machine.execEnterHold p c s
  | .holdEntry => Sys2Proof.Machine.execHoldEntry s
  | .query p c => Sys2Proof.Machine.execQuery p c s
  | .attest p c => Sys2Proof.Machine.execAttest p c s
  | .timerCfg p c => Sys2Proof.Machine.execTimerCfg p c s
  | .queueInject p c => Sys2Proof.Machine.execQueueInject p c s
  | .deviceOpen p => Sys2Proof.Machine.execDeviceOpen p s
  | .cmdTake p => Sys2Proof.Machine.execCmdTake p s
  | .fwCommandTimeout p seq => Sys2Proof.Machine.execFwCommandTimeout p seq s
  | .ringConsume p log => Sys2Proof.Machine.execRingConsume p log s
  | .logDelivery p => Sys2Proof.Machine.execLogDelivery p s
  | .tickStart g => Sys2Proof.Machine.execTickStart g s
  | .close g => Sys2Proof.Machine.execClose g s
  | .fireEnd p => Sys2Proof.Machine.execFireEnd p s
  | .applyEnd p busy => Sys2Proof.Machine.execApplyEnd p busy s
  | .rowWriteBack p => Sys2Proof.Machine.execRowWriteBack p s
  | .pailInstant g => Sys2Proof.Machine.execPailInstant g s
  | .flagsClear g => Sys2Proof.Machine.execFlagsClear g s
  | .frameEnd g => Sys2Proof.Machine.execFrameEnd g s
  | .actionInstant g => Sys2Proof.Machine.execActionInstant g s
  | .actionPublish p => Sys2Proof.Machine.execActionPublish p s
  | .substituteDone p => Sys2Proof.Machine.execSubstituteDone p s
  | .tickInEdge pin rising width => Sys2Proof.Machine.execTickInEdge pin rising width s
  | .edgeMiss g => Sys2Proof.Machine.execEdgeMiss g s
  | .freewheelTick g => Sys2Proof.Machine.execFreewheelTick g s
  | .syncWord d => Sys2Proof.Machine.execSyncWord d s
  | .syncTimeout d => Sys2Proof.Machine.execSyncTimeout d s
  | .tbNowLoRead who d => Sys2Proof.Machine.execTbNowLoRead who d s
  | .cmpMatch d c => Sys2Proof.Machine.execCmpMatch d c s
  | .cmpMatchHiWrite who d c x => Sys2Proof.Machine.execCmpMatchHiWrite who d c x s
  | .cmpCtrlWrite who d c x => Sys2Proof.Machine.execCmpCtrlWrite who d c x s
  | .cmpPeriodWrite who d c x => Sys2Proof.Machine.execCmpPeriodWrite who d c x s
  | .processorHalt d bind => Sys2Proof.Machine.execProcessorHalt d bind s
  | .processorResume d bind => Sys2Proof.Machine.execProcessorResume d bind s
  | .capture d k pin rising width ago => Sys2Proof.Machine.execCapture d k pin rising width ago s
  | .capValueLoRead who d k => Sys2Proof.Machine.execCapValueLoRead who d k s
  | .tickOutPulseEnd k => Sys2Proof.Machine.execTickOutPulseEnd k s
  | .tgTimingWrite who g k x => Sys2Proof.Machine.execTgTimingWrite who g k x s
  | .tgCtrlClearSafe who g => Sys2Proof.Machine.execTgCtrlClearSafe who g s
  | .tgCtrlClrCnt who g => Sys2Proof.Machine.execTgCtrlClrCnt who g s
  | .eventArrival p => Sys2Proof.Machine.execEventArrival p s
  | .stateWriteApply p => Sys2Proof.Machine.execStateWriteApply p s
  | .ncCtrlEnable who n => Sys2Proof.Machine.execNcCtrlEnable who n s
  | .ncCtrlRestart who n => Sys2Proof.Machine.execNcCtrlRestart who n s
  | .coreResetDone p => Sys2Proof.Machine.execCoreResetDone p s
  | .ncCtrlClrCnt who n => Sys2Proof.Machine.execNcCtrlClrCnt who n s
  | .ncThreshWrite who n j x => Sys2Proof.Machine.execNcThreshWrite who n j x s
  | .ncPlCtrlEn who n => Sys2Proof.Machine.execNcPlCtrlEn who n s
  | .ncPlEpochWrite who n len => Sys2Proof.Machine.execNcPlEpochWrite who n len s
  | .ncPlEtaWrite who n eta => Sys2Proof.Machine.execNcPlEtaWrite who n eta s
  | .packetInject src => Sys2Proof.Machine.execPacketInject src s
  | .routerHop pid err wait => Sys2Proof.Machine.execRouterHop pid err wait s
  | .multicastReplicate pid => Sys2Proof.Machine.execMulticastReplicate pid s
  | .packetEject e => Sys2Proof.Machine.execPacketEject e s
  | .emitStallLimit p handed => Sys2Proof.Machine.execEmitStallLimit p handed s
  | .couplingReplay d edge => Sys2Proof.Machine.execCouplingReplay d edge s
  | .laneRepair d edge mdl => Sys2Proof.Machine.execLaneRepair d edge mdl s
  | .couplingDown d edge mdl => Sys2Proof.Machine.execCouplingDown d edge mdl s
  | .efCtrlDrouteCommit who d => Sys2Proof.Machine.execEfCtrlDrouteCommit who d s
  | .efCtrlClrCnt who d => Sys2Proof.Machine.execEfCtrlClrCnt who d s
  | .efLinkSelWrite who d x => Sys2Proof.Machine.execEfLinkSelWrite who d x s
  | .qmQOpen who n q => Sys2Proof.Machine.execQmQOpen who n q s
  | .qmQClose who n q => Sys2Proof.Machine.execQmQClose who n q s
  | .qmRdWrite who n q x => Sys2Proof.Machine.execQmRdWrite who n q x s
  | .qmArrival p => Sys2Proof.Machine.execQmArrival p s
  | .replyArrival p => Sys2Proof.Machine.execReplyArrival p s
  | .combPendingEmit p q => Sys2Proof.Machine.execCombPendingEmit p q s
  | .combAgePartial p q slot => Sys2Proof.Machine.execCombAgePartial p q slot s
  | .qmCCtrlEn who n c => Sys2Proof.Machine.execQmCCtrlEn who n c s
  | .qmCCtrlDoorbell who n c => Sys2Proof.Machine.execQmCCtrlDoorbell who n c s
  | .sendStart p c => Sys2Proof.Machine.execSendStart p c s
  | .relayTrigger p c => Sys2Proof.Machine.execRelayTrigger p c s
  | .sendRetry p c => Sys2Proof.Machine.execSendRetry p c s
  | .replyTimeout p c => Sys2Proof.Machine.execReplyTimeout p c s
  | .sendStalledOut p c => Sys2Proof.Machine.execSendStalledOut p c s
  | .qmInjGo who n x => Sys2Proof.Machine.execQmInjGo who n x s
  | .qmCtrlWrite who n x => Sys2Proof.Machine.execQmCtrlWrite who n x s
  | .limitWrite who l x => Sys2Proof.Machine.execLimitWrite who l x s
  | .weightBlockArrival d c => Sys2Proof.Machine.execWeightBlockArrival d c s
  | .passStart d c => Sys2Proof.Machine.execPassStart d c s
  | .outputStageStart d c => Sys2Proof.Machine.execOutputStageStart d c s
  | .outputStageEnd d c bank waited => Sys2Proof.Machine.execOutputStageEnd d c bank waited s
  | .pailRecord d => Sys2Proof.Machine.execPailRecord d s
  | .pailClearDone d c => Sys2Proof.Machine.execPailClearDone d c s
  | .mseWindowClose d c => Sys2Proof.Machine.execMseWindowClose d c s
  | .chnSeedWrite who d c q x => Sys2Proof.Machine.execChnSeedWrite who d c q x s
  | .chnMseWinWrite who d c x => Sys2Proof.Machine.execChnMseWinWrite who d c x s
  | .pailCtrlEn who d c => Sys2Proof.Machine.execPailCtrlEn who d c s
  | .clrCntWrite who b => Sys2Proof.Machine.execClrCntWrite who b s
  | .ttWordDeliver d g en r w => Sys2Proof.Machine.execTtWordDeliver d g en r w s
  | .barrierSignal k => Sys2Proof.Machine.execBarrierSignal k s
  | .couplingRelease d edge g => Sys2Proof.Machine.execCouplingRelease d edge g s
  | .vatUnschedAccess who d off data => Sys2Proof.Machine.execVatUnschedAccess who d off data s
  | .vatSetWrite who d k x => Sys2Proof.Machine.execVatSetWrite who d k x s
  | .vatBankSelWrite who d x => Sys2Proof.Machine.execVatBankSelWrite who d x s
  | .vatSpareMap d bank rows => Sys2Proof.Machine.execVatSpareMap d bank rows s
  | .spiWord d k waited => Sys2Proof.Machine.execSpiWord d k waited s
  | .spCtrlEn who d k => Sys2Proof.Machine.execSpCtrlEn who d k s
  | .frCtrlEn who p => Sys2Proof.Machine.execFrCtrlEn who p s
  | .spSeedWrite who d k x => Sys2Proof.Machine.execSpSeedWrite who d k x s
  | .frSafenRelease who => Sys2Proof.Machine.execFrSafenRelease who s
  | .frSafenForce who b => Sys2Proof.Machine.execFrSafenForce who b s
  | .hostSramWrite p b => Sys2Proof.Machine.execHostSramWrite p b s
  | .shadowRead p row bank col kind => Sys2Proof.Machine.execShadowRead p row bank col kind s
  | .shadowRecapture p d => Sys2Proof.Machine.execShadowRecapture p d s
  | .statusPageUpdate p => Sys2Proof.Machine.execStatusPageUpdate p s
  | .hostRegBurst p b => Sys2Proof.Machine.execHostRegBurst p b s
  | .writeQueueApply p => Sys2Proof.Machine.execWriteQueueApply p s
  | .registerWrite who r x => Sys2Proof.Machine.execRegisterWrite who r x s
  | .hpFetchAddrWrite who p x => Sys2Proof.Machine.execHpFetchAddrWrite who p x s
  | .fetchDone p => Sys2Proof.Machine.execFetchDone p s
  | .hpHeartbeat who p x => Sys2Proof.Machine.execHpHeartbeat who p x s
  | .modeRegisterWrite p fsp mr x op => Sys2Proof.Machine.execModeRegisterWrite p fsp mr x op s
  | .unsupportedCommand p => Sys2Proof.Machine.execUnsupportedCommand p s
  | .powerDown p => Sys2Proof.Machine.execPowerDown p s
  | .selfRefreshEntry p => Sys2Proof.Machine.execSelfRefreshEntry p s
  | .selfRefreshExit p => Sys2Proof.Machine.execSelfRefreshExit p s
  | .deepSleepEntry p => Sys2Proof.Machine.execDeepSleepEntry p s
  | .deepSleepExit p => Sys2Proof.Machine.execDeepSleepExit p s
  | .portReset p => Sys2Proof.Machine.execPortReset p s
  | .ckStopped p => Sys2Proof.Machine.execCkStopped p s
  | .heartbeatTimeout p => Sys2Proof.Machine.execHeartbeatTimeout p s
  | .portLossTimeout p => Sys2Proof.Machine.execPortLossTimeout p s
  | .perstNDeassert => Sys2Proof.Machine.execPerstNDeassert s
  | .powerDies who found => Sys2Proof.Machine.execPowerDies who found s
  | .lockPlls who found => Sys2Proof.Machine.execLockPlls who found s
  | .trainCouplings who found => Sys2Proof.Machine.execTrainCouplings who found s
  | .testMemory who found => Sys2Proof.Machine.execTestMemory who found s
  | .readCrock who auth => Sys2Proof.Machine.execReadCrock who auth s
  | .verifyFw who => Sys2Proof.Machine.execVerifyFw who s
  | .startFw who found => Sys2Proof.Machine.execStartFw who found s
  | .fwStartFallback found => Sys2Proof.Machine.execFwStartFallback found s
  | .loadMicrocode who found => Sys2Proof.Machine.execLoadMicrocode who found s
  | .knownAnswer who found => Sys2Proof.Machine.execKnownAnswer who found s
  | .bist who found => Sys2Proof.Machine.execBist who found s
  | .commitDefects who fails => Sys2Proof.Machine.execCommitDefects who fails s
  | .openPorts who => Sys2Proof.Machine.execOpenPorts who s
  | .buStepEnd late => Sys2Proof.Machine.execBuStepEnd late s
  | .buStepWriteRefused who x => Sys2Proof.Machine.execBuStepWriteRefused who x s
  | .buCtrlSafeRelease who x => Sys2Proof.Machine.execBuCtrlSafeRelease who x s
  | .buPadsWrite who x => Sys2Proof.Machine.execBuPadsWrite who x s
  | .pmPadReleaseWrite who d x => Sys2Proof.Machine.execPmPadReleaseWrite who d x s
  | .dieRebring d found => Sys2Proof.Machine.execDieRebring d found s
  | .faultRaise errs => Sys2Proof.Machine.execFaultRaise errs s
  | .aggOffer d owner cls => Sys2Proof.Machine.execAggOffer d owner cls s
  | .faultHandlerTake => Sys2Proof.Machine.execFaultHandlerTake s
  | .fcAckWrite who d x => Sys2Proof.Machine.execFcAckWrite who d x s
  | .fcReactWrite who d g x => Sys2Proof.Machine.execFcReactWrite who d g x s
  | .ageingRead readings => Sys2Proof.Machine.execAgeingRead readings s
  | .refclkLoss => Sys2Proof.Machine.execRefclkLoss s
  | .pllUnlock d p => Sys2Proof.Machine.execPllUnlock d p s
  | .fcInjUnlockWrite who d token => Sys2Proof.Machine.execFcInjUnlockWrite who d token s
  | .fcInjGo d => Sys2Proof.Machine.execFcInjGo d s
  | .watchdogExpiry d proc => Sys2Proof.Machine.execWatchdogExpiry d proc s
  | .ostlerCrash d k => Sys2Proof.Machine.execOstlerCrash d k s
  | .componentTrap d log => Sys2Proof.Machine.execComponentTrap d log s
  | .fwRestart d => Sys2Proof.Machine.execFwRestart d s
  | .fwRestartDone d ok => Sys2Proof.Machine.execFwRestartDone d ok s
  | .psramCrcError d comp off => Sys2Proof.Machine.execPsramCrcError d comp off s
  | .traceForward d => Sys2Proof.Machine.execTraceForward d s
  | .fwWdtCfgWrite who d x => Sys2Proof.Machine.execFwWdtCfgWrite who d x s
  | .secDbgToken who d x => Sys2Proof.Machine.execSecDbgToken who d x s
  | .crockDetChange high => Sys2Proof.Machine.execCrockDetChange high s
  | .crockAuthFail restore => Sys2Proof.Machine.execCrockAuthFail restore s
  | .crockLifeThreshold life spares erase => Sys2Proof.Machine.execCrockLifeThreshold life spares erase s
  | .emergencyBegin x => Sys2Proof.Machine.execEmergencyBegin x s
  | .emergencyStep => Sys2Proof.Machine.execEmergencyStep s
  | .emergencyEnd x => Sys2Proof.Machine.execEmergencyEnd x s
  | .recoveryStep => Sys2Proof.Machine.execRecoveryStep s
  | .oppStep => Sys2Proof.Machine.execOppStep s
  | .thermtrip => Sys2Proof.Machine.execThermtrip s
  | .wake => Sys2Proof.Machine.execWake s
  | .dieIdleEntry d => Sys2Proof.Machine.execDieIdleEntry d s
  | .powerOnReset msel testmode smbAddr fit => Sys2Proof.Machine.execPowerOnReset msel testmode smbAddr fit s
  | .packageColdReset => Sys2Proof.Machine.execPackageColdReset s
  | .pmResetReqPackageWarm who x => Sys2Proof.Machine.execPmResetReqPackageWarm who x s
  | .pmResetReqDieWarm who x => Sys2Proof.Machine.execPmResetReqDieWarm who x s
  | .ckSelSwitch who d x => Sys2Proof.Machine.execCkSelSwitch who d x s
  | .ckSwitchDone d p => Sys2Proof.Machine.execCkSwitchDone d p s
  | .ckHang d p => Sys2Proof.Machine.execCkHang d p s
  | .ckSelForce who d x => Sys2Proof.Machine.execCkSelForce who d x s
  | .ckSelDomrst who d x => Sys2Proof.Machine.execCkSelDomrst who d x s
  | .pmThermWrite who floor x => Sys2Proof.Machine.execPmThermWrite who floor x s
  | .avsFault => Sys2Proof.Machine.execAvsFault s
  | .xrCtrlWrite who d tcsm x => Sys2Proof.Machine.execXrCtrlWrite who d tcsm x s
  | .xrCalRecal who d ok => Sys2Proof.Machine.execXrCalRecal who d ok s
  | .smbusRead code use => Sys2Proof.Machine.execSmbusRead code use s
  | .smbusAlertResponse => Sys2Proof.Machine.execSmbusAlertResponse s
  | .idcode => Sys2Proof.Machine.execIdcode s
  | .bypass => Sys2Proof.Machine.execBypass s
  | .samplePreload cells => Sys2Proof.Machine.execSamplePreload cells s
  | .extest => Sys2Proof.Machine.execExtest s
  | .clamp => Sys2Proof.Machine.execClamp s
  | .highz => Sys2Proof.Machine.execHighz s
  | .debug => Sys2Proof.Machine.execDebug s
  | .powerDownExit p => Sys2Proof.Machine.execPowerDownExit p s
  | .portResetRelease p => Sys2Proof.Machine.execPortResetRelease p s
  | .couplingRetrainDone d edge mdl => Sys2Proof.Machine.execCouplingRetrainDone d edge mdl s
  | .vcoreEnHigh => Sys2Proof.Machine.execVcoreEnHigh s
  | .ostlerRestartDone d k => Sys2Proof.Machine.execOstlerRestartDone d k s
  | .componentRestartDone d log => Sys2Proof.Machine.execComponentRestartDone d log s
  | .closeDrainLimit g => Sys2Proof.Machine.execCloseDrainLimit g s
  | .portAvailable p => Sys2Proof.Machine.execPortAvailable p s

end Sys2Proof.Machine
end

