-- ==== Sys2Proof/WellFormed.lean ====
section
/-! DEFINITION. Which commands a bus could carry: the checks that a command's operands pass before its meaning runs. -/
namespace Sys2Proof

/-- The write burst that a command carries, if it carries one (R294, R297, R311). -/
def Instr.writeBurst : Instr → Option Burst
  | .hostSramWrite _ b => some b
  | .hostRegBurst _ b => some b
  | _ => none

/-- A write burst gives every byte of the burst and its mask; every other operand's type admits only what its bus, pin or ring entry can
carry. -/
def Instr.wellFormed (i : Instr) : Bool :=
  match i.writeBurst with
  | some b => b.wellFormed
  | none => true

end Sys2Proof
end

