-- ==== Sys2Proof/Safety.lean ====
section
/-! DEFINITION. What a good state and a safe step are, in the terms the statements use. -/
namespace Sys2Proof.Safety

open Sys2Proof Sys2Proof.Machine

/-- The step goes on: neither a fault nor a refusal. -/
def Goes (o : Host.Outcome State Fault Refusal) : Prop := ∃ t, o = .next t

/-- The byte of memory at a model address, in a state. -/
def readByte (s : State) (a : Nat) : Byte := s.dev.ld a

/-- The memory is in its canonical form. -/
def MemOk (s : State) : Prop := Memory.wf s.dev.mem

/-- A register of the package, in a state. -/
def reg (s : State) (r : Reg) : Word := s.dev.rd r

/-- The pieces of a package's state; `recent` is the part of `net` that holds the last writes of vats and port SRAM. -/
inductive Piece where
  | regs | latch | rdata | mem | freeCtr | tick | bus | cores | fab | place | flt | churns | net | seps | fus | ports | coaches
  | traces | fw | crock | bu | pw | pins | dieDown | recent
  deriving DecidableEq, Repr

/-- The package `v` with one piece of it as `w` has it. -/
def taking (w v : Dev) : Piece → Dev
  | .regs => { v with regs := w.regs }
  | .latch => { v with latch := w.latch }
  | .rdata => { v with rdata := w.rdata }
  | .mem => { v with mem := w.mem }
  | .freeCtr => { v with freeCtr := w.freeCtr }
  | .tick => { v with tick := w.tick }
  | .bus => { v with bus := w.bus }
  | .cores => { v with cores := w.cores }
  | .fab => { v with fab := w.fab }
  | .place => { v with place := w.place }
  | .flt => { v with flt := w.flt }
  | .churns => { v with churns := w.churns }
  | .net => { v with net := w.net }
  | .seps => { v with seps := w.seps }
  | .fus => { v with fus := w.fus }
  | .ports => { v with ports := w.ports }
  | .coaches => { v with coaches := w.coaches }
  | .traces => { v with traces := w.traces }
  | .fw => { v with fw := w.fw }
  | .crock => { v with crock := w.crock }
  | .bu => { v with bu := w.bu }
  | .pw => { v with pw := w.pw }
  | .pins => { v with pins := w.pins }
  | .dieDown => { v with dieDown := w.dieDown }
  | .recent => { v with net := { v.net with recentWr := w.net.recentWr } }

/-- From `s` to `t` only the listed pieces of the package change: the straps, the time base, the queue and every other piece are as in `s`. -/
def ChangesOnly (s t : State) (l : List Piece) : Prop :=
  t.hw = s.hw ∧ t.clk = s.clk ∧ t.pending = s.pending ∧ t.dev = l.foldl (taking t.dev) s.dev

/-- Every register that is none of the list reads as before. -/
def RegsExcept (s t : State) (l : List Reg) : Prop := ∀ r : Reg, (∀ q ∈ l, r.key ≠ q.key) → reg t r = reg s r

/-- Nothing changes but these registers. -/
def OnlyRegs (s t : State) (l : List Reg) : Prop := ChangesOnly s t [.regs] ∧ RegsExcept s t l

/-- The capture registers of a die that an internal event may write (R64). -/
def eventCaptureRegs (d : Nat) : List Reg := [4, 5, 6, 7].flatMap (fun k => [CAP_STATUS d k, CAP_VALUE_LO d k])

/-- The register that counts the writes which a port applies (R314). -/
def seqRegs : Party → List Reg
  | .port p => [HP_WRITE_SEQ (portDie p.val) (portUnit p.val)]
  | _ => []

/-- The registers that count a host's dropped write (R306, R314). -/
def deniedRegs : Party → List Reg
  | .port p => [HP_WRITE_SEQ (portDie p.val) (portUnit p.val), HP_DENIED_WR (portDie p.val) (portUnit p.val)]
  | _ => []

/-- Domain `p` of die `d` has its clock and is not held in reset (R436): CHK 0, NCK 1, FCK 2, MCK 3, TBK 4, PER 5. -/
def Clocked (s : State) (d p : Nat) : Prop := s.dev.still d p = false

/-- No write to the vat or port SRAM of an address is recorded after one with this place among the writes of a CHK cycle. -/
def NoneAfter (s : State) (a cyc : Nat) (rank : Nat := 0) : Prop :=
  ∀ w ∈ s.dev.net.recentWr, memDie w.addr = memDie a → 4 * w.cyc + w.rank ≤ 4 * cyc + rank

/-- The requester's accesses reach the registers: it is no debug port, or one that is selected and open (R415, R416, R482). -/
def reaches (s : State) (who : Party) : Prop := debugOff s.dev who = false ∧ debugShut s.env s.dev who = false

/-- A party's write reaches the registers of core number `n` at physical core `p` (R24, R26, R415): the number's core is in service, the
party is no host and may write it, and no closed debug port stands between. -/
def writesCore (s : State) (who : Party) (n : CoreNo) (p : Nat) : Prop :=
  s.dev.reach s.env n.val = some p ∧ isHost who = false ∧ mayWriteCore s.dev p who = true ∧ reaches s who

/-- A port's rings are in force: three of them, below the host page, for an interface that is open (R322, R325), and no write of its die is
recorded after what the device writes now, in a later cycle or later in this one (R237). -/
def ringed (s : State) (p : Nat) : Prop :=
  (s.dev.port p).bases.length = 3 ∧ (s.dev.port p).logs.length = 3 ∧ (∀ r ∈ (s.dev.port p).rings, r.1 + r.2 ≤ hostPage)
    ∧ NoneAfter s (sramMem p 0) (s.dev.cycle s.env (portDie p))

/-- Where a port's next completion is written (R329). -/
def cplAt (s : State) (p : Nat) : Nat :=
  sramMem p ((s.dev.port p).base 1 + (s.dev.port p).cplProd % (s.dev.port p).slots 1 * 32)

/-- The package as a command's work finds it: the command has left its lane and the port's die is awake. -/
def begun (s : State) (p : Nat) (c : Cmd) : Dev :=
  (s.dev.setLane p (laneOf c.bytes) ((s.dev.lane p (laneOf c.bytes)).drop 1)).awake (portDie p)

/-- A command with opcode `op` starts now and passes the state check (R335, R341, R345), on a port with rings. -/
def ready (s : State) (p : Nat) (c : Cmd) (op : Nat) : Prop :=
  startable s.env s.dev p c op = true ∧ stateCheck s.env s.dev p c.bytes = none ∧ ringed s p

/-- A completion of a running command stands in the ring, its index has advanced and its alert cause is set (R329, R333). -/
def Written (s t : State) (p : Nat) (r : Running) (st detail : Nat) (result : List Byte) : Prop :=
  t.dev.ldBytes (cplAt s p) 32 = completionBytes r st detail result
    ∧ (t.dev.port p).cplProd = ((s.dev.port p).cplProd + 1) % 0x100000000 ∧ t.dev.fb (hpAlert p) 0 = true
    ∧ t.hw = s.hw ∧ t.clk = s.clk ∧ t.pending = s.pending

/-- A command has left its lane and completed. -/
def Completes (s t : State) (p : Nat) (c : Cmd) (st detail : Nat) (result : List Byte) : Prop :=
  Written s t p (runningOf s.env p c) st detail result ∧ t.dev.lane p (laneOf c.bytes) = (s.dev.lane p (laneOf c.bytes)).drop 1
    ∧ (t.dev.port p).running = (s.dev.port p).running

/-- A command has left its lane and goes on, with the number that its completion needs. -/
def GoesOn (s t : State) (p : Nat) (c : Cmd) (aux : Nat) : Prop :=
  (t.dev.port p).running = (s.dev.port p).running ++ [{ runningOf s.env p c with aux := aux }]
    ∧ t.dev.lane p (laneOf c.bytes) = (s.dev.lane p (laneOf c.bytes)).drop 1 ∧ t.hw = s.hw ∧ t.clk = s.clk ∧ t.pending = s.pending

/-- A command has left its lane and goes on with copies to or from vats, to complete with OK after the last (R235). -/
def Copies (s t : State) (p : Nat) (c : Cmd) (l : List VatCopy) : Prop :=
  (t.dev.port p).running = (s.dev.port p).running ++ [{ runningOf s.env p c with copies := l, st := stOk, detail := 0 }]
    ∧ t.dev.lane p (laneOf c.bytes) = (s.dev.lane p (laneOf c.bytes)).drop 1 ∧ t.hw = s.hw ∧ t.clk = s.clk ∧ t.pending = s.pending

/-- A command that ran has completed. -/
def Ends (s t : State) (p : Nat) (r : Running) (st : Nat) (result : List Byte) : Prop :=
  Written s t p r st 0 result ∧ (t.dev.port p).running = (s.dev.port p).running.erase r

/-- Registers that starting or completing a command of a port writes. -/
def cmdRegs (p : Nat) : List Reg :=
  [PM_STATUS (portDie p), hpAlert p, FW_TRACE (portDie p) 0, FW_TRACE (portDie p) 1, FW_TRACE (portDie p) 2, FW_TRACE (portDie p) 3]

/-- A record of a class and owner stands in a die's collector. -/
def Recorded (t : State) (d owner cls : Nat) : Prop := t.dev.slot (slotKey d owner cls) ≠ none

/-- The rows of the commands whose work needs nothing beside the port and the command, with opcode and handler. -/
def commandRows (p : Fin 4) (c : Cmd) : List (Instr × Nat × Handler) :=
  [(.openCoach p c, 0x01, openCoachCmd), (.closeCoach p c, 0x02, closeCoachCmd), (.setRanks p c, 0x03, setRanksCmd),
   (.setPlacement p c, 0x04, setPlacementCmd), (.loadCores p c, 0x05, loadCoresCmd), (.loadVat p c, 0x06, loadVatCmd),
   (.loadTimetable p c, 0x07, loadTimetableCmd), (.setRoutes p c, 0x08, setRoutesCmd), (.swapEpoch p c, 0x09, swapEpochCmd),
   (.drain p c, 0x0A, drainCmd), (.startRun p c, 0x0B, startRunCmd), (.stopRun p c, 0x0C, stopRunCmd), (.step p c, 0x0D, stepCmd),
   (.readState p c, 0x0E, readStateCmd), (.restore p c, 0x10, restoreCmd), (.fenceCore p c, 0x11, fenceCoreCmd),
   (.bringSpare p c, 0x12, bringSpareCmd), (.logRead p c, 0x15, logReadCmd), (.fwStage p c false, 0x16, fwStageCmd .whole),
   (.fwActivate p c, 0x17, fwActivateCmd), (.setOpp p c, 0x18, setOppCmd), (.enterHold p c, 0x19, enterHoldCmd),
   (.timerCfg p c, 0x1B, timerCfgCmd), (.queueInject p c, 0x1C, queueInjectCmd)]

/-- Commands whose meaning writes nothing but the package: straps and time bases stay as they are. -/
def keepsTime (i : Instr) : Bool :=
  match i with
  | .powerOnReset .. => false
  | .packageColdReset .. => false
  | .thermtrip .. => false
  | .refclkLoss .. => false
  | .pllUnlock .. => false
  | .syncWord .. => false
  | .trainCouplings .. => false
  | _ => true

/-- The time bases are as only R31 and R32 leave them: the list of copies is canonical and names only dies of the part, and increments are
withheld from followers alone, from each at most once. -/
def TimeInv (s : State) : Prop :=
  SMap.sorted s.clk.tb = true ∧ SMap.noDefault (fun _ => 0) s.clk.tb = true ∧ (∀ e ∈ s.clk.tb, e.1 < s.env.dies)
    ∧ s.clk.withhold.Nodup ∧ (∀ d ∈ s.clk.withhold, s.env.follower d = true)

/-- The rows that set every time base to 0: power-on reset and what takes a package cold reset (R31, R456). -/
def zeroesTime (s : State) (i : Instr) : Bool :=
  match i with
  | .powerOnReset .. => true
  | .packageColdReset => true
  | .thermtrip => true
  | .refclkLoss => true
  | .pllUnlock d p => s.env.has d.val && s.dev.fb (CK_STATUS d.val) p.val && decide (d.val = s.env.master)
  | _ => false

end Sys2Proof.Safety
end

