-- ==== Sys2Proof/Certificates/Slice0/Obligations.lean ====
section
/-! DEFINITION. The statements for the provers. Each docstring says what it formalises and names the rules of spec/. -/

open Sys2Proof Sys2Proof.Machine Sys2Proof.Safety

/-- For every command c and state s: with c at the front of its queue, step of s is exec of c on s with the queue's rest, whatever exec answers. With an empty queue step answers the state in which the time bases have counted one cycle (the model's choice, log entry 3). -/
def Obligations.StepTakesTheFrontCommand : Prop :=
  (∀ (c : Instr) (rest : List Instr) (s : State), s.pending = c :: rest → step s = exec c { s with pending := rest })
  ∧ (∀ s : State, s.pending = [] → step s = .next { s with clk := Clock.tick s.env.dies s.clk })

/-- For every command and every state: a command whose operands a bus can carry answers a next state, and a write burst whose data or mask is not as long as the burst stops with the fault illFormed. Nothing is refused. -/
def Obligations.EveryWellFormedCommandCompletes : Prop :=
  ∀ (i : Instr) (s : State),
    (i.wellFormed = true → ∃ t, exec i s = .next t) ∧ (i.wellFormed = false → exec i s = .fault .illFormed)

/-- For every command and every state, when exec answers a next state, its queue is the queue before. -/
def Obligations.CommandsLeaveTheQueue : Prop :=
  ∀ (i : Instr) (s t : State), exec i s = .next t → t.pending = s.pending

/-- For every command and every state with a next state: the part stays; every strap stays unless the command is POWER_ON_RESET; and the time bases and withheld increments stay unless the command is a power-on reset, what takes a package cold reset, SYNC_WORD or TRAIN_COUPLINGS. -/
def Obligations.OnlyTimedRowsTouchTime : Prop :=
  ∀ (i : Instr) (s t : State), exec i s = .next t →
    t.hw.part = s.hw.part
    ∧ ((∀ a b c e, i ≠ .powerOnReset a b c e) → t.hw = s.hw)
    ∧ (keepsTime i = true → t.clk = s.clk)

/-- For every state that meets TimeInv (the list of time-base copies is canonical, names only dies of the part, and increments are withheld from followers alone and from each at most once), if step answers a next state, that state meets TimeInv. -/
def Obligations.TimeInvariantKept : Prop :=
  ∀ s t : State, TimeInv s → step s = .next t → TimeInv t

/-- TimeInv holds of State.reset, and the reset memory is in its canonical form. -/
def Obligations.TimeInvariantAtReset : Prop :=
  TimeInv State.reset ∧ MemOk State.reset

/-- For every state with TimeInv and every step to a next state: with an empty queue the master's copy counts one and a follower's copy counts one or, where its increment is withheld, none; with a command in front the master's copy is unchanged, unless the command is a power-on reset or takes a package cold reset, which sets every copy to 0. That an idle step is one cycle is the model's choice (log entry 3). -/
def Obligations.MasterTimeBaseIsNeverSet : Prop :=
  ∀ s t : State, TimeInv s → step s = .next t →
    (s.pending = [] → t.clk.now s.env.master = s.clk.now s.env.master + 1
      ∧ ∀ d, s.env.follower d = true →
          t.clk.now d = if s.clk.withhold.contains d then s.clk.now d else s.clk.now d + 1)
    ∧ (∀ i rest, s.pending = i :: rest →
        (zeroesTime s i = false → t.clk.now s.env.master = s.clk.now s.env.master)
        ∧ (zeroesTime s i = true → ∀ d, t.clk.now d = 0))

/-- At every follower d SYNC_WORD answers a next state in which, if the follower may slew (aligning is enabled, its offset is not 0 and its last slew lies 1,024 ns back), its copy is one higher when it was behind the master and has its next increment withheld when it was ahead, and the time of the slew is kept; if it may not, no copy changes. Every other die's copy is as before; the offset, clamped to 8 bits, stands in TB_ALIGN, ALIGNED is 0 where the offset is beyond ±2 ns, and the time of the word is kept. At the master or an absent die nothing changes. -/
def Obligations.FollowersSlewByOne : Prop :=
  ∀ (d : Fin 8) (s : State),
    (s.env.follower d.val = true → ∃ t, exec (.syncWord d) s = .next t
      ∧ (maySlew d.val s.env s.dev = true → s.env.offset d.val < 0 → t.clk.now d.val = s.clk.now d.val + 1)
      ∧ (maySlew d.val s.env s.dev = true → 0 < s.env.offset d.val → t.clk.now d.val = s.clk.now d.val ∧ d.val ∈ t.clk.withhold)
      ∧ (maySlew d.val s.env s.dev = true → SMap.get 0 t.dev.tick.lastSlew d.val = s.env.nowOf d.val)
      ∧ (maySlew d.val s.env s.dev = false → t.clk = s.clk ∧ t.dev.tick.lastSlew = s.dev.tick.lastSlew)
      ∧ (∀ e, e ≠ d.val → t.clk.now e = s.clk.now e)
      ∧ (reg t (TB_ALIGN d.val)).toNat % 256 = ofSigned 8 (clampI (-127) 127 (s.env.offset d.val))
      ∧ (s.env.offset d.val < -2 ∨ 2 < s.env.offset d.val → bit (reg t (TB_ALIGN d.val)) 8 = false)
      ∧ SMap.get 0 t.dev.tick.lastSync d.val = s.env.nowOf d.val
      ∧ t.dev.mem = s.dev.mem ∧ t.hw = s.hw)
    ∧ (s.env.follower d.val = false → exec (.syncWord d) s = .next s)

/-- On a die of the part and for a requester whose accesses reach the registers, TB_NOW_LO_READ answers bits [31:0] of the die's copy and latches bits [63:32] for that requester and pair, changing no other holding register and nothing else. CAP_VALUE_LO_READ does the same with the captured time and clears FULL; with FULL set by a capture in the same cycle it answers and latches the value from before it, keeps FULL, and leaves OVERRUN as it was before that capture. A read by a closed debug port answers 0 and leaves the holding registers. -/
def Obligations.LoReadsLatchTheHighHalf : Prop :=
  ∀ (who : Party) (d k : Fin 8) (s : State), s.env.has d.val = true →
    let lo := CAP_VALUE_LO d.val k.val
    let st := CAP_STATUS d.val k.val
    let i := d.val * 8 + k.val
    let answers (x : Nat) (t : State) : Prop := exec (.capValueLoRead who d k) s = .next t
      ∧ SMap.get 0 t.dev.rdata (partyNum who) = w32 x ∧ t.dev.getLatch who lo = w32 (x / 0x100000000)
      ∧ (∀ w l, latchKey w l ≠ latchKey who lo → t.dev.getLatch w l = s.dev.getLatch w l)
      ∧ RegsExcept s t [st] ∧ ChangesOnly s t [.regs, .latch, .rdata]
    (reaches s who →
      (∃ t, exec (.tbNowLoRead who d) s = .next t
        ∧ SMap.get 0 t.dev.rdata (partyNum who) = w32 (s.env.nowOf d.val)
        ∧ t.dev.getLatch who (TB_NOW_LO d.val) = w32 (s.env.nowOf d.val / 0x100000000)
        ∧ (∀ w l, latchKey w l ≠ latchKey who (TB_NOW_LO d.val) → t.dev.getLatch w l = s.dev.getLatch w l)
        ∧ ChangesOnly s t [.latch, .rdata])
      ∧ ((∀ x, SMap.get none s.dev.tick.capPast i = some x → x.at' ≠ s.env.nowOf d.val ∨ bit (reg s st) 0 = false) →
          ∃ t, answers (SMap.get 0 s.dev.tick.cap i) t ∧ bit (reg t st) 0 = false ∧ bit (reg t st) 1 = bit (reg s st) 1)
      ∧ (∀ x, SMap.get none s.dev.tick.capPast i = some x → x.at' = s.env.nowOf d.val → bit (reg s st) 0 = true →
          ∃ t, answers x.value t ∧ bit (reg t st) 0 = true ∧ bit (reg t st) 1 = x.overrun))
    ∧ (debugOff s.dev who = false → debugShut s.env s.dev who = true →
        ∃ t, exec (.tbNowLoRead who d) s = .next t ∧ SMap.get 0 t.dev.rdata (partyNum who) = 0 ∧ t.dev.latch = s.dev.latch)

/-- For every compare channel of a die of the part whose timer block is clocked that is enabled, not taken over by a running generator and not frozen: once the die's time has reached its next-match value, or, after a write that made it late, the increment after the write, CMP_MATCH sets FIRED, sets LATE when the match was late, interrupts the bound processor once if IRQ_EN names one, clears EN in one-shot mode, and in periodic mode makes the next match that time + CMP_PERIOD; no memory changes and no register but the channel's and those of the capture channels that an internal event may reach. When the channel is disabled, taken over or frozen, or the time lies ahead, nothing changes. -/
def Obligations.CompareMatchFires : Prop :=
  ∀ (d : Fin 8) (c : Fin 64) (s : State), s.env.has d.val = true →
    let r := CMP_CTRL d.val c.val
    let h := s.dev.cmpCh d.val c.val
    let hit := match h.lateAt with
      | some t => t + 1
      | none => h.next
    (bit (reg s r) 0 = true → cmpServes s.env s.dev d.val c.val = false → cmpFrozen s.dev d.val c.val = false →
        hit ≤ s.env.nowOf d.val → Clocked s d.val 4 →
      ∃ t, exec (.cmpMatch d c) s = .next t
        ∧ bit (reg t r) 16 = true
        ∧ bit (reg t r) 17 = (bit (reg s r) 17 || h.lateAt.isSome)
        ∧ bit (reg t r) 0 = bit (reg s r) 1
        ∧ (bit (reg s r) 1 = true → (t.dev.cmpCh d.val c.val).next = hit + (reg s (CMP_PERIOD d.val c.val)).toNat)
        ∧ (t.dev.cmpCh d.val c.val).last = some hit ∧ (t.dev.cmpCh d.val c.val).lateAt = none
        ∧ (∀ b, SMap.get 0 t.dev.tick.irq (d.val * 8 + b)
            = SMap.get 0 s.dev.tick.irq (d.val * 8 + b) + b2n (bit (reg s r) 6 && decide (cmpBind (reg s r) = b) && decide (b ≠ 0)))
        ∧ RegsExcept s t ([r, CMP_MATCH_LO d.val c.val, CMP_MATCH_HI d.val c.val] ++ eventCaptureRegs d.val)
        ∧ ChangesOnly s t [.regs, .tick])
    ∧ (bit (reg s r) 0 = false ∨ cmpServes s.env s.dev d.val c.val = true ∨ cmpFrozen s.dev d.val c.val = true ∨ s.env.nowOf d.val < hit →
        exec (.cmpMatch d c) s = .next s)

/-- Writes to a compare channel of a die of the part that no running generator has taken over; a match that is due in the write's cycle is taken first and sets FIRED. For the channel's owner: a CMP_MATCH_HI write commits the value with the buffered low half, to match late at the next increment when the channel is enabled and the value is not in the future; a CMP_PERIOD write stores the period, on an armed periodic channel disarms with ERR for 0 and else makes the next match the last match + the period; and a CMP_CTRL write stores bits [6:1], arms with EN unless the channel would be periodic with period 0, which sets ERR, and keeps OWNER. A CMP_CTRL write of firmware that names another OWNER sets OWNER, and the rest where the channel is then firmware's (the model's reading, log entry 115). Any other write from a party that may not write leaves the channel as it is, with a record in the SE slot of the channel's owner on that die; a write of one that may, and firmware's of another OWNER, while a generator has taken the channel over does so with a record in the IF slot (the model's choice where both rules apply, log entry 164). -/
def Obligations.CompareWritesTakeEffect : Prop :=
  ∀ (who : Party) (d : Fin 8) (c : Fin 64) (x : Word) (s : State), s.env.has d.val = true →
    let r := CMP_CTRL d.val c.val
    let h := s.dev.cmpCh d.val c.val
    let now := s.env.nowOf d.val
    let due := cmpDue s.env d.val c.val s.dev
    let armed := if due.isSome then bit (reg s r) 1 else bit (reg s r) 0
    let mine := [r, CMP_MATCH_LO d.val c.val, CMP_MATCH_HI d.val c.val] ++ eventCaptureRegs d.val ++ seqRegs who
    let handsOn := isFirmware who && decide (fld x 28 3 ≠ fld (reg s r) 28 3)
    let o := ownerOf3 (s.dev.fd r 28 3)
    let stays (i : Instr) (cls : Nat) (more : List Reg) : Prop := ∃ t, exec i s = .next t ∧ t.dev.cmpCh d.val c.val = h
      ∧ t.dev.slot (slotKey d.val o cls) ≠ none
      ∧ RegsExcept s t ([FC_CNT d.val o cls, TG_STATUS s.env.master o] ++ more) ∧ ChangesOnly s t [.regs, .tick, .flt]
    (mayWriteOwned s.dev (s.dev.fd r 28 3) who = true → cmpServes s.env s.dev d.val c.val = false →
      (∃ t, exec (.cmpMatchHiWrite who d c x) s = .next t
        ∧ (t.dev.cmpCh d.val c.val).next = x.toNat * 0x100000000 + h.buf
        ∧ (t.dev.cmpCh d.val c.val).lateAt = (if armed && decide (x.toNat * 0x100000000 + h.buf ≤ now) then some now else none)
        ∧ bit (reg t r) 16 = (bit (reg s r) 16 || due.isSome) ∧ bit (reg t r) 0 = armed
        ∧ RegsExcept s t mine ∧ ChangesOnly s t [.regs, .tick])
      ∧ (∃ t, exec (.cmpPeriodWrite who d c x) s = .next t
        ∧ reg t (CMP_PERIOD d.val c.val) = x ∧ bit (reg t r) 16 = (bit (reg s r) 16 || due.isSome)
        ∧ (bit (reg s r) 0 = true → bit (reg s r) 1 = true → x = 0 → bit (reg t r) 0 = false ∧ bit (reg t r) 18 = true)
        ∧ (bit (reg s r) 0 = true → bit (reg s r) 1 = true → x ≠ 0 → ∀ l, due = some l ∨ (due = none ∧ h.last = some l) →
            (t.dev.cmpCh d.val c.val).next = l + x.toNat
            ∧ (t.dev.cmpCh d.val c.val).lateAt = (if l + x.toNat ≤ now then some now else none))
        ∧ (bit (reg s r) 0 = false ∨ bit (reg s r) 1 = false → due = none → t.dev.tick = s.dev.tick ∧ reg t r = reg s r)
        ∧ RegsExcept s t (CMP_PERIOD d.val c.val :: mine) ∧ ChangesOnly s t [.regs, .tick])
      ∧ (handsOn = false →
        let zero := bit x 0 && bit x 1 && reg s (CMP_PERIOD d.val c.val) == 0
        ∃ t, exec (.cmpCtrlWrite who d c x) s = .next t
          ∧ fld (reg t r) 1 6 = fld x 1 6
          ∧ bit (reg t r) 0 = (bit x 0 && !zero)
          ∧ bit (reg t r) 18 = ((bit (reg s r) 18 && !bit x 18) || decide (6 ≤ fld x 3 3) || zero)
          ∧ bit (reg t r) 16 = ((bit (reg s r) 16 || due.isSome) && !bit x 16)
          ∧ fld (reg t r) 28 3 = fld (reg s r) 28 3
          ∧ (bit x 0 && !zero && !bit (reg s r) 0 = true →
              (t.dev.cmpCh d.val c.val).lateAt = (if h.next ≤ now then some now else none))
          ∧ RegsExcept s t mine ∧ ChangesOnly s t [.regs, .tick]))
    ∧ (handsOn = true → cmpServes s.env s.dev d.val c.val = false →
        ∃ t, exec (.cmpCtrlWrite who d c x) s = .next t ∧ fld (reg t r) 28 3 = fld x 28 3
          ∧ (fld x 28 3 ≠ 4 → fld (reg t r) 0 28 = fld (reg s r) 0 28 ∧ OnlyRegs s t [r])
          ∧ (fld x 28 3 = 4 → fld (reg t r) 1 6 = fld x 1 6)
          ∧ RegsExcept s t mine ∧ ChangesOnly s t [.regs, .tick])
    ∧ (mayWriteOwned s.dev (s.dev.fd r 28 3) who = false →
        stays (.cmpMatchHiWrite who d c x) clsSE (deniedRegs who) ∧ stays (.cmpPeriodWrite who d c x) clsSE (deniedRegs who)
        ∧ (handsOn = false → stays (.cmpCtrlWrite who d c x) clsSE (deniedRegs who)))
    ∧ (mayWriteOwned s.dev (s.dev.fd r 28 3) who = true → cmpServes s.env s.dev d.val c.val = true →
        stays (.cmpMatchHiWrite who d c x) clsIF (seqRegs who) ∧ stays (.cmpPeriodWrite who d c x) clsIF (seqRegs who)
        ∧ stays (.cmpCtrlWrite who d c x) clsIF (seqRegs who))
    ∧ (handsOn = true → cmpServes s.env s.dev d.val c.val = true → stays (.cmpCtrlWrite who d c x) clsIF [])

/-- Where the die's timer block is clocked, a capture of an edge that its channel takes stores the die's time when the edge reached the pin, sets FULL, sets OVERRUN when FULL was set, and keeps what it replaces for a read in its cycle; one that it does not take changes nothing. A halt of a processor 1 to 5 enters it among the halted ones, a resume removes it; a follower without a sync word for 16,384 ns loses alignment (LOST set, ALIGNED clear, TB_ALIGN_LOSS one higher, saturating); and a pulse whose width has passed ends. -/
def Obligations.CaptureAndHalts : Prop :=
  (∀ (d k : Fin 8) (pin : Fin 4) (rising : Bool) (width ago : Nat) (s : State), s.env.has d.val = true →
      (captureTakes s.env s.dev d.val k.val pin.val rising width = true → Clocked s d.val 4 →
        ∃ t, exec (.capture d k pin rising width ago) s = .next t
          ∧ SMap.get 0 t.dev.tick.cap (d.val * 8 + k.val) = s.env.nowOf d.val - ago
          ∧ bit (reg t (CAP_STATUS d.val k.val)) 0 = true
          ∧ bit (reg t (CAP_STATUS d.val k.val)) 1 = (bit (reg s (CAP_STATUS d.val k.val)) 1 || bit (reg s (CAP_STATUS d.val k.val)) 0)
          ∧ SMap.get none t.dev.tick.capPast (d.val * 8 + k.val)
              = some ⟨s.env.nowOf d.val, SMap.get 0 s.dev.tick.cap (d.val * 8 + k.val), bit (reg s (CAP_STATUS d.val k.val)) 1⟩
          ∧ RegsExcept s t [CAP_STATUS d.val k.val, CAP_VALUE_LO d.val k.val] ∧ ChangesOnly s t [.regs, .tick])
      ∧ (captureTakes s.env s.dev d.val k.val pin.val rising width = false → exec (.capture d k pin rising width ago) s = .next s))
  ∧ (∀ (d b : Fin 8) (s : State), s.env.has d.val = true → 1 ≤ b.val → b.val ≤ 5 →
      (s.dev.tick.halted.contains (d.val * 8 + b.val) = false →
        ∃ t, exec (.processorHalt d b) s = .next t ∧ t.dev.tick.halted = (d.val * 8 + b.val) :: s.dev.tick.halted
          ∧ ChangesOnly s t [.regs, .tick])
      ∧ (s.dev.tick.halted.contains (d.val * 8 + b.val) = true →
        ∃ t, exec (.processorResume d b) s = .next t ∧ t.dev.tick.halted = s.dev.tick.halted.filter (fun y => y ≠ d.val * 8 + b.val)
          ∧ ChangesOnly s t [.regs, .tick]))
  ∧ (∀ (d : Fin 8) (s : State), s.env.follower d.val = true → SMap.get 0 s.dev.tick.lastSync d.val ≠ 0 →
      SMap.get 0 s.dev.tick.lastSync d.val + 16384 ≤ s.env.nowOf d.val →
      ∃ t, exec (.syncTimeout d) s = .next t ∧ fld (reg t (TB_ALIGN d.val)) 8 2 = 2
        ∧ reg t (TB_ALIGN_LOSS d.val) = satAdd32 (reg s (TB_ALIGN_LOSS d.val)) 1 ∧ ChangesOnly s t [.regs, .tick, .flt])
  ∧ (∀ (k : Fin 4) (s : State) (e : Nat), SMap.get none s.dev.tick.pulse k.val = some e → e ≤ s.env.now →
      ∃ t, exec (.tickOutPulseEnd k) s = .next t ∧ SMap.get none t.dev.tick.pulse k.val = none ∧ ChangesOnly s t [.tick])

/-- A party that may write for coach g: while generator g runs, a timing write is held pending, PENDING is set and no timing register changes; while it stands, the register takes the value's implemented bits. CLEAR_SAFE clears HOLD_SAFE at once (the model's reading, log entry 14). CLR_CNT makes every counter of R57 read 0. Nothing else changes but HP_WRITE_SEQ, where a port writes. From any other party each of the three leaves the generator and its registers, and a record in the SE slot of the coach, or of the device where the coach is not open. -/
def Obligations.GeneratorWritesTakeEffect : Prop :=
  ∀ (who : Party) (g : Fin 4) (k : Fin 5) (x : Word) (s : State),
    let m := s.env.master
    (mayWriteCoach s.dev g.val who = true →
      (s.dev.genRuns s.env g.val = true →
        ∃ t, exec (.tgTimingWrite who g k x) s = .next t
          ∧ bit (reg t (TG_STATUS m g.val)) 6 = true
          ∧ t.dev.gen g.val = { s.dev.gen g.val with pend := (s.dev.gen g.val).pend ++ [(k.val, timingMask k.val x)] }
          ∧ RegsExcept s t (TG_STATUS m g.val :: seqRegs who) ∧ ChangesOnly s t [.regs, .tick])
      ∧ (s.dev.genRuns s.env g.val = false →
        ∃ t, exec (.tgTimingWrite who g k x) s = .next t
          ∧ reg t (timingReg m g.val k.val) = timingMask k.val x ∧ OnlyRegs s t (timingReg m g.val k.val :: seqRegs who))
      ∧ (∃ t, exec (.tgCtrlClearSafe who g) s = .next t ∧ bit (reg t (TG_STATUS m g.val)) 3 = false
          ∧ (∀ i, i ≠ 3 → bit (reg t (TG_STATUS m g.val)) i = bit (reg s (TG_STATUS m g.val)) i)
          ∧ OnlyRegs s t (TG_STATUS m g.val :: seqRegs who))
      ∧ (∃ t, exec (.tgCtrlClrCnt who g) s = .next t ∧ (∀ r ∈ tgCounters m g.val, reg t r = 0)
          ∧ OnlyRegs s t (tgCounters m g.val ++ seqRegs who)))
    ∧ (mayWriteCoach s.dev g.val who = false → ∀ i ∈ [Instr.tgTimingWrite who g k x, .tgCtrlClearSafe who g, .tgCtrlClrCnt who g],
        ∃ t, exec i s = .next t
          ∧ t.dev.slot (slotKey m (s.dev.coachOrDevice g.val) clsSE) ≠ none
          ∧ RegsExcept s t ([FC_CNT m (s.dev.coachOrDevice g.val) clsSE, TG_STATUS m (s.dev.coachOrDevice g.val)] ++ deniedRegs who)
          ∧ ChangesOnly s t [.regs, .tick, .flt])

/-- For a generator g that alone runs slaved to a pin, not stepping, with no held timing write (a stepping generator, and one with held timing writes, are left out): an edge that the pin's settings take is accepted when it is the first or comes from P − W to P + W after the previous accepted edge, and a start LEAD later is distributed; a closer one counts TG_EDGE_EARLY, leaves a DL record and is not accepted; one that ends a stall or a freewheel clears both, drops the freewheel ticks not yet started, and its tick starts LEAD after the later of the edge and the action instant of the tick before, the ticks that earlier edges started keeping their starts (the model's reading, log entry 128). An edge the settings do not take changes nothing. A missing edge counts TG_EDGE_MISS, leaves a DL record, and either stalls the generator or freewheels it with a start at the previous edge + P + W + LEAD; a further freewheel tick that is due is distributed P after the last. -/
def Obligations.SlavedEdges : Prop :=
  (∀ (pin g : Fin 4) (rising : Bool) (width : Nat) (s : State),
      let m := s.env.master
      let cap := CAP_CTRL m pin.val
      let h := s.dev.gen g.val
      let lead := s.dev.fd (TG_SLAVE m g.val) 0 16
      let taken := edgeTaken (s.dev.fd cap 1 2) rising && decide (s.dev.fd cap 12 4 * 4 ≤ width) && !s.dev.fb (PM_PAD_RELEASE m) 20
      let accepted (t : State) (start : Nat) (kept : List NextTick) : Prop :=
        (t.dev.gen g.val).prevEdge = some s.env.now ∧ (t.dev.gen g.val).next.length = kept.length + 1
        ∧ (t.dev.gen g.val).next.take kept.length = kept
        ∧ (t.dev.gen g.val).next.getLast?.map (fun n => (n.start, n.free)) = some (start, false)
        ∧ t.dev.mem = s.dev.mem ∧ ChangesOnly s t [.regs, .tick, .net, .cores]
      (taken = false → exec (.tickInEdge pin rising width) s = .next s)
      ∧ (taken = true → s.dev.genRuns s.env g.val = true → s.dev.fb (TG_CTRL m g.val) 1 = true →
          s.dev.fd (TG_CTRL m g.val) 2 2 = pin.val → h.stepping = false → h.pend = [] →
          (∀ q, q < 4 → q ≠ g.val → s.dev.genRuns s.env q = false ∨ s.dev.fb (TG_CTRL m q) 1 = false ∨ s.dev.fd (TG_CTRL m q) 2 2 ≠ pin.val) →
        (s.dev.fb (TG_STATUS m g.val) 4 = false → s.dev.fb (TG_STATUS m g.val) 5 = false →
          (h.prevEdge = none ∨ (∃ e, h.prevEdge = some e ∧ h.inForce.period - h.inForce.window ≤ s.env.now - e
              ∧ s.env.now - e ≤ h.inForce.period + h.inForce.window) →
            ∃ t, exec (.tickInEdge pin rising width) s = .next t ∧ accepted t (s.env.now + lead) h.next)
          ∧ (∀ e, h.prevEdge = some e → s.env.now - e < h.inForce.period - h.inForce.window →
            ∃ t, exec (.tickInEdge pin rising width) s = .next t
              ∧ reg t (TG_EDGE_EARLY m g.val) = satAdd32 (reg s (TG_EDGE_EARLY m g.val)) 1
              ∧ t.dev.slot (slotKey m g.val clsDL) ≠ none
              ∧ (t.dev.gen g.val).prevEdge = h.prevEdge ∧ (t.dev.gen g.val).next = h.next
              ∧ ChangesOnly s t [.regs, .tick, .flt]))
        ∧ (s.dev.fb (TG_STATUS m g.val) 4 = true ∨ s.dev.fb (TG_STATUS m g.val) 5 = true →
          let kept := h.next.filter (fun x => !x.free)
          ∃ t, exec (.tickInEdge pin rising width) s = .next t ∧ fld (reg t (TG_STATUS m g.val)) 4 2 = 0
            ∧ accepted t (max s.env.now (lastAction { h with next := kept }) + lead) kept)))
  ∧ (∀ (g : Fin 4) (s : State) (e : Nat),
      let m := s.env.master
      let h := s.dev.gen g.val
      missDue s.env g.val s.dev = some e →
      ∃ t, exec (.edgeMiss g) s = .next t
        ∧ reg t (TG_EDGE_MISS m g.val) = satAdd32 (reg s (TG_EDGE_MISS m g.val)) 1
        ∧ t.dev.slot (slotKey m g.val clsDL) ≠ none
        ∧ (h.inForce.stall = true → bit (reg t (TG_STATUS m g.val)) 4 = true ∧ (t.dev.gen g.val).next = h.next)
        ∧ (h.inForce.stall = false → h.pend = [] → bit (reg t (TG_STATUS m g.val)) 5 = true
            ∧ (t.dev.gen g.val).next.getLast?.map (fun n => (n.start, n.free))
                = some (e + h.inForce.period + h.inForce.window + s.dev.fd (TG_SLAVE m g.val) 0 16, true))
        ∧ ChangesOnly s t [.regs, .tick, .flt, .net, .cores])
  ∧ (∀ (g : Fin 4) (s : State) (s0 : Nat),
      let m := s.env.master
      let h := s.dev.gen g.val
      s.dev.genRuns s.env g.val = true → s.dev.fb (TG_STATUS m g.val) 5 = true → h.stopReq = false →
      (h.next.getLast?.map (fun n => n.start) = some s0 ∨ (h.next = [] ∧ h.cur.map (fun c => c.start) = some s0)) →
      (s0 + h.inForce.period ≤ s.env.now + h.inForce.lead →
        ∃ t, exec (.freewheelTick g) s = .next t
          ∧ (t.dev.gen g.val).next.getLast?.map (fun n => (n.start, n.free)) = some (s0 + h.inForce.period, true)
          ∧ reg t (TG_EDGE_MISS m g.val) = reg s (TG_EDGE_MISS m g.val)
          ∧ ChangesOnly s t [.regs, .tick, .net, .cores])
      ∧ (s.env.now + h.inForce.lead < s0 + h.inForce.period → exec (.freewheelTick g) s = .next s))

/-- CLOSE closes the current tick on every die that has begun it, not yet closed it and reached S + TG_CLOSE on its own copy: a joined and enabled core of the coach there whose clock runs folds the tick and begins its fire, or keeps the close for after the fire that still runs; its open tick is one higher, and no other core's state changes. PAIL_INSTANT comes on every die that has closed the tick and reached S + TG_PAIL: a core whose fire still runs sets OVERRAN; with the first die the coach's unfinished timetable work is abandoned, counted and recorded, a due swap makes the inactive tables active, and the frame begins; with the last an overrun tick is counted, or the run of them ends. Where the core's clock runs, a FIRE_END whose last event and last pail record are handed over ends the fire, reports its late events, applies held writes and begins a fold that waits; while pail records wait for the tile's hub it leaves the core as it is, and one held with events left changes nothing. A fire that has stalled to its limit drops, counts and records the events left and ends, unless pail records wait. A close or pail instant that no die has reached changes nothing. -/
def Obligations.TickPhasesInOrder : Prop :=
  (∀ (g : Fin 4) (s : State) (c : CurTick), (s.dev.gen g.val).cur = some c →
      let v := s.dev
      let closing := (diesDue s.env v (c.start + c.set.close) c.closedOn).filter (fun d => c.begun.contains d)
      let pailing := (diesDue s.env v (c.start + c.set.pail) c.pailedOn).filter (fun d => c.closedOn.contains d)
      let overrun := c.overran || pailing.any (fun d => !(overruns v g.val d).isEmpty)
      (closing = [] → exec (.close g) s = .next s)
      ∧ (closing ≠ [] → ∃ t, exec (.close g) s = .next t
        ∧ (t.dev.gen g.val).cur.map (fun x => (x.n, x.start, x.closedOn)) = some (c.n, c.start, c.closedOn ++ closing)
        ∧ (∀ n p, (n, p) ∈ v.coachCores g.val → pDie p ∈ closing → (v.core p).joined = true → v.enabled p = true → Clocked s (pDie p) 1 →
            (t.dev.core p).openTick = c.n + 1 ∧ fld (reg t (NC_STATUS p)) 8 8 = (c.n + 1) % 256
            ∧ ((v.core p).fire = none → (t.dev.core p).fire.map (·.tick) = some c.n ∧ bit (reg t (NC_STATUS p)) 6 = true)
            ∧ (∀ f, (v.core p).fire = some f → (t.dev.core p).fire.map (·.tick) = some f.tick ∧ c.n ∈ (t.dev.core p).closes))
        ∧ (∀ p, (∀ n, (n, p) ∉ v.coachCores g.val) → t.dev.core p = v.core p)
        ∧ ChangesOnly s t [.regs, .mem, .tick, .bus, .cores, .fab, .flt])
      ∧ (pailing = [] → exec (.pailInstant g) s = .next s)
      ∧ (pailing ≠ [] → ∃ t, exec (.pailInstant g) s = .next t
        ∧ (t.dev.gen g.val).cur.map (fun x => (x.n, x.start, x.pailedOn)) = some (c.n, c.start, c.pailedOn ++ pailing)
        ∧ (∀ d ∈ pailing, ∀ p ∈ overruns v g.val d, bit (reg t (NC_STATUS p)) 7 = true)
        ∧ (c.pailedOn = [] →
            (∀ n, workOf s.env v g.val = some n →
              reg t (TG_TT_ABANDON s.env.master g.val) = satAdd32 (reg s (TG_TT_ABANDON s.env.master g.val)) 1
              ∧ t.dev.slot (slotKey s.env.master g.val clsDL) ≠ none)
            ∧ (swapDue v g.val c.n = true → ∀ d, d < s.env.dies → t.dev.table d g.val = SMap.get none v.net.inactive (d * 4 + g.val))
            ∧ (swapDue v g.val c.n = false → ∀ d, t.dev.table d g.val = v.table d g.val)
            ∧ (∀ f, t.dev.frame g.val = some f → f.tick = c.n ∧ f.start = c.start + c.set.pail))
        ∧ (∀ p, unitOf v g.val = some p → portDie p ∈ pailing → (t.dev.fu p).tick = c.n ∧ (t.dev.fu p).published = false)
        ∧ ((v.liveDies s.env).all (fun d => (c.pailedOn ++ pailing).contains d) = true →
            (overrun = true → reg t (TG_OVR_TICKS s.env.master g.val) = satAdd32 (reg s (TG_OVR_TICKS s.env.master g.val)) 1)
            ∧ (overrun = false → fld (reg t (TG_STATUS s.env.master g.val)) 8 8 = 0))
        ∧ t.dev.cores = v.cores ∧ t.dev.mem = v.mem))
  ∧ (∀ (p : Phys) (s : State) (f : Fire), (s.dev.core p.idx).fire = some f → Clocked s (pDie p.idx) 1 →
      let n := p.idx
      let k := s.dev.core n
      let g := s.dev.coreOwner n
      let ended (t : State) : Prop :=
        (t.dev.core n).held = [] ∧ (t.dev.core n).lateN = 0 ∧ (t.dev.core n).staleN = 0
        ∧ fld (reg t (NC_FIRE_CYCLES n)) 0 16 = min (fireCycles f) 65535
        ∧ (g < 4 → t.dev.rd64 (TG_LATE_LO s.env.master g) (TG_LATE_HI s.env.master g)
            = min (s.dev.rd64 (TG_LATE_LO s.env.master g) (TG_LATE_HI s.env.master g) + k.lateN) 0xFFFFFFFFFFFFFFFF)
        ∧ (k.closes = [] → (t.dev.core n).fire = none ∧ bit (reg t (NC_STATUS n)) 6 = false)
        ∧ (∀ x rest, k.closes = x :: rest → (t.dev.core n).fire.map (·.tick) = some x ∧ (t.dev.core n).closes = rest)
        ∧ (∀ o, o ≠ n → t.dev.core o = s.dev.core o)
      (f.out = [] → f.recs = [] → ∃ t, exec (.fireEnd p) s = .next t ∧ ended t)
      ∧ (f.out = [] → f.recs ≠ [] → ∃ t, exec (.fireEnd p) s = .next t ∧ t.dev.core n = k ∧ ChangesOnly s t [.fab])
      ∧ (f.out ≠ [] → fireHeld s.env s.dev n = true → exec (.fireEnd p) s = .next s)
      ∧ (f.out ≠ [] → emitStalled s.env s.dev n f = true → ∃ t, exec (.emitStallLimit p f.sent) s = .next t
        ∧ (f.recs = [] → ended t)
        ∧ (f.recs ≠ [] → (t.dev.core n).fire.map (fun x => (x.tick, x.out, x.recs)) = some (f.tick, [], f.recs))
        ∧ reg t (EF_EMIT_DROP (pDie n)) = satAdd32 (reg s (EF_EMIT_DROP (pDie n))) f.out.length
        ∧ (s.env.has (pDie n) = true → t.dev.slot (slotKey (pDie n) g clsDL) ≠ none))
      ∧ (∀ handed, f.out = [] ∨ f.sent ≠ handed ∨ emitStalled s.env s.dev n f = false → exec (.emitStallLimit p handed) s = .next s))

/-- For a generator that runs with no stop asked for, whose last tick has passed its instants and whose distributed start a running die has reached on its own copy, TICK_START makes it the current tick, begun on the dies that have reached it. Where the master has, TG_TICK reads its number plus one and TG_CUR_START its start (as 64-bit numbers); from the internal source, outside a STEP, the start one period later is distributed last; and a tick that starts without an edge counts TG_EDGE_MISS and leaves a DL record. The reaction that was owed to the tick is its reaction, unless its missing edge brings a stronger one. With nothing more distributed, a die that reaches the current tick's start later begins it then. Before its start, or with nothing distributed and no die left to begin, nothing changes. -/
def Obligations.TickStartsWhenDue : Prop :=
  ∀ (g : Fin 4) (s : State),
    let m := s.env.master
    let h := s.dev.gen g.val
    (∀ x rest, h.next = x :: rest → s.dev.genRuns s.env g.val = true → h.stopReq = false → tickPassed s.env s.dev h = true →
        diesDue s.env s.dev x.start [] ≠ [] →
      ∃ t, exec (.tickStart g) s = .next t
        ∧ (t.dev.gen g.val).cur.map (fun c => (c.n, c.start, c.set, c.begun)) = some (x.n, x.start, x.set, diesDue s.env s.dev x.start [])
        ∧ (x.free = false ∨ x.set.slaved = false → (t.dev.gen g.val).cur.map (·.react) = some h.reactNext)
        ∧ (x.set.slaved = true ∨ h.stepping = true → (t.dev.gen g.val).next = rest)
        ∧ (m ∈ diesDue s.env s.dev x.start [] →
            t.dev.rd64 (TG_TICK_LO m g.val) (TG_TICK_HI m g.val) = (x.n + 1) % 0x10000000000000000
            ∧ t.dev.rd64 (TG_CUR_START_LO m g.val) (TG_CUR_START_HI m g.val) = x.start % 0x10000000000000000
            ∧ (x.set.slaved = false → h.stepping = false →
                (t.dev.gen g.val).next.getLast?.map (fun n => (n.start, n.free)) = some (x.start + x.set.period, false))
            ∧ (x.set.slaved = true → x.free = true →
                reg t (TG_EDGE_MISS m g.val) = satAdd32 (reg s (TG_EDGE_MISS m g.val)) 1 ∧ t.dev.slot (slotKey m g.val clsDL) ≠ none))
        ∧ t.dev.mem = s.dev.mem)
    ∧ (∀ c, h.next = [] → h.cur = some c →
        ∃ t, exec (.tickStart g) s = .next t
          ∧ (t.dev.gen g.val).cur.map (fun x => (x.n, x.start, x.begun)) = some (c.n, c.start, c.begun ++ diesDue s.env s.dev c.start c.begun)
          ∧ t.dev.mem = s.dev.mem)
    ∧ ((∀ c, h.cur = some c → diesDue s.env s.dev c.start c.begun = []) →
        (h.next = [] ∨ (∃ x rest, h.next = x :: rest ∧ diesDue s.env s.dev x.start [] = [])) → exec (.tickStart g) s = .next s)

/-- For a party whose write reaches the core that holds a core number: ENABLE of a disabled core whose layout, and plasticity where enabled, pass their checks arms it; where a check fails, LAYOUT_ERR is set, the core stays disabled and an IF record is left. RESTART by firmware or the engine puts the core in reset with its counters at 0, out of its coach's ticks, its waiting messages gone. CLR_CNT clears its counters. A threshold is stored, with THR_BAD of its entry and THR_ERR for a value outside 1 to 8,388,607. Learning is enabled on a disabled core at position 0, and refused with an IF record on an enabled one. A learning epoch length that is not 0 is stored and 0 disarms; a rate is stored. A host port's write changes nothing, whatever its row; any other party's write to a number that no core in service holds changes no core and leaves an IF record. -/
def Obligations.CoreWritesTakeEffect : Prop :=
  ∀ (who : Party) (n : CoreNo) (j : Fin 16) (x : Word) (len eta : Fin 65536) (s : State),
    let rows := [Instr.ncCtrlEnable who n, .ncCtrlRestart who n, .ncCtrlClrCnt who n, .ncThreshWrite who n j x,
        .ncPlCtrlEn who n, .ncPlEpochWrite who n len, .ncPlEtaWrite who n eta]
    (∀ q, writesCore s who n q →
      let ok := layoutOk s.dev q && (!s.dev.plEn q || plasticOk s.dev q)
      (s.dev.enabled q = false → ok = true →
        ∃ t, exec (.ncCtrlEnable who n) s = .next t ∧ bit (reg t (NC_CTRL q)) 0 = true ∧ bit (reg t (NC_STATUS q)) 0 = true
          ∧ (t.dev.core q).joinAt = none
          ∧ (t.dev.core q).joined = (decide (s.dev.coreOwner q < 4) && !s.dev.fb (TG_CTRL s.env.master (s.dev.coreOwner q)) 0
              && !bit (reg s (NC_STATUS q)) 5)
          ∧ RegsExcept s t [NC_CTRL q, NC_STATUS q] ∧ ChangesOnly s t [.regs, .cores])
      ∧ (s.dev.enabled q = false → ok = false → s.env.has (pDie q) = true →
        ∃ t, exec (.ncCtrlEnable who n) s = .next t ∧ bit (reg t (NC_CTRL q)) 0 = false ∧ bit (reg t (NC_STATUS q)) 1 = true
          ∧ t.dev.slot (slotKey (pDie q) (s.dev.coreOwner q) clsIF) ≠ none ∧ t.dev.cores = s.dev.cores ∧ t.dev.mem = s.dev.mem)
      ∧ (mayRestart who = true →
        ∃ t, exec (.ncCtrlRestart who n) s = .next t ∧ bit (reg t (NC_STATUS q)) 5 = true
          ∧ (∀ r ∈ ncCounters q ++ plCounters q, reg t r = 0)
          ∧ (t.dev.core q).joined = false ∧ (t.dev.core q).fire = none ∧ (t.dev.core q).inbuf = [] ∧ (t.dev.core q).acc = []
          ∧ (∀ c ∈ (t.dev.iface q).closed, c.chan = none)
          ∧ reg t (NC_CTRL q) = reg s (NC_CTRL q))
      ∧ (∃ t, exec (.ncCtrlClrCnt who n) s = .next t ∧ (∀ r ∈ ncCounters q ++ plCounters q, reg t r = 0)
          ∧ OnlyRegs s t (ncCounters q ++ plCounters q))
      ∧ (let good : Bool := decide (1 ≤ fld x 0 24) && decide (fld x 0 24 ≤ 8388607)
        ∃ t, exec (.ncThreshWrite who n j x) s = .next t ∧ reg t (NC_THRESH q j.val) = w32 (fld x 0 24)
          ∧ bit (reg t (NC_STATUS q)) (16 + j.val) = !good
          ∧ bit (reg t (NC_STATUS q)) 2 = (bit (reg s (NC_STATUS q)) 2 || !good)
          ∧ OnlyRegs s t [NC_THRESH q j.val, NC_STATUS q])
      ∧ (s.dev.enabled q = false → s.dev.plEn q = false →
        ∃ t, exec (.ncPlCtrlEn who n) s = .next t ∧ bit (reg t (NC_PL_CTRL q)) 0 = true ∧ fld (reg t (NC_PL_EPOCH q)) 16 16 = 0
          ∧ fld (reg t (NC_PL_EPOCH q)) 0 16 = fld (reg s (NC_PL_EPOCH q)) 0 16
          ∧ (t.dev.core q).epochLen = fld (reg s (NC_PL_EPOCH q)) 0 16
          ∧ RegsExcept s t [NC_PL_CTRL q, NC_PL_EPOCH q] ∧ ChangesOnly s t [.regs, .cores])
      ∧ (s.dev.enabled q = true → s.env.has (pDie q) = true →
        ∃ t, exec (.ncPlCtrlEn who n) s = .next t ∧ t.dev.slot (slotKey (pDie q) (s.dev.coreOwner q) clsIF) ≠ none
          ∧ reg t (NC_PL_CTRL q) = reg s (NC_PL_CTRL q) ∧ t.dev.cores = s.dev.cores ∧ t.dev.mem = s.dev.mem)
      ∧ (∃ t, exec (.ncPlEpochWrite who n len) s = .next t
          ∧ (len.val ≠ 0 → fld (reg t (NC_PL_EPOCH q)) 0 16 = len.val ∧ (t.dev.core q).disarmed = false
              ∧ RegsExcept s t [NC_PL_EPOCH q])
          ∧ (len.val = 0 → bit (reg t (NC_PL_STATUS q)) 0 = true ∧ (t.dev.core q).disarmed = true ∧ RegsExcept s t [NC_PL_STATUS q])
          ∧ ChangesOnly s t [.regs, .cores])
      ∧ (∃ t, exec (.ncPlEtaWrite who n eta) s = .next t ∧ fld (reg t (NC_PL_ETA q)) 0 16 = eta.val
          ∧ fld (reg t (NC_PL_ETA q)) 16 16 = fld (reg s (NC_PL_ETA q)) 16 16 ∧ OnlyRegs s t [NC_PL_ETA q]))
    ∧ (∀ h : Fin 4, who = .port h → ∀ i ∈ rows, exec i s = .next s)
    ∧ (isHost who = false → debugOff s.dev who = false → s.dev.reach s.env n.val = none → s.env.has (partyDie s.env who) = true →
        ∀ i ∈ rows, ∃ t, exec i s = .next t
          ∧ t.dev.slot (slotKey (partyDie s.env who) ((s.dev.coachOfNumber n.val).getD 4) clsIF) ≠ none
          ∧ t.dev.cores = s.dev.cores ∧ t.dev.mem = s.dev.mem)

/-- At a core with a clock whose oldest accepted event is not stale, with no fire running and the event's tick not after the tick whose accumulators fill: where its axon has a valid entry with a row in the row region and no learning applies, every accumulator gains the sum of weight × payload over the row's existing synapses onto it, and no other core, no memory and no register but the core's counters changes. Where the axon is plastic, learning is on and the payload is not 0, the accumulators gain the same, PRE_TRACE becomes min(255, PRE_TRACE + INC_PRE), and, unless the engine is paused or disarmed, each plastic synapse's delta falls by (A_MINUS × POST_TRACE) >> SHIFT down to −32,768; every other delta, and every byte but the axon's entry and the row's deltas, stays. A stale event is counted and integrated nowhere. While a fire runs an event on time waits in the input buffer. -/
def Obligations.ArrivalsAreIntegrated : Prop :=
  ∀ (p : Phys) (s : State) (a : Arrival) (rest : List Arrival), (s.dev.core p.idx).arrivals = a :: rest → Clocked s (pDie p.idx) 1 →
    let q := p.idx
    let k := s.dev.core q
    let w := s.dev.axonEntry q a.ev.axon
    (a.cls = .stale → ∃ t, exec (.eventArrival p) s = .next t
        ∧ reg t (NC_STALE q) = satAdd32 (reg s (NC_STALE q)) 1
        ∧ t.dev.core q = { k with arrivals := rest, staleN := k.staleN + 1 }
        ∧ RegsExcept s t [NC_STALE q] ∧ ChangesOnly s t [.regs, .cores])
    ∧ (a.cls = .onTime → k.fire ≠ none → ∃ t, exec (.eventArrival p) s = .next t
        ∧ t.dev.core q = { k with arrivals := rest, inbuf := k.inbuf ++ [a] }
        ∧ RegsExcept s t [NC_EVENTS_IN_LO q, NC_EVENTS_IN_HI q] ∧ ChangesOnly s t [.regs, .cores])
    ∧ (a.cls ≠ .stale → k.fire = none → a.ev.tick ≤ accTick k → (a.cls = .early → a.ev.tick = accTick k) → a.ev.axon < s.dev.axons q →
        axFmt w = 1 ∨ axFmt w = 2 → s.dev.rowInside q w = true → s.dev.plEn q = false ∨ axPlastic w = false ∨ a.ev.payload = 0 →
      ∃ t, exec (.eventArrival p) s = .next t
        ∧ (∀ i : Nat, SMap.get 0 (t.dev.core q).acc i = SMap.get 0 k.acc i
            + (((s.dev.synapses q w).filter (fun y => y.good && y.target == i)).map (fun y => y.weight * (a.ev.payload : Int))).sum)
        ∧ (t.dev.core q).arrivals = rest ∧ (∀ o, o ≠ q → t.dev.core o = s.dev.core o)
        ∧ RegsExcept s t [NC_LATE q, NC_EVENTS_IN_LO q, NC_EVENTS_IN_HI q, NC_SYNOPS_LO q, NC_SYNOPS_HI q, NC_STRUCT_ERR q]
        ∧ ChangesOnly s t [.regs, .cores])
    ∧ (a.cls ≠ .stale → k.fire = none → a.ev.tick ≤ accTick k → (a.cls = .early → a.ev.tick = accTick k) → a.ev.axon < s.dev.axons q →
        axFmt w = 1 ∨ axFmt w = 2 → s.dev.rowInside q w = true → s.dev.plEn q = true → axPlastic w = true → a.ev.payload ≠ 0 →
        layoutOk s.dev q = true → plasticOk s.dev q = true →
      let minus := s.dev.fd (NC_PL_RULE q) 8 8
      let shift := s.dev.fd (NC_PL_INC q) 16 4
      let cell (y : Syn) := axDelta w + y.idx
      let learns := (s.dev.synapses q w).filter (fun y => y.good && y.plastic)
      let acts := !s.dev.plPaused q && !k.disarmed
      ∃ t, exec (.eventArrival p) s = .next t
        ∧ (∀ i : Nat, SMap.get 0 (t.dev.core q).acc i = SMap.get 0 k.acc i
            + (((s.dev.synapses q w).filter (fun y => y.good && y.target == i)).map (fun y => y.weight * (a.ev.payload : Int))).sum)
        ∧ t.dev.axonEntry q a.ev.axon = setFldN w 40 8 (min 255 (axPre w + s.dev.fd (NC_PL_INC q) 0 8))
        ∧ (acts = true → (∀ y ∈ learns, t.dev.delta q (cell y)
              = max (-32768) (s.dev.delta q (cell y) - ((minus * swPost (s.dev.stateWord q y.target) / 2 ^ shift : Nat) : Int)))
            ∧ reg t (NC_PL_DEPS q) = satAdd32 (reg s (NC_PL_DEPS q)) learns.length)
        ∧ (∀ j, acts = false ∨ (∀ y ∈ learns, cell y ≠ j) → j < s.dev.plDeltas q → t.dev.delta q j = s.dev.delta q j)
        ∧ (s.dev.plPaused q = true → reg t (NC_PL_UNREC q) = satAdd32 (reg s (NC_PL_UNREC q)) 1)
        ∧ (∀ o, o ≠ q → t.dev.core o = s.dev.core o)
        ∧ (∀ x, (x < coreMem q (s.dev.axonOff q a.ev.axon) ∨ coreMem q (s.dev.axonOff q a.ev.axon) + 8 ≤ x) →
            (x < coreMem q (s.dev.plDeltaOff q + 2 * axDelta w) ∨ coreMem q (s.dev.plDeltaOff q + 2 * axDelta w) + 2 * axLen w ≤ x) →
            readByte t x = readByte s x)
        ∧ RegsExcept s t [NC_LATE q, NC_EVENTS_IN_LO q, NC_EVENTS_IN_HI q, NC_SYNOPS_LO q, NC_SYNOPS_HI q, NC_STRUCT_ERR q,
            NC_PL_DEPS q, NC_PL_DSAT q, NC_PL_UNREC q]
        ∧ ChangesOnly s t [.regs, .mem, .cores])

/-- At a core with a clock: held state-region writes are stored in order: the last one's eight bytes read as written, every byte that none of them covers reads as before, and none stays held. Where its coach runs no BRING_SPARE, the reset of a core that is not fenced ends, and a fenced core stays in reset. A row of an apply is written back: its deltas that no later row of the list shares read 0, and it leaves the list; in a core whose layout and plasticity pass their checks, each plastic synapse of the row has the weight u = w + ((d × η + 2,048) >> 12), scaled by ⌊T × 65,536 / S⌋ with rounding unless T or S is 0, clamped to −128…127, NC_PL_CLAMPS counts the clamps, every other synapse keeps its weight, and no byte outside the row and its deltas changes. An apply with no row left ends: APPLYING and PAUSED clear, NC_PL_EPOCHS counts, and its cycles, those of its passes and those that events held the synapse unit, are noted as LAST and MAX. -/
def Obligations.LearningAndHeldWrites : Prop :=
  ∀ (p : Phys) (s : State), Clocked s (pDie p.idx) 1 →
    let q := p.idx
    (∃ t, exec (.stateWriteApply p) s = .next t
        ∧ (t.dev.core q).held = []
        ∧ (∀ l off x, (s.dev.core q).held = l ++ [(off, x)] → off + 8 ≤ 0x40000 → t.dev.ldCore q off 8 = x % 0x10000000000000000)
        ∧ (∀ a, (∀ e ∈ (s.dev.core q).held, a < coreMem q e.1 ∨ coreMem q e.1 + 8 ≤ a) → readByte t a = readByte s a)
        ∧ ChangesOnly s t [.mem, .cores])
    ∧ (bit (reg s (NC_STATUS q)) 5 = true → s.dev.isFenced q = false → s.dev.runs (s.dev.coreOwner q) 0x12 = none →
        ∃ t, exec (.coreResetDone p) s = .next t ∧ bit (reg t (NC_STATUS q)) 5 = false ∧ OnlyRegs s t [NC_STATUS q])
    ∧ (s.dev.isFenced q = true → s.dev.runs (s.dev.coreOwner q) 0x12 = none → exec (.coreResetDone p) s = .next s)
    ∧ (∀ ap a rest, (s.dev.core q).apply = some ap → ap.rows = a :: rest →
        ∃ t, exec (.rowWriteBack p) s = .next t
          ∧ (t.dev.core q).apply = some { ap with rows := rest }
          ∧ (∀ k, k < axLen (s.dev.axonEntry q a) → deltaShared s.dev q (axDelta (s.dev.axonEntry q a) + k) rest = false →
              t.dev.delta q (axDelta (s.dev.axonEntry q a) + k) = 0)
          ∧ RegsExcept s t [NC_PL_CLAMPS q] ∧ ChangesOnly s t [.regs, .mem, .cores]
          ∧ (let w := s.dev.axonEntry q a
            let u (y : Syn) : Int := y.weight + (s.dev.delta q (axDelta w + y.idx) * (ap.eta : Int) + 2048) / 4096
            let scale (y : Syn) : Nat := s.dev.plTarget q y.target * 65536 / SMap.get 0 ap.sums y.target
            let x (y : Syn) : Int := if s.dev.plTarget q y.target = 0 ∨ SMap.get 0 ap.sums y.target = 0 then u y
              else (u y * (scale y : Int) + 32768) / 65536
            layoutOk s.dev q = true → plasticOk s.dev q = true → a < s.dev.axons q → axPlastic w = true → axFmt w = 1 ∨ axFmt w = 2 →
                s.dev.rowInside q w = true →
              (∀ y ∈ s.dev.synapses q w, ∃ z ∈ t.dev.synapses q w, z.idx = y.idx ∧ z.target = y.target ∧ z.good = y.good ∧ z.plastic = y.plastic
                ∧ z.weight = if y.good && y.plastic then max (-128) (min 127 (x y)) else y.weight)
              ∧ reg t (NC_PL_CLAMPS q) = satAdd32 (reg s (NC_PL_CLAMPS q))
                  (((s.dev.synapses q w).filter (fun y => y.good && y.plastic && (decide (x y < -128) || decide (127 < x y)))).length)
              ∧ (∀ b, (b < coreMem q (axRow w) ∨ coreMem q (axRow w) + axBytes w ≤ b) →
                  (b < coreMem q (s.dev.plDeltaOff q + 2 * axDelta w) ∨ coreMem q (s.dev.plDeltaOff q + 2 * axDelta w) + 2 * axLen w ≤ b) →
                  readByte t b = readByte s b)))
    ∧ (∀ ap busy, (s.dev.core q).apply = some ap → ap.rows = [] →
        ∃ t, exec (.applyEnd p busy) s = .next t
          ∧ fld (reg t (NC_PL_STATUS q)) 1 2 = 0 ∧ (t.dev.core q).apply = none
          ∧ reg t (NC_PL_EPOCHS q) = satAdd32 (reg s (NC_PL_EPOCHS q)) 1
          ∧ fld (reg t (NC_PL_APPLY_CYCLES q)) 0 16 = min (ap.cost + busy) 65535
          ∧ fld (reg t (NC_PL_APPLY_CYCLES q)) 16 16 = max (min (ap.cost + busy) 65535) (fld (reg s (NC_PL_APPLY_CYCLES q)) 16 16)
          ∧ RegsExcept s t [NC_PL_STATUS q, NC_PL_EPOCHS q, NC_PL_APPLY_CYCLES q] ∧ ChangesOnly s t [.regs, .cores])

/-- For a neuron that is enabled and not refractory, its accumulator within the fan-in budget, no membrane output and program 0, whose state word lies in local memory: with v′ = sat24(v − (v·LEAK >> 16) + (a·GAIN >> 8) + BIAS), it fires exactly when its threshold θ is valid and θ ≤ v′, and the V stored is v′ where it does not fire; where it fires with neither graded output nor zero reset it is v′ − θ, at most θ − 1. With learning on its POST_TRACE decays by KAPPA_POST and then, where it fires, gains INC_POST up to 255; with learning off it stays. The potentiation pass at the end of a fold adds (A_PLUS × PRE_TRACE) >> SHIFT, up to 32,767, to the delta of each plastic synapse of a listed axon whose target fired, where the engine is neither paused nor disarmed and no other listed row shares the delta, and leaves the others; the decay that follows the fire brings the axon's PRE_TRACE to (PRE_TRACE × KAPPA_PRE) >> 8. -/
def Obligations.NeuronFoldFollowsR89 : Prop :=
  ∀ (env : Env) (p n coach i : Nat) (f : Folding),
    let v := f.dev
    let w := v.stateWord p i
    let g := v.grp p (swGroup w)
    let theta := toSigned 24 (v.fd (NC_THRESH p (swThr w)) 0 24)
    let v' := sat24 (swV w - asr (swV w * g.leak) 16 + asr (SMap.get 0 (v.core p).acc i * g.gain) 8 + g.bias)
    let r := foldNeuron env p n coach f i
    let held := if v.plEn p then swPost w * v.fd (NC_PL_RULE p) 24 8 / 256 else swPost w
    (swEn w = true → swRefr w = 0 → SMap.get 0 (v.core p).cnt i ≤ 65536 → swMemb w = false → swPail w = false →
    g.prog = 0 → v.stateOff p i + 8 ≤ 0x40000 →
      ((1 ≤ theta ∧ theta ≤ 8388607 ∧ theta ≤ v') → r.fired = f.fired ++ [i]
        ∧ (g.graded = false → g.zero = false → swV (r.dev.stateWord p i) = min (v' - theta) (theta - 1))
        ∧ (g.graded = false → g.zero = true → swV (r.dev.stateWord p i) = 0)
        ∧ swPost (r.dev.stateWord p i) = if v.plEn p then min 255 (held + v.fd (NC_PL_INC p) 8 8) else held)
      ∧ (¬(1 ≤ theta ∧ theta ≤ 8388607 ∧ theta ≤ v') → r.fired = f.fired ∧ r.out = f.out
        ∧ swV (r.dev.stateWord p i) = v' ∧ swPost (r.dev.stateWord p i) = held))
    ∧ (∀ (fired : List Nat) (a : Nat) (y : Syn), v.plEn p = true → layoutOk v p = true → plasticOk v p = true → (v.plAxons p).Nodup →
        a ∈ v.plAxons p → v.rowInside p (v.axonEntry p a) = true → y ∈ v.plasticSyns p (v.axonEntry p a) →
        (∀ b ∈ v.plAxons p, b ≠ a → axDelta (v.axonEntry p b) + axLen (v.axonEntry p b) ≤ axDelta (v.axonEntry p a)
          ∨ axDelta (v.axonEntry p a) + axLen (v.axonEntry p a) ≤ axDelta (v.axonEntry p b)) →
      let k := axDelta (v.axonEntry p a) + y.idx
      (potentiate p fired v).delta p k
          = (if fired.contains y.target && !v.plPaused p && !(v.core p).disarmed then
              min 32767 (v.delta p k + ((v.fd (NC_PL_RULE p) 0 8 * axPre (v.axonEntry p a) / 2 ^ v.fd (NC_PL_INC p) 16 4 : Nat) : Int))
            else v.delta p k)
        ∧ (decayPre p v).axonEntry p a
          = setFldN (v.axonEntry p a) 40 8 (axPre (v.axonEntry p a) * v.fd (NC_PL_RULE p) 16 8 / 256))

/-- For a running frame of coach g that has started on die d, whose CHK clock runs, and an entry of its table there with a vat read end and a vat write end that the coach owns, through bank ports that it owns, without a guard or a signal, whose next word is due: with no other scheduled access recorded and no join input waiting, the 128 bytes at the sink's word address become the 128 bytes at the source's; every other byte of memory stays, the entry's count of delivered words advances, and SN_WORDS counts one. The same word read from the vat goes to a port's SRAM, or is dropped and counted there in FR_DROP_WR; to a churn's weight or data port; into a coupling's egress, or is counted in SN_CPL_OVF; or to a join input. The same vat write takes the word of a port's SRAM, a churn's results, a pail, a coupling's ingress, whose buffer it leaves, or a join output; where the ingress or the join has none the word is invalid: SN_EMPTY counts it, and memory stays. A guard whose flag is not set by the time the first word is taken makes it invalid too and counts SN_GUARD_MISS, and the last word of an instance whose every word was valid sends its signal. A word that is not the next or not due, and one without a frame, a table or an entry, changes nothing. -/
def Obligations.TimetableWordMovesThroughVat : Prop :=
  ∀ (d : Fin 8) (g : Fin 4) (en : Fin 1024) (r : Fin 65536) (w : Fin 4096) (s : State) (f : Frame) (t : DieTable) (e : TEntry),
    s.dev.frame g.val = some f → s.dev.table d.val g.val = some t → t.entries[en.val]? = some e →
    let due := e.firstRound ≤ r.val ∧ r.val ≤ e.lastRound ∧ w.val ≤ e.lenM1 ∧ SMap.get 0 f.done (instKey d.val en.val r.val) = w.val
      ∧ slotDue s.env s.dev d.val f (slotOf t e r.val w.val) = true ∧ frameOn s.dev g.val d.val f = true
    let src := vatMem d.val (srcAddrOf e r.val w.val * 128)
    let snk := vatMem d.val (snkAddrOf e r.val w.val * 128)
    let slot := slotOf t e r.val w.val
    let key := instKey d.val en.val r.val
    let word : TWord := ⟨ofLeBytes (s.dev.ldBytes src 128), true, e.tag, g.val⟩
    let snkA := snkAddrOf e r.val w.val
    let quiet := f.guarded = [] ∧ s.dev.net.joinIn = [] ∧ s.dev.net.recentWr = [] ∧ s.dev.net.recentRd = [] ∧ s.dev.net.recentTake = []
    let fromVat := e.src < 8 ∧ portServes s.dev d.val g.val (srcAddrOf e r.val w.val) e.srcPort = true
    let intoVat := e.snk < 4 ∧ portServes s.dev d.val g.val snkA e.snkPort = true
    let moved (q : State) : Prop := exec (.ttWordDeliver d g en r w) s = .next q
      ∧ (q.dev.frame g.val).map (fun f => SMap.get 0 f.done key) = some (w.val + 1)
      ∧ q.dev.rd64 (SN_WORDS_LO d.val) (SN_WORDS_HI d.val)
          = min (s.dev.rd64 (SN_WORDS_LO d.val) (SN_WORDS_HI d.val) + 1) 0xFFFFFFFFFFFFFFFF
    let empty (q : State) : Prop := moved q ∧ reg q (SN_EMPTY d.val) = satAdd32 (reg s (SN_EMPTY d.val)) 1 ∧ q.dev.mem = s.dev.mem
    let stored (q : State) (at' : Nat) (bs : List Byte) : Prop := moved q ∧ q.dev.ldBytes at' 128 = bs
      ∧ (∀ a, a < at' ∨ at' + 128 ≤ a → readByte q a = readByte s a)
    Clocked s d.val 0 →
    (due → quiet → e.guard = false → e.signal = false → sinkOwned s.dev d.val e.snk g.val = true → fromVat →
      (e.snk = 8 ∨ e.snk = 9 →
        let p := 2 * d.val + (e.snk - 8)
        let a := frRebase s.dev p f.tick snkA
        (frDrops s.dev p f.tick a = false → ∃ q, stored q (sramMem p (128 * a)) (s.dev.ldBytes src 128))
        ∧ (frDrops s.dev p f.tick a = true → ∃ q, moved q ∧ q.dev.mem = s.dev.mem
            ∧ reg q (FR_DROP_WR d.val (portUnit p)) = satAdd32 (reg s (FR_DROP_WR d.val (portUnit p))) 1))
      ∧ (16 ≤ e.snk → e.snk < 20 → ∃ q, moved q ∧ q.dev.mem = s.dev.mem
          ∧ (q.dev.churn d.val (e.snk - 16)).wport = (s.dev.churn d.val (e.snk - 16)).wport ++ [word])
      ∧ (20 ≤ e.snk → e.snk < 24 → ∃ q, moved q ∧ q.dev.mem = s.dev.mem
          ∧ (q.dev.churn d.val (e.snk - 20)).dport = (s.dev.churn d.val (e.snk - 20)).dport
              ++ (if 0 < (s.dev.churn d.val (e.snk - 20)).skip then [] else [word]))
      ∧ (28 ≤ e.snk → e.snk < 32 → ∃ q, moved q ∧ q.dev.mem = s.dev.mem
          ∧ ((s.dev.chanOut (channel d.val (e.snk - 28) g.val)).length < 1024 →
              q.dev.chanOut (channel d.val (e.snk - 28) g.val) = s.dev.chanOut (channel d.val (e.snk - 28) g.val) ++ [(slot, word)])
          ∧ (1024 ≤ (s.dev.chanOut (channel d.val (e.snk - 28) g.val)).length →
              reg q (SN_CPL_OVF d.val) = satAdd32 (reg s (SN_CPL_OVF d.val)) 1))
      ∧ (32 ≤ e.snk → e.snk < 40 → ∃ q, moved q ∧ q.dev.mem = s.dev.mem
          ∧ SMap.get none q.dev.net.joinIn (joinKey d.val (e.snk - 32) slot) = some word))
    ∧ (due → quiet → e.guard = false → e.signal = false → intoVat → sourceFenced s.dev d.val e.src = false →
      (e.src = 8 ∨ e.src = 9 → sinkOwned s.dev d.val e.snk g.val = true →
        let p := 2 * d.val + (e.src - 8)
        ∃ q, stored q snk (s.dev.ldBytes (sramMem p (128 * frRebase s.dev p f.tick (srcAddrOf e r.val w.val))) 128))
      ∧ (∀ x, 16 ≤ e.src → e.src < 20 → sinkOwned s.dev d.val e.snk g.val = true → 4 ≤ slot →
          portWord (s.dev.churn d.val (e.src - 16)).oport (slot - 4) = some x → ∃ q, stored q snk (leBytes 128 x))
      ∧ (12 ≤ e.src → e.src < 16 → sinkOwned s.dev d.val e.snk g.val = true →
          ∃ q, stored q snk (leBytes 128 (pailWord s.dev d.val (e.src - 12) (srcAddrOf e r.val w.val))))
      ∧ (∀ (avail : Nat) (x : TWord) (rest : List (Nat × TWord)), 24 ≤ e.src → e.src < 28 →
          s.dev.chanIn (channel d.val (e.src - 24) g.val) = (avail, x) :: rest → avail + 4 ≤ slot →
          x.valid = true → sinkOwned s.dev d.val e.snk x.coach = true →
          ∃ q, stored q snk (leBytes 128 x.data) ∧ q.dev.chanIn (channel d.val (e.src - 24) g.val) = rest)
      ∧ (24 ≤ e.src → e.src < 28 → sinkOwned s.dev d.val e.snk g.val = true →
          (∀ h ∈ (s.dev.chanIn (channel d.val (e.src - 24) g.val)).head?, slot < h.1 + 4) →
          ∃ q, empty q ∧ reg q (SN_CPL_EMPTY d.val) = satAdd32 (reg s (SN_CPL_EMPTY d.val)) 1
            ∧ q.dev.chanIn (channel d.val (e.src - 24) g.val) = s.dev.chanIn (channel d.val (e.src - 24) g.val))
      ∧ (∀ x, 28 ≤ e.src → e.src < 32 → SMap.get none s.dev.net.joinOut (joinKey d.val (e.src - 28) (slot - 4)) = some x →
          x.valid = true → sinkOwned s.dev d.val e.snk x.coach = true → ∃ q, stored q snk (leBytes 128 x.data))
      ∧ (28 ≤ e.src → e.src < 32 → SMap.get none s.dev.net.joinOut (joinKey d.val (e.src - 28) (slot - 4)) = none →
          sinkOwned s.dev d.val e.snk g.val = true → ∃ q, empty q))
    ∧ (due → quiet → fromVat → intoVat → sinkOwned s.dev d.val e.snk g.val = true → e.signal = false →
        e.guard = true → w.val = 0 → flagBy s.dev d.val e.waitFlag (takenAt s.dev d.val f e.src slot) = false →
        ∃ q, empty q ∧ reg q (SN_GUARD_MISS d.val) = satAdd32 (reg s (SN_GUARD_MISS d.val)) 1)
    ∧ (due → quiet → fromVat → intoVat → sinkOwned s.dev d.val e.snk g.val = true → e.guard = false →
        e.signal = true → w.val = e.lenM1 → f.invalid = [] →
        ∃ q, stored q snk (s.dev.ldBytes src 128)
          ∧ q.dev.net.signals = s.dev.net.signals
              ++ [⟨slotTime s.dev e.sigDie f (slot + (if e.sigDie = d.val then 1 else 8 + 40 * hops s.env s.dev e.sigDie 8 d.val)), g.val, e.sigDie,
                   e.sigIndex, e.sigBarrier⟩])
    ∧ (due → quiet → e.guard = false → e.signal = false → sinkOwned s.dev d.val e.snk g.val = true → fromVat → intoVat →
      ∃ q, exec (.ttWordDeliver d g en r w) s = .next q
        ∧ (∀ k, k < 128 → readByte q (snk + k) = readByte s (src + k))
        ∧ (∀ a, a < snk ∨ snk + 128 ≤ a → readByte q a = readByte s a)
        ∧ (q.dev.frame g.val).map (fun f => SMap.get 0 f.done (instKey d.val en.val r.val)) = some (w.val + 1)
        ∧ q.dev.rd64 (SN_WORDS_LO d.val) (SN_WORDS_HI d.val)
            = min (s.dev.rd64 (SN_WORDS_LO d.val) (SN_WORDS_HI d.val) + 1) 0xFFFFFFFFFFFFFFFF
        ∧ ChangesOnly s q [.regs, .mem, .net])
    ∧ (¬due → exec (.ttWordDeliver d g en r w) s = .next s)
    ∧ (∀ u : State, u.dev.frame g.val = none ∨ u.dev.table d.val g.val = none
          ∨ (∃ t, u.dev.table d.val g.val = some t ∧ t.entries[en.val]? = none) → exec (.ttWordDeliver d g en r w) u = .next u)

/-- A pending signal whose time has come leaves the list and sets its flag, or counts its barrier; the count that reaches the target sets the barrier's flag, and a barrier that has reached it, or has no target, stays. The head word of an egress buffer whose slot has come, over a coupling that carries words with a quarter of the coach, enters the far ingress 32 slots later. On each die that is within 32 CHK cycles before slot 0 by its own copy a coach's flags and barrier counts clear, targets kept, and on no other. A frame whose every word and pass is done ends. -/
def Obligations.FlagsBarriersAndFrames : Prop :=
  (∀ (k : Nat) (s : State) (x : Signal), s.dev.net.signals[k]? = some x → x.due ≤ s.dev.chkAt x.die (s.env.nowOf x.die) →
      let bar := SN_BAR x.die (x.index % 256)
      let count := fld (reg s bar) 0 16
      let target := fld (reg s bar) 16 16
      (x.barrier = false → x.index < 4096 → ∃ t, exec (.barrierSignal k) s = .next t ∧ flagSet t.dev x.die x.index = true
        ∧ t.dev.net.signals = s.dev.net.signals.eraseIdx k
        ∧ RegsExcept s t [SN_FLAGS x.die (x.index / 32)] ∧ ChangesOnly s t [.regs, .net])
      ∧ (x.barrier = true → count < target → ∃ t, exec (.barrierSignal k) s = .next t
        ∧ fld (reg t bar) 0 16 = count + 1 ∧ fld (reg t bar) 16 16 = target
        ∧ (∀ tb, count + 1 = target → s.dev.table x.die (x.index % 256 / 64) = some tb →
            flagSet t.dev x.die (fldN (tb.barriers.getD (x.index % 256 % 64) 0) 16 12) = true)
        ∧ (count + 1 ≠ target → RegsExcept s t [bar])
        ∧ t.dev.net.signals = s.dev.net.signals.eraseIdx k ∧ ChangesOnly s t [.regs, .net])
      ∧ (x.barrier = true → target ≤ count → ∃ t, exec (.barrierSignal k) s = .next t
        ∧ t.dev.net.signals = s.dev.net.signals.eraseIdx k ∧ ChangesOnly s t [.net]))
  ∧ (∀ (d : Fin 8) (edge g : Fin 4) (s : State) (f : Frame) (slot : Nat) (w : TWord) (rest : List (Nat × TWord)) (far : Nat),
      s.dev.frame g.val = some f → s.dev.chanOut (channel d.val edge.val g.val) = (slot, w) :: rest →
      neighbour s.hw.part d.val edge.val = some far →
      s.dev.net.downMods.contains (d.val * 4 + edge.val) = false → s.dev.net.pausedMods.contains (d.val * 4 + edge.val) = false →
      quarters s.dev d.val edge.val g.val ≠ 0 → slotDue s.env s.dev d.val f (releaseSlot s.dev d.val edge.val g.val slot f) = true →
      (s.dev.chanIn (channel far (opposite edge.val) g.val)).length < 1024 →
      ∃ t, exec (.couplingRelease d edge g) s = .next t
        ∧ t.dev.chanOut (channel d.val edge.val g.val) = rest
        ∧ t.dev.chanIn (channel far (opposite edge.val) g.val)
            = s.dev.chanIn (channel far (opposite edge.val) g.val) ++ [(releaseSlot s.dev d.val edge.val g.val slot f + 32, w)]
        ∧ ChangesOnly s t [.net])
  ∧ (∀ (g : Fin 4) (s : State) (c : CurTick), (s.dev.gen g.val).cur = some c →
      let near (d : Nat) : Prop := c.pailedOn.contains d = false
        ∧ s.dev.chkAt d (c.start + c.set.pail) ≤ s.dev.chkAt d (s.env.nowOf d) + 32000
      ∃ t, exec (.flagsClear g) s = .next t
        ∧ (∀ d i, d < s.env.dies → i < 32 → (near d → reg t (SN_FLAGS d (32 * g.val + i)) = 0)
            ∧ (¬near d → reg t (SN_FLAGS d (32 * g.val + i)) = reg s (SN_FLAGS d (32 * g.val + i))))
        ∧ (∀ d b, d < s.env.dies → b < 64 → (near d → fld (reg t (SN_BAR d (64 * g.val + b))) 0 16 = 0)
            ∧ (¬near d → fld (reg t (SN_BAR d (64 * g.val + b))) 0 16 = fld (reg s (SN_BAR d (64 * g.val + b))) 0 16)
            ∧ fld (reg t (SN_BAR d (64 * g.val + b))) 16 16 = fld (reg s (SN_BAR d (64 * g.val + b))) 16 16)
        ∧ ChangesOnly s t [.regs, .net])
  ∧ (∀ (g : Fin 4) (s : State) (f : Frame), s.dev.frame g.val = some f →
      (frameDone s.env s.dev g.val f = true → ∃ t, exec (.frameEnd g) s = .next t ∧ t.dev.frame g.val = none ∧ t.dev.mem = s.dev.mem)
      ∧ (frameDone s.env s.dev g.val f = false → exec (.frameEnd g) s = .next s))

/-- With READY_FLAG set before the action instant, at a unit that has not published or begun a substitute for its tick, ACTION_PUBLISH of a unit that is not in doubt and whose tick has no reaction writes the 32-byte header (version 2, flags with OBS_LATE, tick, publication time, source sequence), counts FR_PUB, clears SUBSTITUTED, and changes no other byte; in doubt or with a reaction, a substitute begins. SUBSTITUTE_DONE before the action instant copies the values of the oldest copy from the safe image or the slot it names, byte for byte, writes SAFE or STALE into the header's flags, counts it and sets the port's SAFE alert; that copy leaves the list. ACTION_INSTANT, when due on the copy of the unit's die, marks the tick; a unit whose frame is not published counts TG_FRAME_MISS, leaves a DL record and takes MISS_ACT; before it is due nothing changes. -/
def Obligations.ActionFramesPublished : Prop :=
  (∀ (p g : Fin 4) (s : State) (c : CurTick), (s.dev.fu p.val).holder = some g.val →
      beforeAction s.env s.dev g.val p.val (s.dev.fu p.val).tick = some c → frOn s.dev p.val = true →
      (s.dev.fu p.val).published = false → (s.dev.fu p.val).copying (s.dev.fu p.val).tick = false → readySet s.dev p.val = true →
      let f := s.dev.fu p.val
      let n := f.tick
      let slot := actSlotAddr s.dev p.val (n % frActSlots s.dev p.val)
      (f.doubt = false → c.react = 0 → NoneAfter s slot (s.dev.cycle s.env (portDie p.val)) →
        ∃ t, exec (.actionPublish p) s = .next t
        ∧ t.dev.ldN slot 1 = 2 ∧ t.dev.ldN (slot + 1) 1 = 4 * b2n f.obsLate ∧ t.dev.ldN (slot + 4) 4 = n % 0x100000000
        ∧ t.dev.ldN (slot + 8) 8 = s.env.nowOf (portDie p.val) ∧ t.dev.ldN (slot + 16) 4 = n % 0x100000000
        ∧ (∀ a, a < slot ∨ slot + 32 ≤ a → readByte t a = readByte s a)
        ∧ reg t (FR_PUB (portDie p.val) (portUnit p.val)) = satAdd32 (reg s (FR_PUB (portDie p.val) (portUnit p.val))) 1
        ∧ bit (reg t (frStatus p.val)) 2 = false
        ∧ (t.dev.fu p.val).published = true ∧ (t.dev.fu p.val).last = some (n % frActSlots s.dev p.val, n % 0x100000000)
        ∧ ChangesOnly s t [.regs, .mem, .net, .tick, .fus])
      ∧ (f.doubt = true ∨ 1 ≤ c.react → ∃ t, exec (.actionPublish p) s = .next t
        ∧ (t.dev.fu p.val).copies.map (fun x => (x.tick, x.missed)) = f.copies.map (fun x => (x.tick, x.missed)) ++ [(n, false)]
        ∧ bit (reg t (frStatus p.val)) 3 = true
        ∧ (t.dev.fu p.val).published = false ∧ RegsExcept s t [frStatus p.val] ∧ ChangesOnly s t [.regs, .fus]))
  ∧ (∀ (p : Fin 4) (s : State) (c : Copy) (rest : List Copy), (s.dev.fu p.val).copies = c :: rest →
      (∀ g x, (s.dev.fu p.val).holder = some g → (s.dev.gen g).cur = some x →
        x.acted = true ∨ actionClock s.env s.dev g < x.start + x.set.action) →
      let slot := actSlotAddr s.dev p.val (c.tick % frActSlots s.dev p.val)
      let from' := match c.src with
        | some x => actSlotAddr s.dev p.val x.1
        | none => sramMem p.val (128 * frSafeBase s.dev p.val)
      let cyc := s.dev.cycle s.env (portDie p.val)
      NoneAfter s slot cyc → NoneAfter s (slot + 128) cyc →
      ∃ t, exec (.substituteDone p) s = .next t
        ∧ (∀ k, k < 128 * (frActSize s.dev p.val - 1) → readByte t (slot + 128 + k) = readByte s (from' + 128 + k))
        ∧ t.dev.ldN slot 1 = 2
        ∧ t.dev.ldN (slot + 1) 1 = (if c.src = none then 1 else 2) + 4 * b2n c.obsLate + 8 * b2n c.missed
        ∧ t.dev.ldN (slot + 4) 4 = c.tick % 0x100000000
        ∧ (c.src = none → reg t (FR_SUB_SAFE (portDie p.val) (portUnit p.val))
            = satAdd32 (reg s (FR_SUB_SAFE (portDie p.val) (portUnit p.val))) 1)
        ∧ (c.src ≠ none → reg t (FR_SUB_STALE (portDie p.val) (portUnit p.val))
            = satAdd32 (reg s (FR_SUB_STALE (portDie p.val) (portUnit p.val))) 1)
        ∧ bit (reg t (frStatus p.val)) 2 = true ∧ bit (reg t (frStatus p.val)) 3 = !rest.isEmpty
        ∧ bit (reg t (HP_ALERT_STAT (portDie p.val) (portUnit p.val))) 4 = true
        ∧ (t.dev.fu p.val).copies.map (·.tick) = rest.map (·.tick)
        ∧ ChangesOnly s t [.regs, .mem, .net, .tick, .fus])
  ∧ (∀ (g : Fin 4) (s : State) (c : CurTick), (s.dev.gen g.val).cur = some c →
      (c.pailed s.env s.dev = true → c.acted = false → c.start + c.set.action ≤ actionClock s.env s.dev g.val →
        (unitOf s.dev g.val = none → ∃ t, exec (.actionInstant g) s = .next t
          ∧ (t.dev.gen g.val).cur = some { c with acted := true }
          ∧ RegsExcept s t [FW_TRACE s.env.master g.val] ∧ t.dev.mem = s.dev.mem)
        ∧ (∀ p, unitOf s.dev g.val = some p → frOn s.dev p = true → (s.dev.fu p).tick = c.n → (s.dev.fu p).published = false →
          ∃ t, exec (.actionInstant g) s = .next t
            ∧ (t.dev.gen g.val).cur.map (fun x => (x.n, x.acted, x.missed)) = some (c.n, true, true)
            ∧ reg t (TG_FRAME_MISS s.env.master g.val) = satAdd32 (reg s (TG_FRAME_MISS s.env.master g.val)) 1
            ∧ t.dev.slot (slotKey s.env.master g.val clsDL) ≠ none
            ∧ (t.dev.fu p).copies.any (fun x => x.tick == c.n && x.missed) = true
            ∧ (1 ≤ fld (reg s (TG_REACT s.env.master g.val)) 2 2 → bit (reg t (TG_STATUS s.env.master g.val)) 2 = true)
            ∧ t.dev.mem = s.dev.mem))
      ∧ (c.pailed s.env s.dev = false ∨ c.acted = true ∨ actionClock s.env s.dev g.val < c.start + c.set.action →
        exec (.actionInstant g) s = .next s))

/-- A disabled frame unit that passes its check is enabled; one that fails it gets CFG_ERR and an IF record, and stays disabled. Outside a package reset firmware and the open debug port set or clear FORCE and, once the package has reached READY and not before, release BOOT_HOLD, and nothing else changes; a host port or command engine leaves FR_SAFEN and a record in the device's SE slot. While a package reset is in progress both writes change nothing but a port's HP_WRITE_SEQ. -/
def Obligations.FrameUnitAndSafeWrites : Prop :=
  (∀ (who : Party) (p : Fin 4) (s : State), isFirmware who = true → bit (reg s (frCtrl p.val)) 0 = false → bit (reg s (frCtrl p.val)) 20 = false →
      (frOk s.dev p.val = true → ∃ t, exec (.frCtrlEn who p) s = .next t ∧ bit (reg t (frCtrl p.val)) 0 = true
        ∧ fld (reg t (frCtrl p.val)) 1 19 = fld (reg s (frCtrl p.val)) 1 19
        ∧ RegsExcept s t [frCtrl p.val] ∧ ChangesOnly s t [.regs, .fus])
      ∧ (frOk s.dev p.val = false → s.env.has (portDie p.val) = true → (∀ g, (s.dev.fu p.val).holder = some g → g < 4) →
        ∃ t, exec (.frCtrlEn who p) s = .next t
        ∧ bit (reg t (frCtrl p.val)) 0 = false ∧ bit (reg t (frStatus p.val)) 0 = true
        ∧ t.dev.slot (slotKey (portDie p.val) ((s.dev.fu p.val).holder.getD 4) clsIF) ≠ none
        ∧ ChangesOnly s t [.regs, .tick, .flt]))
  ∧ (∀ (who : Party) (b : Bool) (s : State),
      (inReset s.dev = false → isFirmware who = true ∨ (who = .debug ∧ reaches s who) →
        (bit (reg s (BU_STATUS s.env.master)) 8 = true →
          ∃ t, exec (.frSafenRelease who) s = .next t ∧ bit (reg t (FR_SAFEN s.env.master)) 0 = false
          ∧ bit (reg t (FR_SAFEN s.env.master)) 2 = bit (reg s (FR_SAFEN s.env.master)) 2 ∧ OnlyRegs s t [FR_SAFEN s.env.master])
        ∧ (bit (reg s (BU_STATUS s.env.master)) 8 = false → exec (.frSafenRelease who) s = .next s)
        ∧ (∃ t, exec (.frSafenForce who b) s = .next t ∧ bit (reg t (FR_SAFEN s.env.master)) 2 = b
          ∧ bit (reg t (FR_SAFEN s.env.master)) 0 = bit (reg s (FR_SAFEN s.env.master)) 0 ∧ OnlyRegs s t [FR_SAFEN s.env.master]))
      ∧ (inReset s.dev = false → (∃ p, who = .port p ∨ who = .engine p) →
        ∀ i ∈ [Instr.frSafenRelease who, .frSafenForce who b], ∃ t, exec i s = .next t
          ∧ reg t (FR_SAFEN s.env.master) = reg s (FR_SAFEN s.env.master) ∧ t.dev.slot (slotKey s.env.master 4 clsSE) ≠ none
          ∧ ChangesOnly s t [.regs, .tick, .flt])
      ∧ (inReset s.dev = true → ∀ i ∈ [Instr.frSafenRelease who, .frSafenForce who b], ∃ t, exec i s = .next t ∧ OnlyRegs s t (seqRegs who)))

/-- On a die whose CHK clock runs: an aligned unscheduled write that its requester may make and that gets a bank port stores its bytes, every other byte of memory as before; a read answers the word's 128 bytes and changes no memory. With no port left for it a request waits, and VAT_BANK_WAIT of the selected bank counts the cycles waited. A command that copies to or from a vat makes its accesses so: each stores up to the end of its word and leaves the rest, one without a port waits, and the last completes the command. A request that the regions deny stores nothing, reads 0 and leaves an SE record; one outside every vat leaves an IF record. An accepted VAT_SET value of firmware is stored and memory keeps its canonical form even where the set's banks change; a refused value sets SET_ERR alone. VAT_BANK_SEL stores the bank and clears its counters. With no frame that uses its set, a bank takes the first free spare, then the second, else it is fenced. -/
def Obligations.VatAccessAndSets : Prop :=
  (∀ (who : Party) (d : Fin 8) (off : Nat) (data : Option (List Byte)) (s : State), unschedShape off data = true →
      debugOff s.dev who = false → Clocked s d.val 0 → (∀ p : Fin 4, who = .engine p → copyAt s.dev p.val d.val off (data != none) = none) →
      let bank := (bankOfWord s.dev d.val (off / 128)).1
      let waits := [VAT_BANK_WAIT_LO d.val, VAT_BANK_WAIT_HI d.val, PM_STATUS d.val]
      let free := ([1, 0].filter (portFree s.env s.dev d.val bank)).length
      let waiting := SMap.get [] s.dev.net.vatWait d.val
      let ahead := (waiting.filter (fun q => q.bank == bank && decide (q.who < vatPriority who))).length
      let counts := [VAT_BANK_UNSCHED_LO d.val, VAT_BANK_UNSCHED_HI d.val, VAT_WW_COLLIDE d.val] ++ waits
      let vat := s.env.has d.val = true ∧ off < 0x10000000
      (∀ bs, vat → data = some bs → partyReaches s.env s.dev d.val 0 off true who = true → ahead < free →
          NoneAfter s (vatMem d.val off) (s.dev.cycle s.env d.val) →
        ∃ t, exec (.vatUnschedAccess who d off data) s = .next t
          ∧ (∀ k, ∀ b, bs[k]? = some b → readByte t (vatMem d.val off + k) = b)
          ∧ (∀ a, a < vatMem d.val off ∨ vatMem d.val off + bs.length ≤ a → readByte t a = readByte s a)
          ∧ RegsExcept s t counts ∧ ChangesOnly s t [.regs, .mem, .net])
      ∧ (vat → data = none → partyReaches s.env s.dev d.val 0 off false who = true → ahead < free →
          (∀ w ∈ s.dev.net.recentWr, w.cyc < s.dev.cycle s.env d.val) →
        ∃ t, exec (.vatUnschedAccess who d off data) s = .next t
          ∧ SMap.get 0 t.dev.net.vatRead (partyNum who) = s.dev.ldN (vatMem d.val (off / 128 * 128)) 128
          ∧ RegsExcept s t counts ∧ ChangesOnly s t [.regs, .net])
      ∧ (vat → partyReaches s.env s.dev d.val 0 off (data != none) who = true → free ≤ ahead →
        ∃ t, exec (.vatUnschedAccess who d off data) s = .next t
          ∧ (⟨vatPriority who, bank, s.dev.cycle s.env d.val + 1⟩ : VatReq) ∈ SMap.get [] t.dev.net.vatWait d.val
          ∧ (s.dev.fd (VAT_BANK_SEL d.val) 0 6 = bank →
              t.dev.rd64 (VAT_BANK_WAIT_LO d.val) (VAT_BANK_WAIT_HI d.val)
                = min (s.dev.rd64 (VAT_BANK_WAIT_LO d.val) (VAT_BANK_WAIT_HI d.val)
                    + (match waiting.find? (fun q => q.who == vatPriority who && q.bank == bank) with
                      | some q => s.dev.cycle s.env d.val + 1 - q.upto
                      | none => 1)) 0xFFFFFFFFFFFFFFFF)
          ∧ RegsExcept s t waits ∧ ChangesOnly s t [.regs, .net])
      ∧ (vat → partyReaches s.env s.dev d.val 0 off (data != none) who = false →
        ∃ t, exec (.vatUnschedAccess who d off data) s = .next t
          ∧ t.dev.slot (slotKey d.val 4 clsSE) ≠ none
          ∧ (data = none → SMap.get 0 t.dev.net.vatRead (partyNum who) = 0)
          ∧ RegsExcept s t [FC_CNT d.val 4 clsSE] ∧ ChangesOnly s t [.regs, .flt, .net])
      ∧ (¬vat → s.env.has (partyDie s.env who) = true →
        ∃ t, exec (.vatUnschedAccess who d off data) s = .next t
          ∧ t.dev.slot (slotKey (partyDie s.env who) 4 clsIF) ≠ none
          ∧ (data = none → SMap.get 0 t.dev.net.vatRead (partyNum who) = 0)
          ∧ RegsExcept s t [FC_CNT (partyDie s.env who) 4 clsIF] ∧ ChangesOnly s t [.regs, .flt, .net]))
  ∧ (∀ (p : Fin 4) (d : Fin 8) (off : Nat) (data : Option (List Byte)) (s : State) (r : Running) (c : VatCopy),
      copyAt s.dev p.val d.val off (data != none) = some (r, c) → Clocked s d.val 0 →
      let bank := (bankOfWord s.dev d.val (off / 128)).1
      let n := min c.len (128 - off % 128)
      (vatPort s.env (.engine p) d.val bank s.dev = none → ∃ t, exec (.vatUnschedAccess (.engine p) d off data) s = .next t
        ∧ ChangesOnly s t [.regs, .net])
      ∧ (∀ port, vatPort s.env (.engine p) d.val bank s.dev = some port → copiesLeft r.copies ≠ [] →
        ∃ t, exec (.vatUnschedAccess (.engine p) d off data) s = .next t
          ∧ (t.dev.port p.val).running = (s.dev.port p.val).running.map (fun x => if x = r then { x with copies := copiesLeft r.copies } else x)
          ∧ (∀ bs, c.data = some bs → bs.length = c.len → NoneAfter s (vatMem d.val off) (s.dev.cycle s.env d.val) →
              (∀ k, k < n → readByte t (vatMem d.val off + k) = bs.getD k 0)
              ∧ (∀ a, a < vatMem d.val off ∨ vatMem d.val off + n ≤ a → readByte t a = readByte s a))
          ∧ ChangesOnly s t [.regs, .mem, .net, .ports])
      ∧ (∀ port, vatPort s.env (.engine p) d.val bank s.dev = some port → copiesLeft r.copies = [] → ringed s p.val →
        ∃ t, exec (.vatUnschedAccess (.engine p) d off data) s = .next t ∧ Written s t p.val r r.st r.detail []
          ∧ (t.dev.port p.val).running = (s.dev.port p.val).running.erase r))
  ∧ (∀ (who : Party) (d : Fin 8) (k : Fin 16) (x : Word) (s : State), s.env.has d.val = true → isFirmware who = true →
      (vatSetOk s.env s.dev d.val k.val x = true → ∃ t, exec (.vatSetWrite who d k x) s = .next t
        ∧ reg t (VAT_SET d.val k.val) = x &&& 0x800771FF
        ∧ RegsExcept s t [VAT_SET d.val k.val]
        ∧ (MemOk s → MemOk t)
        ∧ ChangesOnly s t [.regs, .mem])
      ∧ (vatSetOk s.env s.dev d.val k.val x = false → ∃ t, exec (.vatSetWrite who d k x) s = .next t
        ∧ bit (reg t (VAT_STATUS d.val)) 0 = true ∧ OnlyRegs s t [VAT_STATUS d.val])
      ∧ (∃ t, exec (.vatBankSelWrite who d x) s = .next t ∧ reg t (VAT_BANK_SEL d.val) = w32 (fld x 0 6)
        ∧ (∀ r ∈ [VAT_BANK_SCHED_LO d.val, VAT_BANK_SCHED_HI d.val, VAT_BANK_UNSCHED_LO d.val, VAT_BANK_UNSCHED_HI d.val,
            VAT_BANK_WAIT_LO d.val, VAT_BANK_WAIT_HI d.val], reg t r = 0)
        ∧ ChangesOnly s t [.regs]))
  ∧ (∀ (d : Fin 8) (bank : Fin 64) (rows : Nat) (s : State), s.env.has d.val = true → setIdle s.dev d.val bank.val = true →
      let w := reg s (VAT_SPARE d.val)
      let used := SMap.get 0 s.dev.net.rowsUsed (d.val * 64 + bank.val) + rows
      (rows ≠ 0 → used ≤ 16 → ∃ t, exec (.vatSpareMap d bank rows) s = .next t
        ∧ SMap.get 0 t.dev.net.rowsUsed (d.val * 64 + bank.val) = used ∧ ChangesOnly s t [.net])
      ∧ (rows = 0 ∨ 16 < used → bit w 6 = false → ∃ t, exec (.vatSpareMap d bank rows) s = .next t
        ∧ fld (reg t (VAT_SPARE d.val)) 0 6 = bank.val ∧ bit (reg t (VAT_SPARE d.val)) 6 = true ∧ OnlyRegs s t [VAT_SPARE d.val])
      ∧ (rows = 0 ∨ 16 < used → bit w 6 = true → bit w 14 = false → ∃ t, exec (.vatSpareMap d bank rows) s = .next t
        ∧ fld (reg t (VAT_SPARE d.val)) 8 6 = bank.val ∧ bit (reg t (VAT_SPARE d.val)) 14 = true ∧ OnlyRegs s t [VAT_SPARE d.val])
      ∧ (rows = 0 ∨ 16 < used → bit w 6 = true → bit w 14 = true → ∃ t, exec (.vatSpareMap d bank rows) s = .next t
        ∧ (d.val * 64 + bank.val) ∈ t.dev.net.fencedBanks ∧ bit (reg t (VAT_STATUS d.val)) 1 = true
        ∧ RegsExcept s t [VAT_STATUS d.val] ∧ ChangesOnly s t [.regs, .net]))

/-- Of a source that may inject, on a die whose FCK clock runs, the oldest closed packet leaves the interface with the coach and epoch of the moment (R130): named by core number, or by rank through its coach's rank table, it enters at the source's router, when the tile's hub gives the source its turn, bound for the core that the route entry of its version names; a core's packet to itself goes into its loopback without a turn; named by a group of its coach it enters bound for the group's cores; and EF_INJ_PKTS counts. Without its turn it stays. Without a valid route entry nothing enters, EF_NOROUTE counts and an IF record is left; a foreign group is dropped with an SE record; a source without a coach drops it with an IF record once in a tick. A held coach or a die in warm reset injects nothing. A management interface injects its MAINT packet for the physical cores that it names. -/
def Obligations.PacketsLeaveTheirSource : Prop :=
  (∀ (src : Source) (s : State) (c : Closed) (rest : List Closed), (∀ d m, src ≠ .maint d m) →
    let k := srcKey src
    let d := ifaceDie k
    let g := ifaceOwner s.dev k
    let pkt := stamped s.env s.dev k c.pkt
    let goesOn (t : State) : Prop := ∃ more, (t.dev.iface k).closed = rest ++ more
      ∧ ((ifaceIsCore k = true → (s.dev.core k).fire = none) → more = [] ∧ t.dev.cores = s.dev.cores)
    let enters (t : State) (x : Packet) (members : List Nat) : Prop :=
      let loop := ifaceIsCore k && members == [k]
      t.dev.fab.flights = s.dev.fab.flights
          ++ [⟨s.dev.fab.nextPid, x, d, ifaceTile k, if loop then some (pSlot k) else none, members, if loop then 6 else 5, false⟩]
      ∧ t.dev.rd64 (EF_INJ_PKTS_LO d) (EF_INJ_PKTS_HI d) = min (s.dev.rd64 (EF_INJ_PKTS_LO d) (EF_INJ_PKTS_HI d) + 1) 0xFFFFFFFFFFFFFFFF
      ∧ goesOn t ∧ RegsExcept s t [EF_INJ_PKTS_LO d, EF_INJ_PKTS_HI d] ∧ ChangesOnly s t [.regs, .cores, .fab]
    let turn (members : List Nat) : Prop := (ifaceIsCore k && members == [k]) = true ∨ hubTurn s.env s.dev k c.pkt.flits = true
    let waits := (g < 4 ∧ isHeld s.env s.dev g = true) ∨ s.dev.dieDown.contains d = true
    (s.dev.iface k).closed = c :: rest → Clocked s (sourceDie src) 2 →
    (waits → exec (.packetInject src) s = .next s)
    ∧ (¬waits → g < 4 → c.chan = none →
        (∀ m, c.rank = false → pkt.dkind ≠ 1 → pkt.dest < s.env.cores → routeOf s.dev pkt.epoch pkt.dest = some m →
          (turn [m] → ∃ t, exec (.packetInject src) s = .next t ∧ enters t pkt [m])
          ∧ (¬turn [m] → exec (.packetInject src) s = .next s))
        ∧ (∀ n m, c.rank = true → pkt.dest < (s.dev.coach g).rankCount → SMap.get 0 (s.dev.coach g).ranks pkt.dest = n + 1 →
            n < s.env.cores → routeOf s.dev pkt.epoch n = some m → turn [m] →
          ∃ t, exec (.packetInject src) s = .next t ∧ enters t { pkt with dest := n } [m])
        ∧ (∀ gr, c.rank = false → pkt.dkind = 1 → groupOf s.dev pkt.epoch pkt.dest = some gr → gr.owner = g → turn gr.places →
          ∃ t, exec (.packetInject src) s = .next t ∧ enters t pkt gr.places)
        ∧ (c.rank = false → pkt.dkind ≠ 1 → pkt.dest < s.env.cores → routeOf s.dev pkt.epoch pkt.dest = none → s.env.has d = true →
          ∃ t, exec (.packetInject src) s = .next t ∧ t.dev.fab.flights = s.dev.fab.flights ∧ goesOn t
            ∧ reg t (EF_NOROUTE d) = satAdd32 (reg s (EF_NOROUTE d)) 1 ∧ t.dev.slot (slotKey d g clsIF) ≠ none
            ∧ t.dev.mem = s.dev.mem)
        ∧ (∀ gr, c.rank = false → pkt.dkind = 1 → groupOf s.dev pkt.epoch pkt.dest = some gr → gr.owner ≠ g → s.env.has d = true →
          ∃ t, exec (.packetInject src) s = .next t ∧ t.dev.fab.flights = s.dev.fab.flights ∧ goesOn t
            ∧ reg t (EF_XCOACH_DROP d) = satAdd32 (reg s (EF_XCOACH_DROP d)) 1 ∧ t.dev.slot (slotKey d g clsSE) ≠ none
            ∧ t.dev.mem = s.dev.mem))
    ∧ (¬waits → g = 4 → c.chan = none → s.env.has d = true →
          ∃ t, exec (.packetInject src) s = .next t ∧ t.dev.fab.flights = s.dev.fab.flights ∧ (t.dev.iface k).noCoachRec = true
            ∧ ((s.dev.iface k).noCoachRec = false → t.dev.slot (slotKey d 4 clsIF) ≠ none)
            ∧ t.dev.mem = s.dev.mem))
  ∧ (∀ (d : Fin 8) (m : Maint) (s : State),
      let k := blockIface d.val 20
      let pkt := maintPacket d.val m
      let dests := maintDests s.env m.dest.val
      s.env.has d.val = true → s.dev.dieDown.contains d.val = false → Clocked s d.val 2 → 1 ≤ m.data.length → m.data.length ≤ 128 → dests ≠ [] →
      (hubTurn s.env s.dev k pkt.flits = true → ∃ t, exec (.packetInject (.maint d m)) s = .next t
        ∧ t.dev.fab.flights = s.dev.fab.flights ++ [⟨s.dev.fab.nextPid, pkt, d.val, ifaceTile k, none, dests, 5, false⟩]
        ∧ t.dev.rd64 (EF_INJ_PKTS_LO d.val) (EF_INJ_PKTS_HI d.val)
            = min (s.dev.rd64 (EF_INJ_PKTS_LO d.val) (EF_INJ_PKTS_HI d.val) + 1) 0xFFFFFFFFFFFFFFFF
        ∧ RegsExcept s t [EF_INJ_PKTS_LO d.val, EF_INJ_PKTS_HI d.val] ∧ ChangesOnly s t [.regs, .fab])
      ∧ (hubTurn s.env s.dev k pkt.flits = false → exec (.packetInject (.maint d m)) s = .next s))

/-- For a packet in flight, on a die whose FCK clock runs, at the front of its buffer whose members share one next hop, when that output's arbiter serves it: without a flit error it moves to the next router, waits at its destination interface, or crosses a coupling that is up, on VC1 where it enters a die by a north or south edge whose route entry has VCSW; only the link counters and the arbiter change. At a coupling in discard it vanishes and EF_CPL_DOWN_DROP counts; while its output does not serve it, as at a coupling that is down or retrains, or behind another packet, it stays. A corrected flit counts EF_FLIT_CE and the packet goes on; a body error goes on with it; a head error discards it and counts EF_FLIT_UE. A packet that goes several ways, or whose group entry names further outputs, does not leave its router before it is stored: once the replication buffer of its channel is free, one copy for each next hop takes its place among the packets there, together serving the same members (that no copy goes back to an output off its way is the model's reading, log entry 108); a unicast packet with one output is not replicated. -/
def Obligations.PacketsTravelHopByHop : Prop :=
  ∀ (pid wait : Nat) (s : State) (f : Flight), s.dev.flight pid = some f → Clocked s f.die 2 →
    let link := [EF_LINK_BUSY_LO f.die, EF_LINK_BUSY_HI f.die, EF_LINK_WAIT_LO f.die, EF_LINK_WAIT_HI f.die]
    let front := atFront s.dev f = true
    let busy := s.dev.fab.flights.any (fun x => x.die == f.die && x.tile == f.tile && x.copy && x.pkt.vc == f.pkt.vc)
    (front → ∀ h, hopsOf s.env s.dev f = [h] → granted s.env s.dev f (outDir h) = true →
      (∀ slot, h = .local slot → ∃ t, exec (.routerHop pid .none wait) s = .next t
        ∧ t.dev.flight pid = some { f with slot := some slot, copy := false } ∧ RegsExcept s t link ∧ ChangesOnly s t [.regs, .fab])
      ∧ (∀ tile port, h = .mesh tile port → ∃ t, exec (.routerHop pid .none wait) s = .next t
        ∧ t.dev.flight pid = some { f with tile := tile, inp := inDir port, copy := false }
        ∧ RegsExcept s t link ∧ ChangesOnly s t [.regs, .fab])
      ∧ (∀ tile port k, h = .mesh tile port → ∃ t, exec (.routerHop pid (.body k) wait) s = .next t
        ∧ t.dev.flight pid = some { f.spoil k.val with tile := tile, inp := inDir port, copy := false }
        ∧ RegsExcept s t link ∧ ChangesOnly s t [.regs, .fab])
      ∧ (∀ e n, h = .cross e → neighbour s.hw.part f.die e = some n → bit (reg s (EF_CPL_STATUS f.die e)) 3 = false →
        ∃ t, exec (.routerHop pid .none wait) s = .next t
          ∧ t.dev.flight pid = some { f with
              die := n, tile := entryTile f.tile e, inp := inDir (outDir h), copy := false,
              pkt := { f.pkt with
                vc := f.pkt.vc || (decide (2 ≤ e) && f.members.any (fun m => drouteOf s.env s.dev n (pDie m) / 8 == 1)) } }
          ∧ RegsExcept s t link ∧ ChangesOnly s t [.regs, .fab])
      ∧ (∀ e, h = .cross e → bit (reg s (EF_CPL_STATUS f.die e)) 3 = true → ∃ t, exec (.routerHop pid .none wait) s = .next t
        ∧ t.dev.flight pid = none
        ∧ reg t (EF_CPL_DOWN_DROP f.die) = satAdd32 (reg s (EF_CPL_DOWN_DROP f.die)) 1 ∧ t.dev.mem = s.dev.mem)
      ∧ (∃ t, exec (.routerHop pid .corrected wait) s = .next t
        ∧ reg t (EF_FLIT_CE f.die) = satAdd32 (reg s (EF_FLIT_CE f.die)) 1 ∧ t.dev.mem = s.dev.mem))
    ∧ (∀ h, hopsOf s.env s.dev f = [h] → granted s.env s.dev f (outDir h) = false → exec (.routerHop pid .none wait) s = .next s)
    ∧ (∀ e, hopsOf s.env s.dev f = [.cross e] → fld (reg s (EF_CPL_STATUS f.die e)) 1 3 ∈ [0, 2, 3] →
        exec (.routerHop pid .none wait) s = .next s)
    ∧ (¬front → ∀ err, exec (.routerHop pid err wait) s = .next s ∧ exec (.multicastReplicate pid) s = .next s)
    ∧ (front → ∃ t, exec (.routerHop pid .head wait) s = .next t ∧ t.dev.flight pid = none
        ∧ reg t (EF_FLIT_UE f.die) = satAdd32 (reg s (EF_FLIT_UE f.die)) 1 ∧ t.dev.mem = s.dev.mem)
    ∧ (front → f.copy = false → (s.dev.fab.flights.map (·.pid)).Nodup → ∀ h rest, hopsOf s.env s.dev f = h :: rest →
        (rest ≠ [] ∨ (f.pkt.dkind = 1 ∧ ∃ g m m', groupOf s.dev f.pkt.epoch f.pkt.dest = some g ∧ m ∈ g.places ∧ m' ∈ g.places
            ∧ nextHop s.env s.dev f.die f.tile m ≠ nextHop s.env s.dev f.die f.tile m') →
        (∀ err ∈ [FlitErr.none, .corrected], exec (.routerHop pid err wait) s = .next s)
        ∧ (busy = false → ∃ t before after copies, exec (.multicastReplicate pid) s = .next t
          ∧ s.dev.fab.flights = before ++ f :: after ∧ t.dev.fab.flights = before ++ copies ++ after
          ∧ copies.map (fun c => { c with pid := 0 }) = (h :: rest).map (fun x =>
              { f with pid := 0, members := f.members.filter (fun m => nextHop s.env s.dev f.die f.tile m == x), copy := true })
          ∧ copies.head?.map (·.pid) = some pid ∧ ChangesOnly s t [.fab])
        ∧ (busy = true → exec (.multicastReplicate pid) s = .next s)))
    ∧ (∀ h, hopsOf s.env s.dev f = [h] → f.pkt.dkind ≠ 1 → exec (.multicastReplicate pid) s = .next s)

/-- Of the packets that wait at an interface the oldest is ejected. A version 2 event packet of the core's coach, addressed to the core's number, whole and without flit errors, at a core that is ready and has room: leaves the fabric, its events wait in order at the core, all with the class and target tick of R50 for the packet's tag, and EF_EJ_PKTS counts. Without room it stays, and keeps a body error found meanwhile. A packet of another coach is dropped, counted in EF_XCOACH_DROP and recorded as SE; one for a fenced core is dropped and counted in EF_FENCED_DROP, its flit errors counted and recorded as well; neither reaches the core. A MAINT packet without a flit error writes its data to the program store that it names, whoever owns the core. A head error found here discards the packet. -/
def Obligations.PacketsAreEjected : Prop :=
  ∀ (pid : Nat) (s : State) (f : Flight) (slot : Nat), s.dev.flight pid = some f → f.slot = some slot → f.tile < 64 → slot < 33 →
      s.dev.fab.flights.find? (fun x => x.die == f.die && x.tile == f.tile && x.slot == some slot && x.inp == f.inp) = some f →
      f.pkt.version = 2 → Clocked s f.die 2 →
    let p := pMake f.die f.tile slot
    let d := f.die
    let k := s.dev.core p
    let ct := classify (openTickNow s.env s.dev p) f.pkt.tag
    let maint := f.pkt.typ = 3
    (¬maint → s.dev.isFenced p = false → notReady s.dev p = false → s.dev.dieDown.contains d = false → s.dev.coreOwner p = f.pkt.coach →
        f.pkt.coach < 4 → (f.pkt.dkind = 0 → s.dev.numberOf p = some f.pkt.dest) → f.pkt.typ = 0 → f.pkt.words ≠ [] →
        f.pkt.words.length = 8 * f.pkt.lenM1 + f.pkt.lastM1 + 1 → f.pkt.badFlits = [] → bit (reg s (NC_STATUS p)) 0 = true →
        (k.inbuf.length + k.arrivals.length + f.pkt.words.length ≤ 512 → ∃ t, exec (.packetEject ⟨pid, .none⟩) s = .next t
          ∧ t.dev.flight pid = none
          ∧ t.dev.core p = { k with
              arrivals := k.arrivals ++ f.pkt.words.map (fun w => ⟨⟨fld w 0 16, fld w 16 8, fld w 24 4, ct.2⟩, ct.1⟩) }
          ∧ t.dev.rd64 (EF_EJ_PKTS_LO d) (EF_EJ_PKTS_HI d) = min (s.dev.rd64 (EF_EJ_PKTS_LO d) (EF_EJ_PKTS_HI d) + 1) 0xFFFFFFFFFFFFFFFF
          ∧ RegsExcept s t [EF_EJ_PKTS_LO d, EF_EJ_PKTS_HI d, PM_STATUS d, FW_TRACE d f.pkt.coach]
          ∧ ChangesOnly s t [.regs, .cores, .fab, .traces])
        ∧ (512 < k.inbuf.length + k.arrivals.length + f.pkt.words.length → ∃ t, exec (.packetEject ⟨pid, .none⟩) s = .next t
          ∧ OnlyRegs s t [PM_STATUS d])
        ∧ (512 < k.inbuf.length + k.arrivals.length + f.pkt.words.length → ∀ b, ∃ t, exec (.packetEject ⟨pid, .body b⟩) s = .next t
          ∧ t.dev.flight pid = some (f.spoil b.val) ∧ RegsExcept s t [PM_STATUS d] ∧ ChangesOnly s t [.regs, .fab]))
    ∧ (¬maint → s.dev.isFenced p = false → notReady s.dev p = false → s.dev.dieDown.contains d = false → s.dev.coreOwner p ≠ f.pkt.coach →
        s.env.has d = true → ∃ t, exec (.packetEject ⟨pid, .none⟩) s = .next t ∧ t.dev.flight pid = none ∧ t.dev.cores = s.dev.cores
          ∧ reg t (EF_XCOACH_DROP d) = satAdd32 (reg s (EF_XCOACH_DROP d)) 1
          ∧ t.dev.slot (slotKey d (s.dev.coreOwner p) clsSE) ≠ none ∧ t.dev.mem = s.dev.mem)
    ∧ (¬maint → s.dev.isFenced p = true → ∃ t, exec (.packetEject ⟨pid, .none⟩) s = .next t ∧ t.dev.flight pid = none
          ∧ reg t (EF_FENCED_DROP d) = satAdd32 (reg s (EF_FENCED_DROP d)) 1
          ∧ (f.pkt.badFlits = [] → RegsExcept s t [EF_FENCED_DROP d, PM_STATUS d] ∧ ChangesOnly s t [.regs, .fab])
          ∧ (∀ k, f.pkt.badFlits = [k] → s.env.has d = true → f.pkt.coach < 4 → reg t (EF_FLIT_UE d) = satAdd32 (reg s (EF_FLIT_UE d)) 1
              ∧ t.dev.slot (slotKey d f.pkt.coach clsUS) ≠ none))
    ∧ (maint → f.pkt.badFlits = [] → fldN f.pkt.info 19 1 = 1 →
        let bytes := (f.pkt.words.map (fun w => leBytes 4 w.toNat)).flatten
        let at' := fldN f.pkt.info 0 19 % 0x4000
        ∃ t, exec (.packetEject ⟨pid, .none⟩) s = .next t ∧ t.dev.flight pid = none
          ∧ (∀ i b, bytes[i]? = some b → at' + i < 0x4000 → readByte t (progMem p (at' + i)) = b)
          ∧ (∀ a, a < progMem p 0 ∨ progMem p 0x4000 ≤ a → readByte t a = readByte s a)
          ∧ RegsExcept s t [EF_EJ_PKTS_LO d, EF_EJ_PKTS_HI d, PM_STATUS d] ∧ ChangesOnly s t [.regs, .mem, .fab])
    ∧ (∃ t, exec (.packetEject ⟨pid, .head⟩) s = .next t ∧ t.dev.flight pid = none
        ∧ reg t (EF_FLIT_UE d) = satAdd32 (reg s (EF_FLIT_UE d)) 1 ∧ t.dev.mem = s.dev.mem)

/-- A replay is counted. An event module that goes down shows not up, not retraining and DISCARD at both ends. Of its first four lane repairs each is counted and sets RETRAIN; a fifth takes the module down. Retraining done clears RETRAIN at both ends. A timetable module that goes down, or whose lane is repaired, is down, or paused with its repairs counted, at both ends, and each coach with quarters on it gets a US record when it goes down; a paused one resumes at the time of its retraining. -/
def Obligations.CouplingModulesChangeState : Prop :=
  ∀ (d : Fin 8) (edge : Fin 4) (s : State),
    let here := EF_CPL_STATUS d.val edge.val
    let m := d.val * 4 + edge.val
    (s.env.has d.val = true → Clocked s d.val 2 → ∃ t, exec (.couplingReplay d edge) s = .next t
        ∧ reg t (EF_CPL_REPLAY d.val) = satAdd32 (reg s (EF_CPL_REPLAY d.val)) 1 ∧ OnlyRegs s t [EF_CPL_REPLAY d.val])
    ∧ (∀ n, neighbour s.hw.part d.val edge.val = some n →
        let there := EF_CPL_STATUS n (opposite edge.val)
        let m' := n * 4 + opposite edge.val
        (∃ t, exec (.couplingDown d edge 0) s = .next t ∧ fld (reg t here) 1 3 = 4 ∧ fld (reg t there) 1 3 = 4
          ∧ RegsExcept s t [here, there] ∧ ChangesOnly s t [.regs, .ports])
        ∧ (∃ t, exec (.couplingDown d edge 1) s = .next t ∧ t.dev.net.downMods.contains m = true ∧ t.dev.net.downMods.contains m' = true
          ∧ (∀ g, g < 4 → s.env.has d.val = true → 0 < quarters s.dev d.val edge.val g ∨ 0 < quarters s.dev n (opposite edge.val) g →
              t.dev.slot (slotKey d.val g clsUS) ≠ none)
          ∧ t.dev.mem = s.dev.mem)
        ∧ (fld (reg s here) 4 3 < 4 → ∃ t, exec (.laneRepair d edge 0) s = .next t
          ∧ fld (reg t here) 4 3 = fld (reg s here) 4 3 + 1 ∧ bit (reg t here) 2 = true
          ∧ RegsExcept s t [here, there] ∧ ChangesOnly s t [.regs, .ports])
        ∧ (4 ≤ fld (reg s here) 4 3 → ∃ t, exec (.laneRepair d edge 0) s = .next t ∧ fld (reg t here) 1 3 = 4
          ∧ RegsExcept s t [here, there] ∧ ChangesOnly s t [.regs, .ports])
        ∧ (SMap.get 0 s.dev.net.ttRepairs m < 4 → ∃ t, exec (.laneRepair d edge 1) s = .next t
          ∧ t.dev.net.pausedMods.contains m = true ∧ t.dev.net.pausedMods.contains m' = true
          ∧ SMap.get 0 t.dev.net.ttRepairs m = SMap.get 0 s.dev.net.ttRepairs m + 1 ∧ ChangesOnly s t [.net])
        ∧ (4 ≤ SMap.get 0 s.dev.net.ttRepairs m → ∃ t, exec (.laneRepair d edge 1) s = .next t
          ∧ t.dev.net.downMods.contains m = true ∧ t.dev.net.downMods.contains m' = true ∧ t.dev.mem = s.dev.mem)
        ∧ (∃ t, exec (.couplingRetrainDone d edge 0) s = .next t ∧ bit (reg t here) 2 = false ∧ bit (reg t there) 2 = false
          ∧ OnlyRegs s t [here, there])
        ∧ (s.dev.net.pausedMods.contains m = true → s.dev.net.pausedMods.contains m' = true →
          ∃ t, exec (.couplingRetrainDone d edge 1) s = .next t
            ∧ t.dev.net.pausedMods.contains m = false ∧ t.dev.net.pausedMods.contains m' = false
            ∧ SMap.get 0 t.dev.net.resumed m = s.env.now ∧ ChangesOnly s t [.net]))
    ∧ (neighbour s.hw.part d.val edge.val = none → ∀ mdl, exec (.couplingRetrainDone d edge mdl) s = .next s
        ∧ exec (.couplingDown d edge 1) s = .next s ∧ exec (.laneRepair d edge 1) s = .next s)

/-- For firmware and the dispatchers, on a die of the part: with every open coach held, nothing in flight and a staged table that passes R139, the commit puts every staged entry in use on every die, and EF_DROUTE reads it in both its fields; otherwise DROUTE_ERR is set and the routes in use stay. CLR_CNT clears the fabric's counters of the die. A port selection is stored and clears the link counters. A host port's write leaves an SE record and every EF register as it was, and is counted at the port. -/
def Obligations.FabricRegisterWritesTakeEffect : Prop :=
  ∀ (who : Party) (d : Fin 8) (x : Word) (s : State), s.env.has d.val = true →
    let link := [EF_LINK_BUSY_LO d.val, EF_LINK_BUSY_HI d.val, EF_LINK_WAIT_LO d.val, EF_LINK_WAIT_HI d.val]
    let quiet := (∀ g, g < 4 → s.dev.isOpen g = true → isHeld s.env s.dev g = true) ∧ s.dev.fab.flights = []
    let table := staged s.env s.dev
    (who ≠ .debug → (∀ h, who ≠ .port h) →
      (quiet → drouteOk s.env table = true → ∃ t, exec (.efCtrlDrouteCommit who d) s = .next t
        ∧ (∀ a e, a < s.env.dies → e < s.env.dies → drouteOf s.env t.dev a e = table a e
            ∧ efRead s.env t.dev a (0x40040 + 4 * e) = w32 (17 * table a e))
        ∧ ChangesOnly s t [.regs, .fab])
      ∧ (¬(quiet ∧ drouteOk s.env table = true) → ∃ t, exec (.efCtrlDrouteCommit who d) s = .next t
        ∧ bit (reg t (EF_STATUS d.val)) 0 = true ∧ t.dev.fab = s.dev.fab ∧ t.dev.mem = s.dev.mem)
      ∧ (∃ t, exec (.efCtrlClrCnt who d) s = .next t ∧ (∀ r ∈ efCounters d.val, reg t r = 0) ∧ OnlyRegs s t (efCounters d.val))
      ∧ (∃ t, exec (.efLinkSelWrite who d x) s = .next t ∧ reg t (EF_LINK_SEL d.val) = x &&& 0x3FF ∧ (∀ r ∈ link, reg t r = 0)
        ∧ OnlyRegs s t (EF_LINK_SEL d.val :: link)))
    ∧ (∀ h, who = .port h → ∀ i ∈ [Instr.efCtrlDrouteCommit who d, .efCtrlClrCnt who d, .efLinkSelWrite who d x],
        ∃ t, exec i s = .next t ∧ t.dev.slot (slotKey d.val 4 clsSE) ≠ none
          ∧ reg t (HP_DENIED_WR (portDie h.val) (portUnit h.val)) = satAdd32 (reg s (HP_DENIED_WR (portDie h.val) (portUnit h.val))) 1
          ∧ RegsExcept s t (FC_CNT d.val 4 clsSE :: deniedRegs who) ∧ ChangesOnly s t [.regs, .flt])

/-- For a party whose write reaches the core that holds the number: a closed queue that passes its check opens, WR and RD at 0, MSG_SEQ 0, the generation one higher; one that fails gets OPEN_ERR and an IF record. An open queue closes, its ring kept. RD of an open ring whose consumer is no relay is stored, and RD_ERR is set exactly when it is no multiple of 32 or WR − RD exceeds the ring; at an ADDRESSED queue, which does not use RD, it is stored unchecked. A channel in range is enabled, another gets CFG_ERR; a doorbell of an enabled DOORBELL channel triggers it or, while it is busy, counts QM_SKIP. A change of VIEW clears the debug registers, CLR_CNT the counters. -/
def Obligations.QueueRegisterWritesTakeEffect : Prop :=
  ∀ (who : Party) (no : CoreNo) (n : Nat) (q c : Fin 16) (x : Word) (s : State), writesCore s who no n → s.env.has (pDie n) = true →
    let b := s.dev.qBase n q.val
    let outside (t : State) (lo hi : Nat) : Prop := ∀ a, a < coreMem n (b + lo) ∨ coreMem n (b + hi) ≤ a → readByte t a = readByte s a
    (s.dev.qOpen n q.val = false → queueOk s.dev n q.val = true → ∃ t, exec (.qmQOpen who no q) s = .next t
        ∧ t.dev.qOpen n q.val = true ∧ bit (reg t (QM_Q_CTRL n q.val)) 10 = false ∧ bit (reg t (QM_STATUS n)) q.val = true
        ∧ t.dev.qWr n q.val = 0 ∧ t.dev.qRd n q.val = 0
        ∧ t.dev.qStatus n q.val = 0x10000 + (fldN (s.dev.qStatus n q.val) 24 8 + 1) % 256 * 0x1000000
        ∧ t.dev.ldCore n (b + 16) 1 = 2 ∧ t.dev.ldCore n (b + 17) 1 = s.dev.qMode n q.val
        ∧ (∀ e ∈ (t.dev.core n).slots, e.1 / 64 ≠ q.val)
        ∧ outside t 0 19 ∧ RegsExcept s t [QM_Q_CTRL n q.val, QM_STATUS n] ∧ ChangesOnly s t [.regs, .mem, .cores])
    ∧ (s.dev.qOpen n q.val = false → queueOk s.dev n q.val = false → ∃ t, exec (.qmQOpen who no q) s = .next t
        ∧ t.dev.qOpen n q.val = false ∧ bit (reg t (QM_Q_CTRL n q.val)) 9 = true
        ∧ t.dev.slot (slotKey (pDie n) (s.dev.coreOwner n) clsIF) ≠ none ∧ t.dev.mem = s.dev.mem ∧ t.dev.cores = s.dev.cores)
    ∧ (s.dev.qOpen n q.val = true → ∃ t, exec (.qmQClose who no q) s = .next t
        ∧ t.dev.qOpen n q.val = false ∧ bit (reg t (QM_STATUS n)) q.val = false ∧ fldN (t.dev.qStatus n q.val) 16 1 = 0
        ∧ outside t 4 8 ∧ RegsExcept s t [QM_Q_CTRL n q.val, QM_STATUS n] ∧ ChangesOnly s t [.regs, .mem, .cores])
    ∧ (s.dev.qOpen n q.val = true → s.dev.fd (QM_Q_CTRL n q.val) 3 2 ≠ 1 →
        let used := (s.dev.qWr n q.val + 0x100000000 - x.toNat) % 0x100000000
        let ok := x.toNat % 32 = 0 ∧ used ≤ s.dev.qRing n q.val
        (s.dev.qMode n q.val ≠ 1 → ∃ t, exec (.qmRdWrite who no q x) s = .next t ∧ t.dev.qRd n q.val = x.toNat
          ∧ (bit (reg t (QM_Q_CTRL n q.val)) 10 = true ↔ ¬ok) ∧ (fldN (t.dev.qStatus n q.val) 17 1 = 1 ↔ ¬ok)
          ∧ (¬ok → t.dev.slot (slotKey (pDie n) (s.dev.coreOwner n) clsIF) ≠ none)
          ∧ (ok → RegsExcept s t [QM_Q_CTRL n q.val] ∧ ChangesOnly s t [.regs, .mem])
          ∧ outside t 4 12 ∧ t.dev.cores = s.dev.cores)
        ∧ (s.dev.qMode n q.val = 1 → ∃ t, exec (.qmRdWrite who no q x) s = .next t ∧ t.dev.qRd n q.val = x.toNat
          ∧ outside t 8 12 ∧ ChangesOnly s t [.mem]))
    ∧ (s.dev.fb (QM_C_CTRL n c.val) 0 = false →
        (chanOk s.dev n c.val = true → ∃ t, exec (.qmCCtrlEn who no c) s = .next t ∧ bit (reg t (QM_C_CTRL n c.val)) 0 = true
          ∧ OnlyRegs s t [QM_C_CTRL n c.val])
        ∧ (chanOk s.dev n c.val = false → ∃ t, exec (.qmCCtrlEn who no c) s = .next t ∧ bit (reg t (QM_C_CTRL n c.val)) 0 = false
          ∧ bit (reg t (QM_C_STATUS n c.val)) 16 = true ∧ OnlyRegs s t [QM_C_STATUS n c.val]))
    ∧ (s.dev.fb (QM_C_CTRL n c.val) 0 = true → s.dev.fd (QM_C_CTRL n c.val) 1 2 = 0 →
        (chanBusy s.dev n c.val = false → ∃ t, exec (.qmCCtrlDoorbell who no c) s = .next t
          ∧ t.dev.trig n c.val = some ⟨(s.dev.core n).openTick, [0, 0, 0, 0, 0, 0, 0, 0], false⟩ ∧ ChangesOnly s t [.cores])
        ∧ (chanBusy s.dev n c.val = true → ∃ t, exec (.qmCCtrlDoorbell who no c) s = .next t
          ∧ reg t (QM_SKIP n) = satAdd32 (reg s (QM_SKIP n)) 1 ∧ OnlyRegs s t [QM_SKIP n]))
    ∧ (∃ t, exec (.qmCtrlWrite who no x) s = .next t ∧ bit (reg t (QM_CTRL n)) 0 = bit x 0
        ∧ (bit (reg s (QM_CTRL n)) 0 ≠ bit x 0 → ∀ k, k < 16 → reg t (QM_DBG_LO n k) = 0 ∧ reg t (QM_DBG_HI n k) = 0)
        ∧ (bit x 1 = true → ∀ r ∈ qmCounters n, reg t r = 0)
        ∧ ChangesOnly s t [.regs])

/-- A triggered, enabled channel whose LOCAL message lies in the window of an ADDRESSED queue takes the next SENDNO and offers one packet at the interface; outside a window it ends with BAD_PARAM. A RELAY channel triggers on an entry of its queue and offers its message; an entry of another version is passed over with an IF record (the place it frees is the model's choice, log entry 148). A BUSY reply backs the send off by 256 ns doubled with each attempt, at most 8,192 ns; a due retry within the stall limit offers the packet again, one past it, or one that still waits at its interface then, ends with STALLED_OUT and leaves the interface; a reply limit passed ends it with TIMEOUT; an OK reply ends it and counts QM_TX_MSGS; however a relayed entry's send ends, RD passes the entry, and unless the code is OK QM_RELAY_DROP counts; a reply to no waiting send counts QM_STALE_REPLY. -/
def Obligations.SendsStartRetryAndEnd : Prop :=
  ∀ (p : Phys) (c : Fin 16) (s : State), Clocked s (pDie p.idx) 1 →
    let n := p.idx
    let now := s.env.nowOf (pDie n)
    let st := QM_C_STATUS n c.val
    (∀ tr, s.dev.trig n c.val = some tr → s.dev.fb (QM_C_CTRL n c.val) 0 = true → tr.relay = false →
        s.dev.fd (QM_C_CTRL n c.val) 4 2 ≠ 1 →
        let a := s.dev.fd (QM_C_SRC n c.val) 0 13 * 32
        let len := 32 * (s.dev.fd (QM_C_CTRL n c.val) 12 4 + 1)
        (inWindow s.dev n a len = true → ∃ t pk, exec (.sendStart p c) s = .next t
          ∧ t.dev.trig n c.val = none
          ∧ fld (reg t (QM_C_SENDNO n c.val)) 0 16 = (fld (reg s (QM_C_SENDNO n c.val)) 0 16 + 1) % 65536
          ∧ (t.dev.send n c.val).map (fun x => (x.sendno, x.waiting, x.attempts)) = some (fld (reg t (QM_C_SENDNO n c.val)) 0 16, true, 0)
          ∧ (t.dev.send n c.val).bind (fun x => x.heldAt) = (if chanHeld s.env s.dev n = true then some now else none)
          ∧ (t.dev.iface n).closed = (s.dev.iface n).closed ++ [pk] ∧ pk.chan = some c.val
          ∧ pk.pkt.dest = s.dev.fd (QM_C_DEST n c.val) 0 18 ∧ 32 * (pk.pkt.lenM1 + 1) = len
          ∧ RegsExcept s t [QM_C_SENDNO n c.val, st] ∧ ChangesOnly s t [.regs, .cores, .fab])
        ∧ (inWindow s.dev n a len = false → ∃ t, exec (.sendStart p c) s = .next t ∧ t.dev.trig n c.val = none
          ∧ t.dev.send n c.val = none ∧ fld (reg t st) 8 8 = stBadParam ∧ fld (reg t st) 0 2 = 0
          ∧ RegsExcept s t [QM_C_SENDNO n c.val, st] ∧ ChangesOnly s t [.regs, .cores]))
    ∧ (∀ tr q, s.dev.trig n c.val = some tr → s.dev.fb (QM_C_CTRL n c.val) 0 = true → tr.relay = true → relayQueue s.dev n c.val = some q →
        let hdr := ringRead s.dev n q (s.dev.qRd n q) 32
        let len := leAt hdr 2 1 % 16
        (leAt hdr 0 1 = 2 → ∃ t pk, exec (.sendStart p c) s = .next t
          ∧ t.dev.trig n c.val = none
          ∧ (t.dev.send n c.val).map (fun x => (x.relay, x.relayQ, x.lenM1, x.data))
              = some (some (32 * (len + 2)), q, len, ringRead s.dev n q (s.dev.qRd n q + 32) (32 * (len + 1)))
          ∧ (t.dev.iface n).closed = (s.dev.iface n).closed ++ [pk] ∧ pk.chan = some c.val
          ∧ RegsExcept s t [QM_C_SENDNO n c.val, st] ∧ ChangesOnly s t [.regs, .cores, .fab])
        ∧ (leAt hdr 0 1 ≠ 2 → s.env.has (pDie n) = true → ∃ t, exec (.sendStart p c) s = .next t
          ∧ t.dev.trig n c.val = none ∧ t.dev.send n c.val = s.dev.send n c.val
          ∧ t.dev.qRd n q = (s.dev.qRd n q + 32 * (len + 2)) % 0x100000000
          ∧ t.dev.slot (slotKey (pDie n) (s.dev.coreOwner n) clsIF) ≠ none ∧ t.dev.fab = s.dev.fab))
    ∧ (∀ q, s.dev.fb (QM_C_CTRL n c.val) 0 = true → s.dev.fd (QM_C_CTRL n c.val) 1 2 = 3 → chanBusy s.dev n c.val = false →
        relayQueue s.dev n c.val = some q → qUsed s.dev n q ≠ 0 → ∃ t, exec (.relayTrigger p c) s = .next t
          ∧ t.dev.trig n c.val = some ⟨(s.dev.core n).openTick, [], true⟩ ∧ ChangesOnly s t [.cores])
    ∧ (∀ x, s.dev.send n c.val = some x → x.heldAt = none →
        let relayed (t : State) (ok : Bool) : Prop := (∀ m, x.relay = some m → x.relayQ < 16 → t.dev.qRd n x.relayQ = (s.dev.qRd n x.relayQ + m) % 0x100000000
            ∧ reg t (QM_RELAY_DROP n) = if ok then reg s (QM_RELAY_DROP n) else satAdd32 (reg s (QM_RELAY_DROP n)) 1)
          ∧ (x.relay = none → t.dev.mem = s.dev.mem ∧ reg t (QM_RELAY_DROP n) = reg s (QM_RELAY_DROP n))
        (∀ r, x.retryAt = some r → r ≤ now → r ≤ x.first + x.stallLimit → ∃ t, exec (.sendRetry p c) s = .next t
          ∧ fld (reg t st) 0 2 = 1 ∧ t.dev.send n c.val = some { x with waiting := true, retryAt := none }
          ∧ (t.dev.iface n).closed.length = (s.dev.iface n).closed.length + 1
          ∧ RegsExcept s t [st] ∧ ChangesOnly s t [.regs, .cores, .fab])
        ∧ (∀ r, x.retryAt = some r → x.first + x.stallLimit < r → x.first + x.stallLimit ≤ now →
          ∃ t, exec (.sendStalledOut p c) s = .next t ∧ t.dev.send n c.val = none ∧ fld (reg t st) 8 8 = stStalledOut
            ∧ reg t (QM_STALLED_OUT n) = satAdd32 (reg s (QM_STALLED_OUT n)) 1 ∧ relayed t false
            ∧ RegsExcept s t [st, QM_STALLED_OUT n, QM_RELAY_DROP n] ∧ ChangesOnly s t [.regs, .mem, .cores])
        ∧ (x.retryAt = none → x.waiting = true → 0 < x.attempts → x.first + x.stallLimit ≤ now →
          ∃ t, exec (.sendStalledOut p c) s = .next t ∧ t.dev.send n c.val = none ∧ fld (reg t st) 8 8 = stStalledOut
            ∧ (∀ y ∈ (t.dev.iface n).closed, y.chan ≠ some c.val)
            ∧ reg t (QM_STALLED_OUT n) = satAdd32 (reg s (QM_STALLED_OUT n)) 1 ∧ relayed t false
            ∧ RegsExcept s t [st, QM_STALLED_OUT n, QM_RELAY_DROP n] ∧ ChangesOnly s t [.regs, .mem, .cores, .fab])
        ∧ (x.retryAt = none → x.waiting = false → x.attempt + x.replyLimit ≤ now → ∃ t, exec (.replyTimeout p c) s = .next t
            ∧ t.dev.send n c.val = none ∧ fld (reg t st) 8 8 = stTimeout ∧ reg t (QM_TIMEOUT n) = satAdd32 (reg s (QM_TIMEOUT n)) 1
            ∧ relayed t false
            ∧ RegsExcept s t [st, QM_TIMEOUT n, QM_RELAY_DROP n] ∧ ChangesOnly s t [.regs, .mem, .cores])
        ∧ (∀ pkt rest, (s.dev.core n).replies = pkt :: rest → fldN pkt.info 0 4 = c.val → x.sendno = fldN pkt.info 24 16 →
            x.retryAt = none → x.waiting = false →
          (fld (pkt.words.getD 0 0) 8 8 = stBusy → ∃ t, exec (.replyArrival p) s = .next t
            ∧ t.dev.send n c.val = some { x with retryAt := some (now + min (256 * 2 ^ (x.attempts - 1)) 8192) }
            ∧ fld (reg t st) 0 2 = 2 ∧ (t.dev.core n).replies = rest
            ∧ RegsExcept s t [st, QM_DBG_HI n c.val] ∧ ChangesOnly s t [.regs, .cores])
          ∧ (fld (pkt.words.getD 0 0) 8 8 = stOk → ∃ t, exec (.replyArrival p) s = .next t ∧ t.dev.send n c.val = none
            ∧ fld (reg t st) 8 8 = stOk ∧ fld (reg t st) 0 2 = 0 ∧ relayed t true
            ∧ t.dev.rd64 (QM_TX_MSGS_LO n) (QM_TX_MSGS_HI n) = min (s.dev.rd64 (QM_TX_MSGS_LO n) (QM_TX_MSGS_HI n) + 1) 0xFFFFFFFFFFFFFFFF
            ∧ RegsExcept s t [st, QM_TX_MSGS_LO n, QM_TX_MSGS_HI n, QM_DBG_LO n c.val] ∧ ChangesOnly s t [.regs, .mem, .cores])))
    ∧ (∀ pkt rest, (s.dev.core n).replies = pkt :: rest → fldN pkt.info 0 4 = c.val → s.dev.send n c.val = none →
        ∃ t, exec (.replyArrival p) s = .next t ∧ reg t (QM_STALE_REPLY n) = satAdd32 (reg s (QM_STALE_REPLY n)) 1
          ∧ (t.dev.core n).replies = rest ∧ RegsExcept s t [QM_STALE_REPLY n] ∧ ChangesOnly s t [.regs, .cores])

/-- A unicast message for an open FIFO queue with room is stored at WR as one entry, header and data, in the ring; WR and MSG_SEQ advance, no byte outside the header's first eight and the ring changes, and a reply with code OK waits at the interface. Where the ring has no room, QM_FULL_REPLY counts and the reply says BUSY; for a closed queue QM_CLOSED_DROP counts, an IF record is left and the reply says CLOSED; then no byte of memory changes. An injected message takes the same effect, its code in QM_INJ_STATUS. The only complete slot that waits at a core is emitted once the ring has room for a header and the vector: it is free, WR advances by the entry's size and QM_COMB_SAT counts its saturated elements; without room nothing changes. A slot still accumulating past its age is counted in QM_COMB_PARTIAL and emitted as a partial entry, or waits, complete and partial, where the ring has no room. -/
def Obligations.MessagesReachTheirQueue : Prop :=
  (  ∀ (p : Phys) (s : State), Clocked s (pDie p.idx) 1 →
      let n := p.idx
      let rate (q : Nat) : Prop := s.dev.fb (NC_PL_CTRL n) 5 = true ∧ s.dev.fd (NC_PL_CTRL n) 1 4 = q
      (∀ pkt rest, (s.dev.core n).msgs = pkt :: rest → pkt.srcBlock = false → pkt.dkind ≠ 1 → pkt.typ = 1 →
        pkt.words.length = 8 * (pkt.lenM1 + 1) →
        let m := msgOf pkt
        let q := m.queue
        let size := 32 * (m.lenM1 + 2)
        let b := s.dev.qBase n q
        ¬rate q →
        (s.dev.qOpen n q = true → s.dev.qMode n q = 0 → b + 256 + s.dev.qRing n q ≤ 0x40000 → size ≤ s.dev.qRing n q →
          size ≤ qFree s.dev n q → ∃ t r, exec (.qmArrival p) s = .next t
            ∧ (t.dev.core n).msgs = rest
            ∧ ringRead t.dev n q (s.dev.qWr n q) size
                = entryHeader 0 m.lenM1 m.tag (m.src % 0x40000) m.seqTag m.sendno 1 (s.env.nowOf (pDie n)) ++ m.data
            ∧ t.dev.qWr n q = (s.dev.qWr n q + size) % 0x100000000
            ∧ fldN (t.dev.qStatus n q) 0 16 = (fldN (s.dev.qStatus n q) 0 16 + 1) % 65536
            ∧ (∀ a, (a < coreMem n b ∨ coreMem n (b + 8) ≤ a) → (a < coreMem n (b + 256) ∨ coreMem n (b + 256 + s.dev.qRing n q) ≤ a) →
                readByte t a = readByte s a)
            ∧ (t.dev.iface n).closed = (s.dev.iface n).closed ++ [r] ∧ r.pkt.dest = pkt.src ∧ fld (r.pkt.words.getD 0 0) 8 8 = stOk
            ∧ RegsExcept s t [QM_RX_MSGS_LO n, QM_RX_MSGS_HI n, FW_TRACE (pDie n) (s.dev.coreOwner n)]
            ∧ ChangesOnly s t [.regs, .mem, .cores, .fab, .traces])
        ∧ (s.dev.qOpen n q = true → s.dev.qMode n q = 0 → size ≤ s.dev.qRing n q → qFree s.dev n q < size →
          ∃ t r, exec (.qmArrival p) s = .next t ∧ reg t (QM_FULL_REPLY n) = satAdd32 (reg s (QM_FULL_REPLY n)) 1
            ∧ (t.dev.iface n).closed = (s.dev.iface n).closed ++ [r] ∧ fld (r.pkt.words.getD 0 0) 8 8 = stBusy
            ∧ t.dev.mem = s.dev.mem ∧ RegsExcept s t [QM_FULL_REPLY n, FW_TRACE (pDie n) (s.dev.coreOwner n)])
        ∧ (s.dev.qOpen n q = false → s.env.hasCore n = true →
          ∃ t r, exec (.qmArrival p) s = .next t ∧ reg t (QM_CLOSED_DROP n) = satAdd32 (reg s (QM_CLOSED_DROP n)) 1
            ∧ (t.dev.iface n).closed = (s.dev.iface n).closed ++ [r] ∧ fld (r.pkt.words.getD 0 0) 8 8 = stClosed
            ∧ t.dev.slot (slotKey (pDie n) (s.dev.coreOwner n) clsIF) ≠ none ∧ t.dev.mem = s.dev.mem))
      ∧ (∀ (who : Party) (no : CoreNo) (x : Word), writesCore s who no n → bit (reg s (QM_INJ_STATUS n)) 8 = true →
        let q := fld x 0 4
        let size := 32 * (fld x 4 4 + 2)
        ¬rate q →
        (s.dev.qOpen n q = true → s.dev.qMode n q = 0 → bit x 24 = false → size ≤ s.dev.qRing n q → size ≤ qFree s.dev n q →
          ∃ t, exec (.qmInjGo who no x) s = .next t ∧ reg t (QM_INJ_STATUS n) = w32 (stOk + 256)
            ∧ t.dev.qWr n q = (s.dev.qWr n q + size) % 0x100000000
            ∧ RegsExcept s t [QM_INJ_STATUS n, QM_RX_MSGS_LO n, QM_RX_MSGS_HI n, FW_TRACE (pDie n) (s.dev.coreOwner n)]
            ∧ ChangesOnly s t [.regs, .mem, .traces])
        ∧ (s.dev.qOpen n q = false → ∃ t, exec (.qmInjGo who no x) s = .next t ∧ reg t (QM_INJ_STATUS n) = w32 (stClosed + 256)
            ∧ t.dev.mem = s.dev.mem)))
  ∧ (  ∀ (p : Phys) (q : Fin 16) (slot : Fin 64) (s : State) (c : CombSlot), s.dev.comb p.idx q.val slot.val = some c →
      Clocked s (pDie p.idx) 1 →
      let n := p.idx
      let size := 32 + combVlen s.dev n q.val
      let sat := (combSum s.dev n q.val slot.val).2
      ((s.dev.core n).pendEmit = [q.val * 64 + slot.val] →
        (size ≤ qFree s.dev n q.val → ∃ t, exec (.combPendingEmit p q) s = .next t
          ∧ t.dev.comb n q.val slot.val = none ∧ (t.dev.core n).pendEmit = []
          ∧ reg t (QM_COMB_SAT n) = satAdd32 (reg s (QM_COMB_SAT n)) sat
          ∧ t.dev.qWr n q.val = (s.dev.qWr n q.val + size) % 0x100000000
          ∧ RegsExcept s t [QM_COMB_SAT n] ∧ ChangesOnly s t [.regs, .mem, .cores])
        ∧ (qFree s.dev n q.val < size → exec (.combPendingEmit p q) s = .next s))
      ∧ (s.dev.qOpen n q.val = true → s.dev.fb (QM_Q_COMB n q.val) 24 = true → c.complete = false →
          c.openTick + s.dev.fd (QM_Q_COMB n q.val) 25 7 < (s.dev.core n).openTick → (s.dev.core n).pendEmit = [] →
        (size ≤ qFree s.dev n q.val → ∃ t, exec (.combAgePartial p q slot) s = .next t
          ∧ t.dev.comb n q.val slot.val = none ∧ reg t (QM_COMB_PARTIAL n) = satAdd32 (reg s (QM_COMB_PARTIAL n)) 1
          ∧ t.dev.qWr n q.val = (s.dev.qWr n q.val + size) % 0x100000000
          ∧ RegsExcept s t [QM_COMB_SAT n, QM_COMB_PARTIAL n] ∧ ChangesOnly s t [.regs, .mem, .cores])
        ∧ (qFree s.dev n q.val < size → ∃ t, exec (.combAgePartial p q slot) s = .next t
          ∧ t.dev.comb n q.val slot.val = some { c with partialE := true, complete := true }
          ∧ (t.dev.core n).pendEmit = [q.val * 64 + slot.val]
          ∧ reg t (QM_COMB_PARTIAL n) = satAdd32 (reg s (QM_COMB_PARTIAL n)) 1
          ∧ RegsExcept s t [QM_COMB_PARTIAL n] ∧ ChangesOnly s t [.regs, .cores])))

/-- The reset values are 100,000 ns and 200 µs. A write that reaches the core with a 0 value sets QM_STATUS.CFG_ERR and changes nothing else; another value is stored in the one register that all channels of the core use and changes nothing else, so a send already started keeps the limits it latched, while SEND_START of any channel latches the limits that the registers then hold. -/
def Obligations.StallAndReplyLimitsFollowR190 : Prop :=
  (∀ n : Nat, regReset (QM_STALL_LIMIT n) = 100000 ∧ regReset (QM_REPLY_LIMIT n) = 200)
  ∧ (∀ (who : Party) (no : CoreNo) (n : Nat) (x : Word) (s : State), writesCore s who no n →
      (fld x 0 24 = 0 → ∃ t, exec (.limitWrite who (.stall no) x) s = .next t ∧ bit (reg t (QM_STATUS n)) 16 = true
          ∧ reg t (QM_STALL_LIMIT n) = reg s (QM_STALL_LIMIT n) ∧ OnlyRegs s t [QM_STATUS n])
      ∧ (fld x 0 16 = 0 → ∃ t, exec (.limitWrite who (.reply no) x) s = .next t ∧ bit (reg t (QM_STATUS n)) 16 = true
          ∧ reg t (QM_REPLY_LIMIT n) = reg s (QM_REPLY_LIMIT n) ∧ OnlyRegs s t [QM_STATUS n])
      ∧ (fld x 0 24 ≠ 0 → ∃ t, exec (.limitWrite who (.stall no) x) s = .next t
          ∧ (reg t (QM_STALL_LIMIT n)).toNat = fld x 0 24 ∧ OnlyRegs s t [QM_STALL_LIMIT n])
      ∧ (fld x 0 16 ≠ 0 → ∃ t, exec (.limitWrite who (.reply no) x) s = .next t
          ∧ (reg t (QM_REPLY_LIMIT n)).toNat = fld x 0 16 ∧ OnlyRegs s t [QM_REPLY_LIMIT n]))
  ∧ (∀ (p : Phys) (c : Fin 16) (s t : State) (x : Send), exec (.sendStart p c) s = .next t → s.dev.send p.idx c.val = none →
      t.dev.send p.idx c.val = some x →
      x.stallLimit = s.dev.fd (QM_STALL_LIMIT p.idx) 0 24 ∧ x.replyLimit = s.dev.fd (QM_REPLY_LIMIT p.idx) 0 16 * 1000)

/-- A write of 0 that reaches the port's block sets HP_STATUS.CFG_ERR, keeps HP_LOSS_TIMEOUT and changes nothing else; another value is stored. Whoever writes whatever, through this row, another register write to the register or a write of it that leaves any port's write queue, a timeout that was not 0 is not 0 afterwards. A port's own write is also counted in its HP_WRITE_SEQ. -/
def Obligations.LossTimeoutFollowsR320 : Prop :=
  (∀ (who : Party) (p : Fin 4) (x : Word) (s : State), isFirmware who = true ∨ who = .port p →
      let r := HP_LOSS_TIMEOUT (portDie p.val) (portUnit p.val)
      (fld x 0 16 = 0 → ∃ t, exec (.limitWrite who (.loss p) x) s = .next t ∧ bit (reg t (hpStatus p.val)) 7 = true
          ∧ reg t r = reg s r ∧ OnlyRegs s t (hpStatus p.val :: seqRegs who))
      ∧ (fld x 0 16 ≠ 0 → ∃ t, exec (.limitWrite who (.loss p) x) s = .next t ∧ (reg t r).toNat = fld x 0 16
          ∧ OnlyRegs s t (r :: seqRegs who)))
  ∧ (∀ (who : Party) (p : Fin 4) (x : Word) (s t : State),
      let r := HP_LOSS_TIMEOUT (portDie p.val) (portUnit p.val)
      (∀ d : Fin 8, ∀ w : Fin 2097152, d.val = portDie p.val → 4 * w.val = r.off →
        exec (.limitWrite who (.loss p) x) s = .next t ∨ exec (.registerWrite who (.die d w) x) s = .next t →
        fld (reg s r) 0 16 ≠ 0 → fld (reg t r) 0 16 ≠ 0))
  ∧ (∀ (p q : Fin 4) (a : Nat) (x : Word) (rest : List (Nat × Word)) (s t : State),
      let r := HP_LOSS_TIMEOUT (portDie p.val) (portUnit p.val)
      (s.dev.port q.val).wq = (a, x) :: rest → windowDie a = portDie p.val → windowOff a = r.off →
        exec (.writeQueueApply q) s = .next t → fld (reg s r) 0 16 ≠ 0 → fld (reg t r) 0 16 ≠ 0)

/-- A drain limit other than 0 is stored and 0 sets EF_STATUS.CFG_ERR and keeps the limit; an emission limit is stored, 0 disarms it and sets EF_STATUS.CFG_ERR. Firmware's clear write sets every counter of the block to 0 and changes nothing else, but to a unit that SEC_BLOCK0 or SEC_BLOCK1 makes secure: from outside the secure world that leaves an SE record and clears nothing. A host port's clear write to a block other than its own HP block leaves an SE record and clears nothing. -/
def Obligations.FabricLimitsAndCounterClears : Prop :=
  (∀ (who : Party) (d : Fin 8) (x : Word) (s : State), s.env.has d.val = true → who ≠ .debug → (∀ h, who ≠ .port h) →
      (fld x 0 16 ≠ 0 → ∃ t, exec (.limitWrite who (.drain d) x) s = .next t
        ∧ (reg t (EF_DRAIN_LIMIT d.val)).toNat = fld x 0 16 ∧ OnlyRegs s t [EF_DRAIN_LIMIT d.val])
      ∧ (fld x 0 16 = 0 → ∃ t, exec (.limitWrite who (.drain d) x) s = .next t ∧ bit (reg t (EF_STATUS d.val)) 1 = true
        ∧ OnlyRegs s t [EF_STATUS d.val])
      ∧ (∃ t, exec (.limitWrite who (.emit d) x) s = .next t ∧ (reg t (EF_EMIT_LIMIT d.val)).toNat = fld x 0 24
        ∧ bit (reg t (EF_STATUS d.val)) 2 = decide (fld x 0 24 = 0)
        ∧ bit (reg t (EF_STATUS d.val)) 1 = (bit (reg s (EF_STATUS d.val)) 1 || decide (fld x 0 24 = 0))
        ∧ OnlyRegs s t [EF_EMIT_LIMIT d.val, EF_STATUS d.val]))
  ∧ (∀ (who : Party) (s : State) (d : Fin 8) (c : Fin 4) (k : Fin 16) (p : Fin 4), isFirmware who = true → s.env.has d.val = true →
      s.env.has (portDie p.val) = true →
      let secure := s.dev.fb (SEC_BLOCK0 d.val) c.val || s.dev.fb (SEC_BLOCK1 d.val) k.val
        || s.dev.fb (SEC_BLOCK0 (portDie p.val)) (8 + portUnit p.val)
      (secure = false ∨ inSecureWorld s.env s.dev who = true) →
      ∀ bl ∈ [(CntBlock.chn d c, chnCounters d.val c.val), (.sn d, snCounters d.val), (.vat d, vatCounters d.val), (.sp d k, spCounters d.val k.val),
        (.fr p, frCounters (portDie p.val) (portUnit p.val)), (.hp p, hpCounters p.val), (.xr d, xrCounters d.val),
        (.fc d, (List.range 5).flatMap (fun o => (List.range 7).map (fun c => FC_CNT d.val o c))
          ++ (if d.val = s.env.master then [FC_AGG_OVF d.val] else []))],
      ∃ t, exec (.clrCntWrite who bl.1) s = .next t ∧ (∀ r ∈ bl.2, reg t r = 0) ∧ OnlyRegs s t bl.2)
  ∧ (∀ (who : Party) (s : State) (d : Fin 8) (c : Fin 4) (k : Fin 16) (p : Fin 4), isFirmware who = true → s.env.has d.val = true →
      inSecureWorld s.env s.dev who = false →
      let refused (d owner : Nat) (b : CntBlock) : Prop := owner < 5 → ∃ t, exec (.clrCntWrite who b) s = .next t
        ∧ t.dev.slot (slotKey d owner clsSE) ≠ none ∧ t.dev.mem = s.dev.mem
        ∧ (∀ r ∈ chnCounters d c.val ++ spCounters d k.val ++ frCounters (portDie p.val) (portUnit p.val), reg t r = reg s r)
      (s.dev.fb (SEC_BLOCK0 d.val) c.val = true → refused d.val (s.dev.churnOwner d.val c.val) (.chn d c))
      ∧ (s.dev.fb (SEC_BLOCK1 d.val) k.val = true → refused d.val (s.dev.sepOwner d.val k.val) (.sp d k)))
  ∧ (∀ (h : Fin 4) (s : State) (d : Fin 8), s.env.has d.val = true →
      ∀ b ∈ [CntBlock.sn d, .vat d, .fc d, .xr d], ∃ t, exec (.clrCntWrite (.port h) b) s = .next t
        ∧ t.dev.slot (slotKey d.val 4 clsSE) ≠ none ∧ RegsExcept s t (FC_CNT d.val 4 clsSE :: deniedRegs (.port h))
        ∧ ChangesOnly s t [.regs, .flt])

/-- A write to a layout register of a core that reaches it stores the writable bits while the core is disabled, and while it is enabled changes nothing but an IF record. A write to a core number that no core in service holds, to a die that the part lacks, or to an address of the package-global space that nothing maps leaves an IF record of the requester's and nothing else. An offset at which a die has no register ignores writes by anyone but counts nothing. Once READY is set no requester changes TB_CTRL, and an IF record is left. A crock register takes no write, at the die or through the package-global space; an SE record is left. A write to another register of the package-global space is the write of that register of the master die (which offsets that space gives them is the model's choice, log entry 165). A host write to a register that its port may not see or write is dropped, counted in HP_DENIED_WR and, where its port responds, in HP_WRITE_SEQ, and recorded. -/
def Obligations.AnyRegisterWriteFollowsItsAccess : Prop :=
  (∀ (who : Party) (no : CoreNo) (n : Nat) (w : Fin 1024) (x : Word) (s : State) (row : RegRow), writesCore s who no n →
      s.env.has (pDie n) = true → 4 ≤ w.val → w.val ≤ 8 →
      let r := coreReg n (4 * w.val)
      regRow r = some row →
      (s.dev.enabled n = false → ∃ t, exec (.registerWrite who (.core no w) x) s = .next t
        ∧ reg t r = ((reg s r &&& ~~~(w32 row.rw) &&& ~~~(x &&& w32 row.w1c)) ||| (x &&& w32 row.rw)) ∧ OnlyRegs s t [r])
      ∧ (s.dev.enabled n = true → ∃ t, exec (.registerWrite who (.core no w) x) s = .next t ∧ reg t r = reg s r
        ∧ t.dev.slot (slotKey (pDie n) (s.dev.coreOwner n) clsIF) ≠ none ∧ t.dev.mem = s.dev.mem ∧ t.dev.cores = s.dev.cores))
  ∧ (∀ (who : Party) (s : State), isHost who = false → debugOff s.dev who = false → s.env.has (partyDie s.env who) = true →
      let misses (owner : Nat) (i : Instr) : Prop := ∃ t, exec i s = .next t
        ∧ t.dev.slot (slotKey (partyDie s.env who) owner clsIF) ≠ none
        ∧ RegsExcept s t (FC_CNT (partyDie s.env who) owner clsIF :: if owner < 4 then [TG_STATUS s.env.master owner] else [])
        ∧ ChangesOnly s t [.regs, .flt, .tick]
      (∀ (no : CoreNo) w x, s.dev.reach s.env no.val = none →
          misses ((s.dev.coachOfNumber no.val).getD 4) (.registerWrite who (.core no w) x))
      ∧ (∀ (d : Fin 8) w x, s.env.has d.val = false → misses 4 (.registerWrite who (.die d w) x))
      ∧ (∀ (w : Fin 2097152) x, globalReg (4 * w.val) = false → misses 4 (.registerWrite who (.global w) x)))
  ∧ (∀ (who : Party) (m : Fin 8) (w : Fin 2097152) (x : Word) (s : State), isHost who = false → m.val = s.env.master → s.env.has m.val = true →
      globalReg (4 * w.val) = true → exec (.registerWrite who (.global w) x) s = exec (.registerWrite who (.die m w) x) s)
  ∧ (∀ (who : Party) (d : Fin 8) (w : Fin 2097152) (x : Word) (s : State), s.env.has d.val = true ∨ isHost who = true →
      s.env.hasReg d.val (4 * w.val) = false → exec (.registerWrite who (.die d w) x) s = .next s)
  ∧ (∀ (who : Party) (d : Fin 8) (w : Fin 2097152) (x : Word) (s : State), 4 * w.val = 0x10008 → s.env.has d.val = true →
      buReady s.env s.dev = true → s.dev.dieDown.contains d.val = false → debugOff s.dev who = false →
      ∃ t, exec (.registerWrite who (.die d w) x) s = .next t ∧ reg t (TB_CTRL d.val) = reg s (TB_CTRL d.val)
        ∧ t.dev.slot (slotKey d.val 4 clsIF) ≠ none ∧ t.dev.mem = s.dev.mem)
  ∧ (∀ (who : Party) (d : Fin 8) (w : Fin 2097152) (x : Word) (s : State), isHost who = false → 4 * w.val / 0x10000 = 0x15 →
      s.env.hasReg d.val (4 * w.val) = true → s.dev.dieDown.contains d.val = false → debugOff s.dev who = false →
      ∀ r, r = RegPlace.die d w ∨ (d.val = s.env.master ∧ r = .global w) →
      ∃ t, exec (.registerWrite who r x) s = .next t ∧ t.dev.slot (slotKey d.val 4 clsSE) ≠ none
        ∧ RegsExcept s t [FC_CNT d.val 4 clsSE] ∧ ChangesOnly s t [.regs, .flt])
  ∧ (∀ (h : Fin 4) (d : Fin 8) (w : Fin 2097152) (x : Word) (s : State), s.env.hasReg d.val (4 * w.val) = true →
      visible s.env s.dev h.val d.val (4 * w.val) = false ∨ hostMay s.env h.val (4 * w.val) = false →
      ∃ t, exec (.registerWrite (.port h) (.die d w) x) s = .next t
        ∧ reg t (HP_DENIED_WR (portDie h.val) (portUnit h.val)) = satAdd32 (reg s (HP_DENIED_WR (portDie h.val) (portUnit h.val))) 1
        ∧ ((s.dev.port h.val).lp.available = true →
            reg t (HP_WRITE_SEQ (portDie h.val) (portUnit h.val))
              = w32 ((reg s (HP_WRITE_SEQ (portDie h.val) (portUnit h.val))).toNat + 1))
        ∧ t.dev.slot (slotKey d.val (deniedOwner s.dev d.val (4 * w.val)) clsSE) ≠ none ∧ t.dev.mem = s.dev.mem)

/-- For every row, bank, C[5:0] and burst length: the address is (row × 16 + bank) × 2,048 + column with column 32 × C[5:0] and 32 bytes for BL16, 64 × C[5:1] and 64 bytes for BL32 where C[0] is ignored; the address is a multiple of the size; first and last byte lie in the same 4 KiB, so that no access straddles two regions whose boundaries are multiples of 4 KiB. -/
def Obligations.AddressesDecodeAsR294 : Prop :=
  ∀ b : Burst,
    (b.bl32 = false → b.size = 32 ∧ b.addr = (b.row.val * 16 + b.bank.val) * 2048 + 32 * b.col.val)
    ∧ (b.bl32 = true → b.size = 64 ∧ b.addr = (b.row.val * 16 + b.bank.val) * 2048 + 64 * (b.col.val / 2))
    ∧ b.addr % b.size = 0 ∧ b.addr / 4096 = (b.addr + b.size - 1) / 4096

/-- A well-formed burst below the status page, at a port that takes commands and whose SRAM is open, stores its unmasked bytes at their addresses, after every other write of its cycle, leaves every other byte as it was, keeps the memory canonical and counts HP_WR_BURSTS. In the status page it changes no byte and counts HP_DENIED_WR; before the SRAM is open it changes no byte and counts HP_RSV_ACCESS; a port that takes no command changes nothing. A burst with data or mask of another length stops with illFormed. A burst that changes OPEN_SEQ asks for a device open and keeps, for the count of discarded commands, the CMD_PROD that stood before the first such write; any other burst leaves the ports as they were. A burst that the port takes ends IDLE of its die. -/
def Obligations.HostWritesReachPortSram : Prop :=
  ∀ (p : Fin 4) (b : Burst) (s : State),
    let bursts := [PM_STATUS (portDie p.val), HP_WR_BURSTS_LO (portDie p.val) (portUnit p.val), HP_WR_BURSTS_HI (portDie p.val) (portUnit p.val)]
    (b.wellFormed = false → exec (.hostSramWrite p b) s = .fault .illFormed)
    ∧ (b.wellFormed = true → s.dev.takes p.val = false → exec (.hostSramWrite p b) s = .next s)
    ∧ (b.wellFormed = true → s.dev.takes p.val = true → b.addr < 0x2000000 →
        (sramOpen s.env s.dev p.val = true → b.addr < statusPage →
            NoneAfter s (sramMem p.val 0) (s.dev.cycle s.env (portDie p.val)) 2 → ∃ t, exec (.hostSramWrite p b) s = .next t
          ∧ (∀ i x, b.data[i]? = some x → b.masked[i]? = some false → readByte t (sramMem p.val (b.addr + i)) = x)
          ∧ (∀ a, (∀ i, b.masked[i]? = some false → a ≠ sramMem p.val (b.addr + i)) → readByte t a = readByte s a)
          ∧ (MemOk s → MemOk t)
          ∧ t.dev.port p.val = (if hostN t.dev p.val 4 4 = hostN s.dev p.val 4 4 then s.dev.port p.val
              else { s.dev.port p.val with
                openAsked := true,
                openProd := if openPending s.dev p.val then (s.dev.port p.val).openProd else hostN s.dev p.val 64 4 })
          ∧ bit (reg t (PM_STATUS (portDie p.val))) 0 = false
          ∧ (∀ q, q ≠ p.val → t.dev.port q = s.dev.port q)
          ∧ RegsExcept s t bursts ∧ ChangesOnly s t [.regs, .mem, .net, .fus, .ports])
        ∧ (sramOpen s.env s.dev p.val = true → statusPage ≤ b.addr → ∃ t, exec (.hostSramWrite p b) s = .next t
          ∧ reg t (HP_DENIED_WR (portDie p.val) (portUnit p.val)) = satAdd32 (reg s (HP_DENIED_WR (portDie p.val) (portUnit p.val))) 1
          ∧ OnlyRegs s t (HP_DENIED_WR (portDie p.val) (portUnit p.val) :: bursts))
        ∧ (sramOpen s.env s.dev p.val = false → ∃ t, exec (.hostSramWrite p b) s = .next t
          ∧ reg t (HP_RSV_ACCESS (portDie p.val) (portUnit p.val)) = satAdd32 (reg s (HP_RSV_ACCESS (portDie p.val) (portUnit p.val))) 1
          ∧ OnlyRegs s t (HP_RSV_ACCESS (portDie p.val) (portUnit p.val) :: bursts)))

/-- A read burst of open port SRAM answers its bytes, as they stand before the writes of its cycle; one of the register window answers, for each word that the port serves and may see, that is no half of a pair and not read live, the captured value; no memory changes. A recapture of a die that is not frozen gives each of its registers the value the port may see then, keeps the other dies' captures and ends the die's frozen mark. An update writes the 32-byte head, the interface area and the four coach entries of the page, UPDATE_SEQ one higher, and no other byte; before OPEN_PORTS nothing. -/
def Obligations.ShadowAndStatusPage : Prop :=
  ∀ (p : Fin 4) (s : State),
    (∀ row bank col bl32, s.dev.takes p.val = true →
      let b : Burst := ⟨row, bank, col, bl32, [], []⟩
      (b.addr < 0x2000000 → sramOpen s.env s.dev p.val = true →
          (∀ w ∈ s.dev.net.recentWr, w.cyc < s.dev.cycle s.env (portDie p.val)) →
        ∃ t, exec (.shadowRead p row bank col (if bl32 then .bl32 else .bl16)) s = .next t
          ∧ (t.dev.port p.val).rdata = s.dev.ldBytes (sramMem p.val b.addr) b.size
          ∧ RegsExcept s t [PM_STATUS (portDie p.val), HP_RD_BURSTS_LO (portDie p.val) (portUnit p.val),
              HP_RD_BURSTS_HI (portDie p.val) (portUnit p.val)]
          ∧ ChangesOnly s t [.regs, .ports])
      ∧ (0x2000000 ≤ b.addr → ∃ t, exec (.shadowRead p row bank col (if bl32 then .bl32 else .bl16)) s = .next t
        ∧ (t.dev.port p.val).rdata.length = b.size
        ∧ (∀ i, 4 * i < b.size →
            let a := b.addr + 4 * i
            let d := windowDie a
            let off := windowOff a
            served s.env s.dev p.val a = true → visible s.env s.dev p.val d off = true → isHi off = false → readLive off = false →
            ((t.dev.port p.val).rdata.drop (4 * i)).take 4 = leBytes 4 (SMap.get 0 (s.dev.port p.val).shadow (shadowKey d off)).toNat)
        ∧ ChangesOnly s t [.regs, .ports]))
    ∧ (∀ d : Fin 8, s.env.has d.val = true → s.dev.portOpen p.val = true →
        (freezes s.env s.dev p.val d.val = false → ∃ t, exec (.shadowRecapture p d) s = .next t
          ∧ (∀ i, i < 0x200000 → SMap.get 0 (t.dev.port p.val).shadow (shadowKey d.val (4 * i)) = portValue s.env s.dev p.val d.val (4 * i))
          ∧ (∀ e off, e ≠ d.val → off < 0x800000 →
              SMap.get 0 (t.dev.port p.val).shadow (shadowKey e off) = SMap.get 0 (s.dev.port p.val).shadow (shadowKey e off))
          ∧ d.val ∉ (t.dev.port p.val).frozen ∧ ChangesOnly s t [.ports])
        ∧ (freezes s.env s.dev p.val d.val = true → exec (.shadowRecapture p d) s = .next s))
    ∧ (s.dev.portOpen p.val = true → s.dev.pw.phase ≠ .hold →
        NoneAfter s (sramMem p.val 0) (s.dev.cycle s.env (portDie p.val)) → ∃ t, exec (.statusPageUpdate p) s = .next t
        ∧ (t.dev.port p.val).updateSeq = ((s.dev.port p.val).updateSeq + 1) % 0x100000000
        ∧ t.dev.ldBytes (sramMem p.val statusPage) 32 = statusHead s.env t.dev p.val
        ∧ t.dev.ldN (sramMem p.val statusPage) 1 = 2 ∧ t.dev.ldN (sramMem p.val statusPage + 4) 4 = (t.dev.port p.val).updateSeq
        ∧ t.dev.ldBytes (sramMem p.val (statusPage + 64)) 32 = interfaceArea s.dev p.val
        ∧ (∀ g, g < 4 → t.dev.ldBytes (sramMem p.val (statusPage + 128 + 16 * g)) 16 = coachEntry s.env s.dev p.val g)
        ∧ (∀ a, a < sramMem p.val statusPage ∨ sramMem p.val (statusPage + 192) ≤ a → readByte t a = readByte s a)
        ∧ ChangesOnly s t [.mem, .net, .ports])
    ∧ (s.dev.portOpen p.val = false → exec (.statusPageUpdate p) s = .next s)

/-- The whole writes of a burst to registers that the port serves enter the queue in order while it holds fewer than 256; those that meet it full leave it as it is, count HP_WQ_DROP each and set HP_STATUS.WQ_OVF and HP_ALERT_STAT.WQ_OVF. In particular, with 256 writes in the queue, a burst that carries exactly one whole write to a served register leaves the queue and HP_WRITE_SEQ as they were, adds one to HP_WQ_DROP and sets HP_STATUS.WQ_OVF and HP_ALERT_STAT.WQ_OVF. In every state with at most 256 writes in the queue WQ_FREE of HP_STATUS as it reads is 256 less their number. -/
def Obligations.FullWriteQueueDropsWrites : Prop :=
  (∀ (p : Fin 4) (b : Burst) (s : State) (i : Nat), b.wellFormed = true → s.dev.takes p.val = true → 0x2000000 ≤ b.addr →
      (s.dev.port p.val).wq.length = 256 → 4 * i < b.size → served s.env s.dev p.val (b.addr + 4 * i) = true →
      (∀ j, j < b.size → (b.masked[j]? = some false ↔ j / 4 = i)) →
      let r := HP_WQ_DROP (portDie p.val) (portUnit p.val)
      ∃ t, exec (.hostRegBurst p b) s = .next t
        ∧ (t.dev.port p.val).wq = (s.dev.port p.val).wq
        ∧ reg t (HP_WRITE_SEQ (portDie p.val) (portUnit p.val)) = reg s (HP_WRITE_SEQ (portDie p.val) (portUnit p.val))
        ∧ reg t r = satAdd32 (reg s r) 1
        ∧ bit (reg t (hpStatus p.val)) 5 = true ∧ bit (reg t (hpAlert p.val)) 5 = true
        ∧ OnlyRegs s t [r, hpStatus p.val, hpAlert p.val, PM_STATUS (portDie p.val), HP_WR_BURSTS_LO (portDie p.val) (portUnit p.val),
            HP_WR_BURSTS_HI (portDie p.val) (portUnit p.val)])
  ∧ (∀ (p : Fin 4) (b : Burst) (s : State), b.wellFormed = true → s.dev.takes p.val = true → 0x2000000 ≤ b.addr →
      (s.dev.port p.val).wq.length ≤ 256 → burstReserved s.env s.dev p.val b.addr = false →
      let r := HP_WQ_DROP (portDie p.val) (portUnit p.val)
      let whole := (burstWords b).filter (fun w => w.2.2 == 0 && served s.env s.dev p.val w.1)
      let room := 256 - (s.dev.port p.val).wq.length
      ∃ t, exec (.hostRegBurst p b) s = .next t
        ∧ (t.dev.port p.val).wq = (s.dev.port p.val).wq ++ (whole.take room).map (fun w => (w.1, w.2.1))
        ∧ reg t r = satAdd32 (reg s r) (whole.length - room)
        ∧ (room < whole.length → bit (reg t (hpStatus p.val)) 5 = true ∧ bit (reg t (hpAlert p.val)) 5 = true)
        ∧ (whole.length ≤ room → reg t (hpAlert p.val) = reg s (hpAlert p.val) ∧ reg t (hpStatus p.val) = reg s (hpStatus p.val))
        ∧ RegsExcept s t [r, hpStatus p.val, hpAlert p.val, PM_STATUS (portDie p.val), HP_RSV_ACCESS (portDie p.val) (portUnit p.val),
            HP_PARTIAL_WR (portDie p.val) (portUnit p.val), HP_WR_BURSTS_LO (portDie p.val) (portUnit p.val),
            HP_WR_BURSTS_HI (portDie p.val) (portUnit p.val)]
        ∧ ChangesOnly s t [.regs, .ports])
  ∧ (∀ (p : Fin 4) (s : State), (s.dev.port p.val).wq.length ≤ 256 →
      fld (hpStatusValue s.env s.dev p.val) 16 9 = 256 - (s.dev.port p.val).wq.length)

/-- A burst with one whole write to a served register puts it last in a queue with room. The oldest write leaves the queue, HP_WRITE_SEQ counts it, and it takes the effect of a host write to its register, except while a fetch runs; an empty queue does nothing. A write to HP_FETCH_ADDR starts a fetch: DONE clears and SEQ counts; while one runs it only stores the address. A fetch ends with DONE, ERR and DATA 0 at an address outside the windows of the part's dies, with DONE and DATA 0 at an offset where the die has no register, and with DONE and the live value at a register that the port may see. The port's own heartbeat, or firmware's, restarts its timer. -/
def Obligations.PostedWritesAndFetches : Prop :=
  ∀ (p : Fin 4) (s : State),
    let dn := HP_FETCH_DONE (portDie p.val) (portUnit p.val)
    (∀ (b : Burst) (i : Nat), b.wellFormed = true → s.dev.takes p.val = true → 0x2000000 ≤ b.addr →
      (s.dev.port p.val).wq.length < 256 → 4 * i < b.size → served s.env s.dev p.val (b.addr + 4 * i) = true →
      (∀ j, j < b.size → (b.masked[j]? = some false ↔ j / 4 = i)) →
      ∃ t, exec (.hostRegBurst p b) s = .next t
        ∧ (t.dev.port p.val).wq = (s.dev.port p.val).wq ++ [(b.addr + 4 * i, w32 (leAt b.data (4 * i) 4))]
        ∧ RegsExcept s t [PM_STATUS (portDie p.val), HP_WR_BURSTS_LO (portDie p.val) (portUnit p.val),
            HP_WR_BURSTS_HI (portDie p.val) (portUnit p.val)]
        ∧ ChangesOnly s t [.regs, .ports])
    ∧ (∀ a x rest, (s.dev.port p.val).wq = (a, x) :: rest → (s.dev.port p.val).fetch = none →
        s.env.has (portDie p.val) = true → (s.dev.port p.val).lp.available = true →
        exec (.writeQueueApply p) s = .next (s.onDev (fun env v =>
          hostRegWrite env p.val (windowDie a) (windowOff a) x
            (((v.awake (windowDie a)).modPort p.val (fun h => { h with wq := rest })).wrN
              (HP_WRITE_SEQ (portDie p.val) (portUnit p.val)) (v.rdN (HP_WRITE_SEQ (portDie p.val) (portUnit p.val)) + 1))))
        ∧ (s.env.hasReg (windowDie a) (windowOff a) = true → visible s.env s.dev p.val (windowDie a) (windowOff a) = false →
            ∃ t, exec (.writeQueueApply p) s = .next t ∧ (t.dev.port p.val).wq = rest
              ∧ reg t (HP_DENIED_WR (portDie p.val) (portUnit p.val)) = satAdd32 (reg s (HP_DENIED_WR (portDie p.val) (portUnit p.val))) 1
              ∧ (reg t (HP_WRITE_SEQ (portDie p.val) (portUnit p.val))).toNat
                  = ((reg s (HP_WRITE_SEQ (portDie p.val) (portUnit p.val))).toNat + 1) % 0x100000000
              ∧ t.dev.mem = s.dev.mem))
    ∧ ((s.dev.port p.val).wq = [] ∨ (s.dev.port p.val).fetch ≠ none → exec (.writeQueueApply p) s = .next s)
    ∧ (∀ (who : Party) (x : Word), isFirmware who = true ∨ who = .port p →
        ((s.dev.port p.val).fetch = none → ∃ t, exec (.hpFetchAddrWrite who p x) s = .next t
          ∧ (t.dev.port p.val).fetch = some (fld x 0 27) ∧ bit (reg t dn) 0 = false
          ∧ fld (reg t dn) 16 16 = (fld (reg s dn) 16 16 + 1) % 65536
          ∧ RegsExcept s t (dn :: HP_FETCH_ADDR (portDie p.val) (portUnit p.val) :: seqRegs who) ∧ ChangesOnly s t [.regs, .ports])
        ∧ ((s.dev.port p.val).fetch ≠ none → ∃ t, exec (.hpFetchAddrWrite who p x) s = .next t
          ∧ (reg t (HP_FETCH_ADDR (portDie p.val) (portUnit p.val))).toNat = fld x 0 27
          ∧ OnlyRegs s t (HP_FETCH_ADDR (portDie p.val) (portUnit p.val) :: seqRegs who))
        ∧ (∃ t, exec (.hpHeartbeat who p x) s = .next t ∧ (t.dev.port p.val).hbRef = s.env.nowOf (portDie p.val)
          ∧ RegsExcept s t (seqRegs who) ∧ ChangesOnly s t [.regs, .ports]))
    ∧ (∀ a, (s.dev.port p.val).fetch = some a →
        let d := windowDie a
        let off := windowOff a
        (a % 4 ≠ 0 ∨ a < 0x2000000 ∨ 0x6000000 ≤ a ∨ s.env.dies ≤ d → ∃ t, exec (.fetchDone p) s = .next t
          ∧ reg t (HP_FETCH_DATA (portDie p.val) (portUnit p.val)) = 0 ∧ fld (reg t dn) 0 2 = 3 ∧ (t.dev.port p.val).fetch = none
          ∧ fld (reg t dn) 16 16 = fld (reg s dn) 16 16
          ∧ ChangesOnly s t [.regs, .ports])
        ∧ (a % 4 = 0 → 0x2000000 ≤ a → a < 0x6000000 → d < s.env.dies → s.env.hasReg d off = false → ∃ t, exec (.fetchDone p) s = .next t
          ∧ reg t (HP_FETCH_DATA (portDie p.val) (portUnit p.val)) = 0 ∧ fld (reg t dn) 0 2 = 1 ∧ (t.dev.port p.val).fetch = none
          ∧ ChangesOnly s t [.regs, .ports])
        ∧ (a % 4 = 0 → served s.env s.dev p.val a = true → visible s.env s.dev p.val d off = true → d < s.env.dies →
            dieAnswers s.dev d off = true → ∃ t, exec (.fetchDone p) s = .next t
          ∧ reg t (HP_FETCH_DATA (portDie p.val) (portUnit p.val)) = (liveRead s.env p.val d off (s.dev.awake d)).1
          ∧ fld (reg t dn) 0 2 = 1 ∧ (t.dev.port p.val).fetch = none ∧ t.dev.mem = s.dev.mem))

/-- While bring-up holds PERST_N high, the pads are free and the package is not in HOLD a port becomes available. An interface that takes commands counts an unsupported one, stores a mode register but for absent fields in the set point named, switches the set point, writes and reads its FIFO of bursts, answers a mode register's value (MR4 with TUF 0) and the calibration patterns, and enters and leaves power-down, self-refresh and deep sleep; deep sleep, RESET_n, a stopped CK and a missed heartbeat begin port loss at the port die's time, unless it has begun; RESET_n clears the mode registers, the set point and the FIFO. A loss that has lasted HP_LOSS_TIMEOUT counts HP_LOSS, sets the loss flag, and asks each open coach of the port to stop safe, once. -/
def Obligations.PortInterfaceStates : Prop :=
  ∀ (p : Fin 4) (s : State),
    let lp (t : State) := (t.dev.port p.val).lp
    let h := s.dev.port p.val
    let now := s.env.nowOf (portDie p.val)
    let lost (t : State) : Prop := (t.dev.port p.val).loss = (if h.loss = none then some now else h.loss)
    (s.dev.bu.perst = true → s.dev.pw.thermtrip = false → s.dev.pw.phase ≠ .hold → s.dev.padsLatched p.val = false →
        ∃ t, exec (.portAvailable p) s = .next t ∧ lp t = { lp s with available := true } ∧ ChangesOnly s t [.ports])
    ∧ (s.dev.takes p.val = true →
        (∃ t, exec (.unsupportedCommand p) s = .next t
          ∧ reg t (HP_UNSUP (portDie p.val) (portUnit p.val)) = satAdd32 (reg s (HP_UNSUP (portDie p.val) (portUnit p.val))) 1
          ∧ bit (reg t (hpStatus p.val)) 6 = true ∧ OnlyRegs s t [HP_UNSUP (portDie p.val) (portUnit p.val), hpStatus p.val])
        ∧ (∀ fsp mr x absent, ∃ t, exec (.modeRegisterWrite p fsp mr x (.field absent)) s = .next t
          ∧ SMap.get 0 (lp t).mr (fsp.val * 256 + mr.toNat)
              = ((SMap.get 0 (lp s).mr (fsp.val * 256 + mr.toNat) &&& absent.toNat) ||| (x.toNat &&& (255 - absent.toNat)))
          ∧ (∀ k, k ≠ fsp.val * 256 + mr.toNat → SMap.get 0 (lp t).mr k = SMap.get 0 (lp s).mr k)
          ∧ (absent = 0 → t.dev.regs = s.dev.regs) ∧ (absent ≠ 0 → bit (reg t (hpStatus p.val)) 6 = true)
          ∧ ChangesOnly s t [.regs, .ports])
        ∧ (∀ fsp mr x, ∃ t, exec (.modeRegisterWrite p fsp mr x .setPoint) s = .next t ∧ lp t = { lp s with fsp := fsp.val } ∧ ChangesOnly s t [.ports])
        ∧ (∀ fsp mr x bs, (lp s).fifo.length < 8 → ∃ t, exec (.modeRegisterWrite p fsp mr x (.fifo bs)) s = .next t
          ∧ lp t = { lp s with fifo := (lp s).fifo ++ [bs] } ∧ ChangesOnly s t [.ports])
        ∧ (∀ row bank col bs rest, (lp s).fifo = bs :: rest → ∃ t, exec (.shadowRead p row bank col .fifo) s = .next t
          ∧ (t.dev.port p.val).rdata = bs ∧ lp t = { lp s with fifo := rest } ∧ ChangesOnly s t [.ports])
        ∧ (∀ row bank col mr, ∃ t, exec (.shadowRead p row bank col (.modeRegister mr)) s = .next t
          ∧ (t.dev.port p.val).rdata = leBytes 1 (modeValue s.dev p.val mr.toNat)
          ∧ (mr.toNat = 4 → ∀ x ∈ (t.dev.port p.val).rdata, x.toNat < 128)
          ∧ (16 ≤ mr.toNat → (t.dev.port p.val).rdata = leBytes 1 (SMap.get 0 (lp s).mr ((lp s).fsp * 256 + mr.toNat)))
          ∧ ChangesOnly s t [.ports])
        ∧ (∀ row bank col, ∃ t, exec (.shadowRead p row bank col .calibration) s = .next t
          ∧ (t.dev.port p.val).rdata = Config.jedecCalRegs.flatMap (fun mr => leBytes 1 (modeValue s.dev p.val mr)) ∧ ChangesOnly s t [.ports])
        ∧ (∃ t, exec (.powerDown p) s = .next t ∧ lp t = { lp s with powerDown := true } ∧ ChangesOnly s t [.ports])
        ∧ (∃ t, exec (.selfRefreshEntry p) s = .next t ∧ lp t = { lp s with selfRefresh := true } ∧ portState (t.dev.port p.val) = (if h.loss = none then 1 else 3)
          ∧ ChangesOnly s t [.ports])
        ∧ (∃ t, exec (.deepSleepEntry p) s = .next t ∧ lp t = { lp s with deepSleep := true } ∧ lost t ∧ portState (t.dev.port p.val) = 2
          ∧ ChangesOnly s t [.ports])
        ∧ (∃ t, exec (.ckStopped p) s = .next t ∧ lost t ∧ lp t = lp s ∧ ChangesOnly s t [.ports]))
    ∧ (∃ t, exec (.powerDownExit p) s = .next t ∧ lp t = { lp s with powerDown := false } ∧ ChangesOnly s t [.ports])
    ∧ (∃ t, exec (.selfRefreshExit p) s = .next t ∧ lp t = { lp s with selfRefresh := false } ∧ ChangesOnly s t [.ports])
    ∧ (∃ t, exec (.deepSleepExit p) s = .next t ∧ lp t = { lp s with deepSleep := false } ∧ (t.dev.port p.val).loss = h.loss ∧ ChangesOnly s t [.ports])
    ∧ (s.dev.pw.phase ≠ .hold → s.dev.padsLatched p.val = false → ∃ t, exec (.portReset p) s = .next t ∧ lost t
        ∧ (lp t).resetLow = true ∧ (lp t).mr = [] ∧ (lp t).fsp = 0 ∧ (lp t).fifo = [] ∧ t.dev.takes p.val = false ∧ ChangesOnly s t [.ports])
    ∧ (∃ t, exec (.portResetRelease p) s = .next t ∧ lp t = { lp s with resetLow := false } ∧ ChangesOnly s t [.ports])
    ∧ (s.dev.fb (HP_CTRL (portDie p.val) (portUnit p.val)) 0 = true → h.hbRef + lossNs s.dev p.val ≤ now →
        ∃ t, exec (.heartbeatTimeout p) s = .next t ∧ lost t ∧ ChangesOnly s t [.ports])
    ∧ (∀ since, h.loss = some since → h.lossDone = false → since + lossNs s.dev p.val ≤ now →
        ∃ t, exec (.portLossTimeout p) s = .next t
          ∧ reg t (HP_LOSS (portDie p.val) (portUnit p.val)) = satAdd32 (reg s (HP_LOSS (portDie p.val) (portUnit p.val))) 1
          ∧ bit (reg t (hpStatus p.val)) 4 = true ∧ (t.dev.port p.val).lossDone = true
          ∧ (∀ g, g < 4 → s.dev.isOpen g = true → (s.dev.coach g).port = p.val → (t.dev.coach g).loss = true
              ∧ bit (reg t (TG_STATUS s.env.master g)) 2 = true ∧ bit (reg t (TG_STATUS s.env.master g)) 3 = true)
          ∧ (∀ g, g < 4 → (s.dev.coach g).port ≠ p.val → t.dev.coach g = s.dev.coach g)
          ∧ t.dev.mem = s.dev.mem)
    ∧ (h.loss = none ∨ h.lossDone = true → exec (.portLossTimeout p) s = .next s)

/-- A full weight block fills an empty shadow buffer and gives Σw of each column. A pass of the running frame whose scheduled slot has come starts when its block is there, its bank does not drain and its data words have come, or no word is left to come: with its words delivered, every column of every vector gets the saturated sum of its seed (zero, the value that the row holds, or the seed word) and the exact sum of weight × value over the 128 rows, the values those of its mode from the data words or from the pail's handed-over image, no other accumulator changes, CHN_PASSES counts one, CHN_VECTORS the vectors, and a final pass leaves an output stage. A pass that cannot start is abandoned, counted and recorded as DL, no accumulator changed; one that is not due, or whose data words are still to come, does nothing; with no word left to come it runs and takes the words that are there. The oldest output stage starts and its bank drains until its end, which comes when the interface has taken all its events. -/
def Obligations.ChurnsRunTheirPasses : Prop :=
  ∀ (d : Fin 8) (c : Fin 4) (s : State), Clocked s d.val 0 →
    let h := s.dev.churn d.val c.val
    let st := CHN_STATUS d.val c.val
    (∀ p, h.next = some p → h.shadow = [] → 128 ≤ h.wport.length → ∃ t, exec (.weightBlockArrival d c) s = .next t
        ∧ (t.dev.churn d.val c.val).shadow = (h.wport.take 128).map TWord.taken
        ∧ (t.dev.churn d.val c.val).wport = h.wport.drop 128
        ∧ (∀ k, k < p.cols → (t.dev.churn d.val c.val).sumw.getD k 0 = sigmaW p ((h.wport.take 128).map TWord.taken) k)
        ∧ ChangesOnly s t [.churns])
    ∧ (∀ f p, passDue s.env s.dev d.val c.val = some (f, p) →
        (h.shadow.length = 128 → bit (reg s st) (1 + p.abank) = false → p.pailOk s.dev d.val c.val = true →
            p.seedsIn + p.vectorsIn ≤ h.dport.length →
          let seeds := (h.dport.take p.seedsIn).map TWord.taken
          let ws := ((h.dport.drop p.seedsIn).take p.vectorsIn).map TWord.taken
          let start (k col : Nat) : Int := match p.seed with
            | 0 => 0
            | 1 => SMap.get 0 h.acc (accKey p.abank (p.arow + k) col)
            | _ => toSigned 32 (numOf seeds (k * p.seedWords * 128 + 4 * col) 4)
          let x (k r : Nat) : Int :=
            if p.mode = 0 ∨ p.msrc = false then p.dataRow ws k r
            else
              let y := pailAt s.dev d.val c.val (1 - pailCollect s.dev d.val c.val) (128 * (p.mword + k * p.mstride) + r)
              if p.mode = 2 then (y : Int) else if y = 0 then 0 else 1
          ∃ t, exec (.passStart d c) s = .next t
            ∧ (∀ k col, k < p.vcount → col < p.cols →
                SMap.get 0 (t.dev.churn d.val c.val).acc (accKey p.abank (p.arow + k) col)
                  = sat32 (start k col + sumRows (fun r => weightAt p.wfmt h.shadow r col * x k r)))
            ∧ (∀ key, (∀ k col, k < p.vcount → col < p.cols → key ≠ accKey p.abank (p.arow + k) col) →
                SMap.get 0 (t.dev.churn d.val c.val).acc key = SMap.get 0 h.acc key)
            ∧ (t.dev.churn d.val c.val).pos = h.pos + 1 ∧ (t.dev.churn d.val c.val).shadow = []
            ∧ (t.dev.churn d.val c.val).dport = h.dport.drop (p.seedsIn + p.vectorsIn)
            ∧ (t.dev.churn d.val c.val).due.length = h.due.length + (if p.final then 1 else 0)
            ∧ t.dev.rd64 (CHN_VECTORS_LO d.val c.val) (CHN_VECTORS_HI d.val c.val)
                = min (s.dev.rd64 (CHN_VECTORS_LO d.val c.val) (CHN_VECTORS_HI d.val c.val) + p.vcount) 0xFFFFFFFFFFFFFFFF
            ∧ t.dev.rd64 (CHN_PASSES_LO d.val c.val) (CHN_PASSES_HI d.val c.val)
                = min (s.dev.rd64 (CHN_PASSES_LO d.val c.val) (CHN_PASSES_HI d.val c.val) + 1) 0xFFFFFFFFFFFFFFFF
            ∧ RegsExcept s t (st :: chnCounters d.val c.val) ∧ ChangesOnly s t [.regs, .churns])
        ∧ (passReady s.dev d.val c.val p = false → s.env.has d.val = true →
          ∃ t, exec (.passStart d c) s = .next t
            ∧ reg t (CHN_PASS_ABANDON d.val c.val) = satAdd32 (reg s (CHN_PASS_ABANDON d.val c.val)) 1
            ∧ t.dev.slot (slotKey d.val (s.dev.churnOwner d.val c.val) clsDL) ≠ none
            ∧ (t.dev.churn d.val c.val).pos = h.pos + 1 ∧ (t.dev.churn d.val c.val).acc = h.acc
            ∧ t.dev.mem = s.dev.mem)
        ∧ (passReady s.dev d.val c.val p = true → wordsDone s.env s.dev (s.dev.churnOwner d.val c.val) f = true →
          ∃ t, exec (.passStart d c) s = .next t
            ∧ (t.dev.churn d.val c.val).pos = h.pos + 1 ∧ (t.dev.churn d.val c.val).shadow = []
            ∧ (t.dev.churn d.val c.val).dport = h.dport.drop (p.seedsIn + p.vectorsIn)
            ∧ (t.dev.churn d.val c.val).due.length = h.due.length + (if p.final then 1 else 0)
            ∧ t.dev.rd64 (CHN_PASSES_LO d.val c.val) (CHN_PASSES_HI d.val c.val)
                = min (s.dev.rd64 (CHN_PASSES_LO d.val c.val) (CHN_PASSES_HI d.val c.val) + 1) 0xFFFFFFFFFFFFFFFF
            ∧ RegsExcept s t (st :: chnCounters d.val c.val))
        ∧ (passReady s.dev d.val c.val p = true → h.dport.length < p.seedsIn + p.vectorsIn →
            wordsDone s.env s.dev (s.dev.churnOwner d.val c.val) f = false → exec (.passStart d c) s = .next s))
    ∧ (h.next = none ∨ s.dev.frame (s.dev.churnOwner d.val c.val) = none ∨ h.frameOf = none ∨ bit (reg s st) 3 = true
        ∨ (∃ f, s.dev.frame (s.dev.churnOwner d.val c.val) = some f ∧ slotDue s.env s.dev d.val f (passSlot s.dev d.val c.val h.pos) = false) →
        exec (.passStart d c) s = .next s)
    ∧ (∀ o rest, h.due = o :: rest → ∃ t, exec (.outputStageStart d c) s = .next t
        ∧ (t.dev.churn d.val c.val).due = rest ∧ (t.dev.churn d.val c.val).running = h.running ++ [o]
        ∧ bit (reg t st) 0 = true ∧ (o.pass.abank < 2 → bit (reg t st) (1 + o.pass.abank) = true)
        ∧ (o.pass.odest = true ∨ s.dev.blockFenced (mBlock d.val 0 c.val) = true → (t.dev.churn d.val c.val).oport = h.oport)
        ∧ (o.pass.odest = false → ∃ ws, (t.dev.churn d.val c.val).oport = h.oport ++ ws)
        ∧ (t.dev.churn d.val c.val).acc = h.acc ∧ t.dev.mem = s.dev.mem)
    ∧ (∀ (bank : Fin 2) (waited : Nat),
        let left := h.running.filter (fun o => o.pass.abank != bank.val)
        (h.running.any (fun o => o.pass.abank == bank.val) = true → h.eout = [] → SMap.get 0 h.waited bank.val = waited →
          ∃ t, exec (.outputStageEnd d c bank waited) s = .next t
          ∧ (t.dev.churn d.val c.val).running = left ∧ bit (reg t st) (1 + bank.val) = false
          ∧ bit (reg t st) 0 = decide (left ≠ []) ∧ RegsExcept s t [st] ∧ ChangesOnly s t [.regs, .churns, .fab])
        ∧ (h.running.any (fun o => o.pass.abank == bank.val) = false ∨ SMap.get 0 h.waited bank.val ≠ waited → h.eout = [] →
            exec (.outputStageEnd d c bank waited) s = .next s)
        ∧ (∀ e rest since, h.eout = (bank.val, e) :: rest → h.waitAt = some since → takesEvent s.dev (blockIface d.val c.val) e = false →
            ∃ t, exec (.outputStageEnd d c bank waited) s = .next t ∧ t.dev.churn d.val c.val = h ∧ ChangesOnly s t [.churns]))

/-- For every product x and shift s above 0: the rounded value q satisfies 2 × |x − q × 2^s| ≤ 2^s, and where the two sides are equal q is even. A generator whose state is a 32-bit number other than 0 is such a number after a draw. -/
def Obligations.RoundingIsToNearestEven : Prop :=
  (∀ (x : Int) (s : Nat), 0 < s →
      let q := roundEven x s
      let e := x - q * ((2 ^ s : Nat) : Int)
      2 * (e.natAbs : Nat) ≤ 2 ^ s ∧ (2 * (e.natAbs : Nat) = 2 ^ s → q % 2 = 0))
  ∧ (∀ x : Nat, 0 < x → x < 2 ^ 32 → 0 < xorshift32 x ∧ xorshift32 x < 2 ^ 32)

/-- The oldest record of a die's pail bus leaves it unless a full pail that clears holds it back, and with the tile's hub full the place it leaves goes to the oldest record of the first core of the tile whose fire waits; at an enabled pail of the record's coach that collects its tick, the position of its gather entry becomes 1, or in graded mode the greater payload; a foreign record is counted in PAIL_XCOACH and enters no image. Clearing done empties the buffer into the image. EN is set where the gather table passes its check, else GATHER_ERR. A window that ended and waits for no frame or stage shows its totals and sets MSE_VALID. For a party that may write the churn, a secure one from the secure world alone, a seed other than 0 is stored, 0 sets an error; a window of 0 disarms the statistic. A host's write leaves an SE record and changes no churn. -/
def Obligations.PailsStatisticsAndSeeds : Prop :=
  ∀ (d : Fin 8) (c : Fin 4) (s : State),
    let h := s.dev.churn d.val c.val
    let now (t : State) := t.dev.churn d.val c.val
    let st := CHN_STATUS d.val c.val
    (∀ r, s.dev.bus.find? (fun r => r.die == d.val) = some r → Clocked s d.val 0 →
      ((List.range 4).any (fun c => pailFull s.dev d.val c) = true → exec (.pailRecord d) s = .next s)
      ∧ ((List.range 4).any (fun c => pailFull s.dev d.val c) = false → pailOn s.dev d.val c.val = true → r.membrane = none →
          s.dev.churnOwner d.val c.val < 4 →
        let full := r.src / 33 * 33
        let after (t : State) : Prop :=
          ((∀ i < 33, ∀ f, (s.dev.core (full + i)).fire = some f → f.recs = []) → t.dev.bus = s.dev.bus.erase r)
          ∧ (∀ i < 33, ∀ f x rest, (s.dev.core (full + i)).fire = some f → f.recs = x :: rest → hubCount s.dev (r.src / 33) = 64 →
              (∀ j < i, ∀ y, (s.dev.core (full + j)).fire = some y → y.recs = []) →
              t.dev.bus = s.dev.bus.erase r ++ [x] ∧ (t.dev.core (full + i)).fire = some { f with recs := rest })
        (r.coach = s.dev.churnOwner d.val c.val → r.payload < 256 → r.tag = h.collTick % 256 → bit (reg s (PAIL_STATUS d.val c.val)) 2 = false →
          ∀ w, pailMatches s.env s.dev d.val c.val r = [w] → ∃ t, exec (.pailRecord d) s = .next t
            ∧ after t
            ∧ pailAt t.dev d.val c.val (pailCollect s.dev d.val c.val) (gePos w + (r.neuron - geBase w))
                = (if pailGraded s.dev d.val c.val
                    then max (pailAt s.dev d.val c.val (pailCollect s.dev d.val c.val) (gePos w + (r.neuron - geBase w))) r.payload else 1)
            ∧ t.dev.mem = s.dev.mem)
        ∧ (r.coach ≠ s.dev.churnOwner d.val c.val → ∃ t, exec (.pailRecord d) s = .next t ∧ after t
            ∧ reg t (PAIL_XCOACH d.val c.val) = satAdd32 (reg s (PAIL_XCOACH d.val c.val)) 1
            ∧ (now t).image = h.image ∧ t.dev.mem = s.dev.mem)))
    ∧ (bit (reg s (PAIL_STATUS d.val c.val)) 2 = true → Clocked s d.val 0 → ∃ t, exec (.pailClearDone d c) s = .next t
        ∧ bit (reg t (PAIL_STATUS d.val c.val)) 2 = false ∧ (now t).buffer = []
        ∧ t.dev.rd64 (PAIL_SPIKES_LO d.val c.val) (PAIL_SPIKES_HI d.val c.val)
            = min (s.dev.rd64 (PAIL_SPIKES_LO d.val c.val) (PAIL_SPIKES_HI d.val c.val) + h.buffer.length) 0xFFFFFFFFFFFFFFFF
        ∧ RegsExcept s t [PAIL_STATUS d.val c.val, PAIL_SPIKES_LO d.val c.val, PAIL_SPIKES_HI d.val c.val] ∧ ChangesOnly s t [.regs, .churns])
    ∧ (∀ w, h.winEnded = some w → h.winFrame ≠ w → (h.due ++ h.running).any (fun o => o.win == w) = false →
        Clocked s d.val 0 → ∃ t, exec (.mseWindowClose d c) s = .next t ∧ bit (reg t st) 4 = true ∧ (now t).winEnded = none
          ∧ (∀ q, q < 16 → SMap.get 0 h.mseSum (w * 16 + q) < 2 ^ 64 → SMap.get 0 h.mseCnt (w * 16 + q) < 2 ^ 32 →
              t.dev.rd64 (CHN_MSE_SUM_LO d.val c.val q) (CHN_MSE_SUM_HI d.val c.val q) = SMap.get 0 h.mseSum (w * 16 + q)
              ∧ (reg t (CHN_MSE_CNT d.val c.val q)).toNat = SMap.get 0 h.mseCnt (w * 16 + q)
              ∧ SMap.get 0 (now t).mseSum (w * 16 + q) = 0)
          ∧ ChangesOnly s t [.regs, .churns])
    ∧ (∀ (who : Party) (q : Fin 16) (x : Word), s.env.has d.val = true →
        isFirmware who = true ∨ (who = .debug ∧ reaches s who)
          ∨ (∃ e : Fin 4, who = .engine e ∧ s.dev.churnOwner d.val c.val < 4 ∧ (s.dev.coach (s.dev.churnOwner d.val c.val)).port = e.val) →
        bit (reg s (SEC_BLOCK0 d.val)) c.val = false ∨ inSecureWorld s.env s.dev who = true →
        (pailOn s.dev d.val c.val = false →
          (gatherOk (pailEntries s.dev d.val c.val) (pailPositions s.dev d.val c.val) = true → ∃ t, exec (.pailCtrlEn who d c) s = .next t
            ∧ bit (reg t (PAIL_CTRL d.val c.val)) 0 = true ∧ OnlyRegs s t [PAIL_CTRL d.val c.val])
          ∧ (gatherOk (pailEntries s.dev d.val c.val) (pailPositions s.dev d.val c.val) = false → ∃ t, exec (.pailCtrlEn who d c) s = .next t
            ∧ bit (reg t (PAIL_STATUS d.val c.val)) 0 = true ∧ OnlyRegs s t [PAIL_STATUS d.val c.val]))
        ∧ (x ≠ 0 → ∃ t, exec (.chnSeedWrite who d c q x) s = .next t ∧ SMap.get 1 (now t).gen q.val = x.toNat
            ∧ (∀ k, k ≠ q.val → SMap.get 1 (now t).gen k = SMap.get 1 h.gen k) ∧ ChangesOnly s t [.churns])
        ∧ (∃ t, exec (.chnSeedWrite who d c q 0) s = .next t ∧ bit (reg t st) 6 = true ∧ OnlyRegs s t [st])
        ∧ (fld x 0 16 ≠ 0 → ∃ t, exec (.chnMseWinWrite who d c x) s = .next t ∧ (reg t (CHN_MSE_WIN d.val c.val)).toNat = fld x 0 16
            ∧ (now t).mseOff = false ∧ (now t).winTicks = 0 ∧ RegsExcept s t [CHN_MSE_WIN d.val c.val] ∧ ChangesOnly s t [.regs, .churns])
        ∧ (fld x 0 16 = 0 → ∃ t, exec (.chnMseWinWrite who d c x) s = .next t ∧ bit (reg t st) 5 = true ∧ (now t).mseOff = true
            ∧ RegsExcept s t [CHN_MSE_WIN d.val c.val, st] ∧ ChangesOnly s t [.regs, .churns]))
    ∧ (∀ (h4 : Fin 4) (q : Fin 16) (x : Word), s.env.has d.val = true →
        ∀ i ∈ [Instr.pailCtrlEn (.port h4) d c, .chnSeedWrite (.port h4) d c q x, .chnMseWinWrite (.port h4) d c x],
        ∃ t, exec i s = .next t ∧ t.dev.slot (slotKey d.val (s.dev.churnOwner d.val c.val) clsSE) ≠ none
          ∧ t.dev.churns = s.dev.churns ∧ t.dev.mem = s.dev.mem)

/-- The oldest input word of an enabled separator leaves it once the events of the word before have been taken; where it is valid and of the frame at work, every element that it delivers for the first time is taken. With u its value less ZP, scaled, rounded and clamped (R268), an encode element of SD_RATE adds the positive part to σ and subtracts 32,768, or its whole quanta, when it reaches them; one of ST_RATE or LATENCY keeps its state; one of DELTA moves ρ toward u by whole thresholds. A decode element counts (COUNT, emptied at the end of its window), leaks and adds (LEAKY), or keeps the lane value (READOUT), and its output is the raw value scaled, rounded, offset and clamped (R274). FIRST keeps the time of its first spike. Elements that the word does not deliver keep their state; an invalid word takes nothing. A separator whose events the interface does not take waits. A disabled separator that passes its check is enabled with all element state 0 and its generator kept; one that fails it gets CFG_ERR and an IF record. A seed other than 0 is stored; 0 sets an error. A secure separator is written from the secure world alone. -/
def Obligations.SeparatorsConvertWords : Prop :=
  ∀ (d : Fin 8) (k : Fin 16) (s : State),
    let h := s.dev.sep d.val k.val
    let now (t : State) := t.dev.sep d.val k.val
    (∀ n j w rest, h.inq = (n, j, w) :: rest → h.eout = [] → Clocked s d.val 0 → spOn s.dev d.val k.val = true →
      ∃ t, exec (.spiWord d k h.waited) s = .next t
        ∧ (now t).inq = rest
        ∧ (w.valid = false → (now t).taken = h.taken ∧ (now t).st = h.st)
        ∧ (w.valid = true → n = h.tick →
            (∀ e ∈ wordElems s.dev d.val k.val j w.data, e.1 ∈ (now t).taken)
            ∧ (∀ i x, (i, x) ∈ wordElems s.dev d.val k.val j w.data → i ∉ h.taken →
                let c := s.dev.elemChan d.val k.val i
                let st := SMap.get 0 h.st i
                let st' := SMap.get 0 (now t).st i
                let scaled (y : Int) : Int := (y * c.gain + (if c.sh = 0 then 0 else 2 ^ (c.sh - 1))) / 2 ^ c.sh
                (spDecode s.dev d.val k.val = false →
                  let u := clampI (-32768) 32767 (scaled (x - c.zp))
                  let up := max u 0
                  let q : Int := 2 ^ (7 + c.param)
                  let σ := min 131071 (st + up)
                  let e := u - st
                  (c.mode = 0 → c.pay = false → st' = if 32768 ≤ st + up then st + up - 32768 else st + up)
                  ∧ (c.mode = 0 → c.pay = true → 0 ≤ st → st' = σ - min 255 (σ / q) * q)
                  ∧ (c.mode = 1 ∨ c.mode = 2 → st' = st)
                  ∧ (c.mode = 3 → c.pay = false → 0 < c.dthr →
                      st' = if (c.dthr : Int) ≤ e then st + c.dthr else if e ≤ -(c.dthr : Int) then st - c.dthr else st)
                  ∧ (c.mode = 3 → c.pay = true → 0 < c.dthr →
                      st' = if 0 < e then st + min 255 (e / c.dthr) * c.dthr else st - min 255 (-e / c.dthr) * c.dthr))
                ∧ (spDecode s.dev d.val k.val = true →
                  let r := SMap.get 0 (now t).held i
                  let w := 2 ^ c.param
                  let last : Prop := n % w = w - 1
                  let sum := min 16777215 (st + x)
                  let f : Int := if st = 0 ∧ 1 ≤ x then ((w - n % w : Nat) : Int) else st
                  let lim : Int × Int := if bit (reg s (SP_CTRL d.val k.val)) 5 = true then (-32768, 32767) else (0, 255)
                  (c.mode = 4 → (last → st' = 0 ∧ r = sum) ∧ (¬last → st' = sum ∧ r = SMap.get 0 h.held i))
                  ∧ (c.mode = 5 → st' = clampI (-2 ^ 47) (2 ^ 47 - 1) (st - st / 2 ^ c.param + x) ∧ r = st' / 2 ^ c.param)
                  ∧ (c.mode = 6 → st' = st ∧ r = x)
                  ∧ (c.mode = 7 → (last → st' = 0 ∧ r = f) ∧ (¬last → st' = f ∧ r = SMap.get 0 h.held i))
                  ∧ SMap.get 0 (now t).out i = ofSigned 16 (clampI lim.1 lim.2 (scaled r + c.zp))))
            ∧ (∀ i, (∀ x, (i, x) ∉ wordElems s.dev d.val k.val j w.data) ∨ i ∈ h.taken → SMap.get 0 (now t).st i = SMap.get 0 h.st i))
        ∧ t.dev.mem = s.dev.mem)
    ∧ (∀ n j w rest, h.inq = (n, j, w) :: rest → h.eout = [] → Clocked s d.val 0 → spOn s.dev d.val k.val = false →
        ∃ t, exec (.spiWord d k h.waited) s = .next t ∧ now t = { h with inq := rest, waited := 0 } ∧ ChangesOnly s t [.seps])
    ∧ (∀ waited e l, h.eout = e :: l → Clocked s d.val 0 → takesEvent s.dev (blockIface d.val (4 + k.val)) e = false →
        ∃ t, exec (.spiWord d k waited) s = .next t ∧ (now t).inq = h.inq ∧ (now t).eout = h.eout ∧ (now t).st = h.st
          ∧ (now t).taken = h.taken ∧ ChangesOnly s t [.regs, .seps] ∧ RegsExcept s t [])
    ∧ (∀ waited, h.inq = [] → h.eout = [] → exec (.spiWord d k waited) s = .next s)
    ∧ (∀ (who : Party) (x : Word), s.env.has d.val = true →
        isFirmware who = true ∨ (who = .debug ∧ reaches s who)
          ∨ (∃ e : Fin 4, who = .engine e ∧ s.dev.sepOwner d.val k.val < 4 ∧ (s.dev.coach (s.dev.sepOwner d.val k.val)).port = e.val) →
        bit (reg s (SEC_BLOCK1 d.val)) k.val = false ∨ inSecureWorld s.env s.dev who = true →
        (bit (reg s (SP_CTRL d.val k.val)) 0 = false → bit (reg s (SP_CTRL d.val k.val)) 7 = false →
          (spOk s.dev d.val k.val = true → ∃ t, exec (.spCtrlEn who d k) s = .next t ∧ bit (reg t (SP_CTRL d.val k.val)) 0 = true
            ∧ fld (reg t (SP_CTRL d.val k.val)) 1 6 = fld (reg s (SP_CTRL d.val k.val)) 1 6
            ∧ (now t).st = [] ∧ (now t).held = [] ∧ (now t).gen = h.gen
            ∧ RegsExcept s t [SP_CTRL d.val k.val] ∧ ChangesOnly s t [.regs, .seps])
          ∧ (spOk s.dev d.val k.val = false → ∃ t, exec (.spCtrlEn who d k) s = .next t ∧ bit (reg t (SP_CTRL d.val k.val)) 0 = false
            ∧ bit (reg t (SP_STATUS d.val k.val)) 0 = true ∧ t.dev.slot (slotKey d.val (s.dev.sepOwner d.val k.val) clsIF) ≠ none
            ∧ t.dev.seps = s.dev.seps ∧ t.dev.mem = s.dev.mem))
        ∧ (x ≠ 0 → ∃ t, exec (.spSeedWrite who d k x) s = .next t ∧ now t = { h with gen := x.toNat } ∧ ChangesOnly s t [.seps])
        ∧ (∃ t, exec (.spSeedWrite who d k 0) s = .next t ∧ bit (reg t (SP_STATUS d.val k.val)) 1 = true
            ∧ OnlyRegs s t [SP_STATUS d.val k.val]))

/-- For the 24 command rows that commandRows lists with their opcodes and handlers: a command that may not start changes nothing. One that starts on a port with rings and fails the state check completes with that STATUS and DETAIL: the 32 bytes stand in the completion ring, the index advances, the alert is set, no other byte of memory changes, and of the registers only the port's and its die's bookkeeping. One that passes the check leaves its lane, its handler does its work, and it completes with the handler's STATUS, DETAIL and RESULT, or is among the port's running commands, with the copies that it is to make, where the handler leaves it so. -/
def Obligations.CommandsRunInTheirLanes : Prop :=
  ∀ (p : Fin 4) (c : Cmd) (s : State), ∀ x ∈ commandRows p c,
    (startable s.env s.dev p.val c x.2.1 = false → exec x.1 s = .next s)
    ∧ (startable s.env s.dev p.val c x.2.1 = true → ringed s p.val → ∀ y, stateCheck s.env s.dev p.val c.bytes = some y →
        ∃ t, exec x.1 s = .next t ∧ Completes s t p.val c y.1 y.2 []
          ∧ (∀ a, a < cplAt s p.val ∨ cplAt s p.val + 32 ≤ a → readByte t a = readByte s a)
          ∧ RegsExcept s t (cmdRegs p.val) ∧ ChangesOnly s t [.regs, .mem, .recent, .ports, .traces])
    ∧ (ready s p.val c x.2.1 → ∀ st detail result w, x.2.2 s.env p.val c.bytes (begun s p.val c) = (.done st detail result, w) →
        exec x.1 s = .next { s with dev := complete s.env p.val (runningOf s.env p.val c) st detail result w })
    ∧ (ready s p.val c x.2.1 → ∀ aux w, x.2.2 s.env p.val c.bytes (begun s p.val c) = (.later aux, w) →
        exec x.1 s = .next { s with dev := w.modPort p.val (fun h =>
          { h with running := h.running ++ [{ runningOf s.env p.val c with aux := aux }] }) })
    ∧ (ready s p.val c x.2.1 → ∀ l st detail w, x.2.2 s.env p.val c.bytes (begun s p.val c) = (.copying l st detail, w) →
        exec x.1 s = .next { s with dev := w.modPort p.val (fun h =>
          { h with running := h.running ++ [{ runningOf s.env p.val c with copies := l, st := st, detail := detail }] }) })

/-- Where every check on its operands passes: OPEN_COACH opens the coach for the port with its ranks, a fresh generator and cleared error counters. CLOSE_COACH of a running coach asks for a stop, and else holds the coach's traffic and starts the drain; when the drain limit has passed the coach is closed and the command completes with OK, and before it nothing happens. SET_RANKS writes all its entries and no other entry. SET_PLACEMENT leaves the placement that its exchanges give, and a single entry puts the core number on its physical core. TIMER_CFG claims an unassigned channel or pin, releases the coach's own, or configures its pin. QUERY completes and writes its buffer alone. An empty list completes with OK_EMPTY. -/
def Obligations.CoachCommandsTakeEffect : Prop :=
  ∀ (p : Fin 4) (c : Cmd) (s : State),
    let bs := c.bytes
    let g := coachOf bs
    let m := s.env.master
    (ready s p.val c 0x01 →
        let lo := leAt bs 8 4
        let hi := leAt bs 12 4
        let b := bufAt bs 20
        let get : Getter := fun o k => bufN s.dev p.val b o k
        lo < s.env.cores → lo ≤ hi → hi < s.env.cores → 1 ≤ leAt bs 16 4 → leAt bs 16 4 ≤ 65536 → bufOk s.dev p.val b false = true →
        64 ≤ b.len → recordError s.env p.val b.len get = none → rangeTaken s.dev lo hi = false →
        ∀ w, claimRecord s.env g p.val get (begun s p.val c) = .ok w →
        (∀ d, d < s.env.dies → overChurns (openCoach s.env g p.val bs w) ((openCoach s.env g p.val bs w).fd (PM_STATUS m) 12 3) d = false
          ∧ overCores (openCoach s.env g p.val bs w) ((openCoach s.env g p.val bs w).fd (PM_STATUS m) 12 3) d = false) →
        ∃ t, exec (.openCoach p c) s = .next t ∧ Completes s t p.val c stOk 0 []
          ∧ t.dev.coach g = { Coach.init with state := .opened, port := p.val, rankBase := lo, rankLimit := hi, rankCount := leAt bs 16 4 }
          ∧ t.dev.gen g = TickGen.init ∧ t.dev.isOpen g = true
          ∧ (∀ d k, d < s.env.dies → k < 7 → reg t (FC_CNT d g k) = 0) ∧ isHeld s.env t.dev g = false)
    ∧ (ready s p.val c 0x02 →
        (s.dev.genRuns s.env g = true → ∃ t, exec (.closeCoach p c) s = .next t ∧ GoesOn s t p.val c 0
          ∧ (t.dev.gen g).stopReq = true ∧ (t.dev.coach g).state = .closing ∧ t.dev.mem = s.dev.mem)
        ∧ (s.dev.genRuns s.env g = false → ∃ t, exec (.closeCoach p c) s = .next t ∧ GoesOn s t p.val c 0
          ∧ isHeld s.env t.dev g = true ∧ (t.dev.coach g).state = .closing ∧ (t.dev.coach g).closeAt = some s.env.now
          ∧ t.dev.mem = s.dev.mem))
    ∧ (∀ k : Fin 4, ∀ t0, (s.dev.coach k.val).closeAt = some t0 →
        (t0 + 1000 * (reg s (EF_DRAIN_LIMIT m)).toNat ≤ s.env.now → ∃ t, exec (.closeDrainLimit k) s = .next t
          ∧ t.dev.coach k.val = Coach.init ∧ t.dev.isOpen k.val = false
          ∧ (∀ r, s.dev.runningOp (s.dev.coach k.val).port 0x02 k.val = some r → ringed s (s.dev.coach k.val).port →
              Ends s t (s.dev.coach k.val).port r stOk []))
        ∧ (s.env.now < t0 + 1000 * (reg s (EF_DRAIN_LIMIT m)).toNat → exec (.closeDrainLimit k) s = .next s))
    ∧ (ready s p.val c 0x03 →
        let first := leAt bs 8 4
        let count := leAt bs 12 4
        let b := bufAt bs 16
        first + count ≤ (s.dev.coach g).rankCount → bufOk s.dev p.val b false = true →
        (count = 0 → ∃ t, exec (.setRanks p c) s = .next t ∧ Completes s t p.val c stOkEmpty 0 [] ∧ t.dev.coaches = s.dev.coaches)
        ∧ (count ≠ 0 → 4 * count ≤ b.len →
            (∀ i, i < count → bufN s.dev p.val b (4 * i) 4 < 0x40000 ∧ s.dev.inRange g (bufN s.dev p.val b (4 * i) 4) = true) →
          ∃ t, exec (.setRanks p c) s = .next t ∧ Completes s t p.val c stOk 0 []
            ∧ (∀ i, i < count → SMap.get 0 (t.dev.coach g).ranks (first + i) = bufN s.dev p.val b (4 * i) 4 + 1)
            ∧ (∀ j, j < first ∨ first + count ≤ j → SMap.get 0 (t.dev.coach g).ranks j = SMap.get 0 (s.dev.coach g).ranks j)
            ∧ RegsExcept s t (cmdRegs p.val) ∧ ChangesOnly s t [.regs, .mem, .recent, .ports, .traces, .coaches]))
    ∧ (ready s p.val c 0x04 →
        let count := leAt bs 8 4
        let b := bufAt bs 12
        bufOk s.dev p.val b false = true →
        (count = 0 → ∃ t, exec (.setPlacement p c) s = .next t ∧ Completes s t p.val c stOkEmpty 0 [] ∧ t.dev.place = s.dev.place)
        ∧ (count ≠ 0 → 8 * count ≤ b.len → (∀ i, i < count → placeError s.env s.dev g p.val b i = none) →
            ∀ w, exchangeAll s.env g p.val b (begun s p.val c) (List.range count) (begun s p.val c) = .ok w →
          ∃ t, exec (.setPlacement p c) s = .next t ∧ Completes s t p.val c stOk 0 [] ∧ t.dev.place = w.place
            ∧ (∀ n q, count = 1 → (placeEntry s.dev p.val b 0).1 = n → physOf s.env (placeEntry s.dev p.val b 0).2.1 = some q →
                s.dev.numberOf q ≠ some n → t.dev.placeOf n = some q)))
    ∧ (ready s p.val c 0x1B →
        let act := leAt bs 8 1
        let d := leAt bs 9 1
        let k := leAt bs 10 1
        let x := w32 (leAt bs 12 4)
        let f : Reg × Nat := if act < 2 then (CMP_CTRL d k, 28) else if act < 4 then (CAP_CTRL d k, 28) else (TO_OWNER m, 4 * k)
        act ≤ 6 → d < s.env.dies → (4 ≤ act → d = m) → k < (if act < 2 then 64 else if act < 4 then 8 else 4) →
        (act < 2 → d = m → 4 ≤ k) →
        (act ∈ [0, 2, 5] → fld (reg s f.1) f.2 3 = 7 → ∃ t, exec (.timerCfg p c) s = .next t ∧ Completes s t p.val c stOk 0 []
          ∧ fld (reg t f.1) f.2 3 = g ∧ RegsExcept s t (f.1 :: cmdRegs p.val) ∧ ChangesOnly s t [.regs, .mem, .recent, .ports, .traces])
        ∧ (act ∈ [1, 3] → fld (reg s f.1) f.2 3 = g → ∃ t, exec (.timerCfg p c) s = .next t ∧ Completes s t p.val c stOk 0 []
          ∧ fld (reg t f.1) f.2 3 = 7 ∧ RegsExcept s t (f.1 :: cmdRegs p.val) ∧ ChangesOnly s t [.regs, .mem, .recent, .ports, .traces])
        ∧ (act = 4 → fld (reg s f.1) f.2 3 = g → fld x 4 2 = g →
            (fld x 0 3 = 3 → fld (reg s (CMP_CTRL m (fld x 8 6))) 28 3 = g) →
          ∃ t, exec (.timerCfg p c) s = .next t ∧ Completes s t p.val c stOk 0 []
          ∧ reg t (TO_CTRL m k) = (toCtrlWrite s.env k x s.dev).rd (TO_CTRL m k)
          ∧ RegsExcept s t (TO_CTRL m k :: cmdRegs p.val) ∧ ChangesOnly s t [.regs, .mem, .recent, .ports, .traces])
        ∧ (act = 6 → fld (reg s f.1) f.2 3 = g → ∃ t, exec (.timerCfg p c) s = .next t ∧ Completes s t p.val c stOk 0 []
          ∧ fld (reg t f.1) f.2 3 = 7 ∧ reg t (TO_CTRL m k) = regReset (TO_CTRL m k)
          ∧ RegsExcept s t (f.1 :: TO_CTRL m k :: cmdRegs p.val) ∧ ChangesOnly s t [.regs, .mem, .recent, .ports, .traces, .tick]))
    ∧ (leAt bs 8 1 = 4 → exec (.query p c) s = .next s)
    ∧ (ready s p.val c 0x1A →
        let what := leAt bs 8 1
        let i := leAt bs 9 1
        let b := bufAt bs 16
        what < 4 → (what = 1 → i < s.env.dies) → (what = 2 → i < 4) → bufOk s.dev p.val b true = true →
        ∃ t r, exec (.query p c) s = .next t ∧ r.length = 16 ∧ Completes s t p.val c stOk 0 r
          ∧ (∀ a, a < sramMem p.val b.off ∨ sramMem p.val (b.off + b.len) ≤ a → a < cplAt s p.val ∨ cplAt s p.val + 32 ≤ a →
              readByte t a = readByte s a)
          ∧ RegsExcept s t (cmdRegs p.val) ∧ ChangesOnly s t [.regs, .mem, .recent, .ports, .traces, .freeCtr])

/-- Where every check on its operands passes: LOAD_CORES with one record of data puts the data in the core's local memory, disabled, and data that are the read count of an open queue are the consumer's write of it; LOAD_VAT and READ_STATE of a vat take the copy on that they are to make, which VAT_UNSCHED_ACCESS carries out; LOAD_TIMETABLE puts the die tables in the inactive buffers, swapped in at once where the generator stands still, and RESULT names the image; READ_STATE puts local memory or registers in the buffer, and zeros with an IF record for a core that is not reached; SNAPSHOT writes its part of the stream, or the whole stream to a crock slot, in the least-erased sectors that no other slot holds, each erased once, and waits while a core applies; RESTORE leaves what its sections say, the vat sections as copies; FENCE_CORE fences the core, or says ALREADY; BRING_SPARE puts the core number on the spare, in reset, and CORE_RESET_DONE ends it; QUEUE_INJECT completes with the queue's result code. -/
def Obligations.LoadAndStateCommandsTakeEffect : Prop :=
  ∀ (p : Fin 4) (c : Cmd) (s : State),
    let bs := c.bytes
    let g := coachOf bs
    let v := begun s p.val c
    let away (a : Nat) : Prop := a < cplAt s p.val ∨ cplAt s p.val + 32 ≤ a
    (ready s p.val c 0x05 → ∀ k q, leAt bs 8 4 = 1 →
        let b := bufAt bs 12
        let off := bufN s.dev p.val b 8 4
        let data := s.dev.ldBytes (sramMem p.val (b.off + 64)) (bufN s.dev p.val b 12 4)
        bufOk s.dev p.val b false = true → recordForm s.dev p.val b 0 = none → recordCore s.dev g p.val b 0 = some k → k < s.env.cores →
        s.dev.inRange g k = true → s.dev.reach s.env k = some q → (coachState s.dev g = .running → s.dev.enabled q = false) →
        fldN (bufN s.dev p.val b 1 1) 1 2 = 0 → bufN s.dev p.val b 20 2 = 0 → crc32 data = bufN s.dev p.val b 16 4 →
        (s.dev.core q).fire = none →
        ∃ t, exec (.loadCores p c) s = .next t ∧ Completes s t p.val c stOk 0 [] ∧ t.dev.enabled q = false
          ∧ (t.dev.coach g).snapGen = ((s.dev.coach g).snapGen + 1) % 0x100000000
          ∧ ((∀ i, i < 16 → s.dev.qOpen q i = true → s.dev.qBase q i + 12 ≤ off ∨ off + data.length ≤ s.dev.qBase q i + 8) →
              t.dev.ldBytes (coreMem q off) data.length = data
              ∧ (∀ a, away a → a < coreMem q off ∨ coreMem q off + data.length ≤ a → readByte t a = readByte s a))
          ∧ (∀ i, i < 16 → s.dev.qOpen q i = true → s.dev.fd (QM_Q_CTRL q i) 3 2 = 0 → s.dev.qMode q i ≠ 1 → off = s.dev.qBase q i + 8 →
              data.length = 4 → (∀ j, j < 16 → j ≠ i → s.dev.qOpen q j = true → s.dev.qBase q j + 12 ≤ off ∨ off + 4 ≤ s.dev.qBase q j) →
              let x := leAt data 0 4
              t.dev.qRd q i = x
              ∧ (bit (reg t (QM_Q_CTRL q i)) 10 = true
                  ↔ ¬(x % 32 = 0 ∧ (s.dev.qWr q i + 0x100000000 - x) % 0x100000000 ≤ s.dev.qRing q i))))
    ∧ (ready s p.val c 0x06 →
        let d := leAt bs 8 1
        let a := leAt bs 12 4
        let b := bufAt bs 16
        d < s.env.dies → a % 8 = 0 → bufOk s.dev p.val b false = true → b.len ≠ 0 → rangeSecure s.dev d 0 a b.len = false →
        a + b.len ≤ 0x10000000 → rangeReaches s.dev d g 0 a b.len true = true →
        ∃ t, exec (.loadVat p c) s = .next t
          ∧ Copies s t p.val c [⟨d, a, b.len, some (s.dev.ldBytes (sramMem p.val b.off) b.len), 0⟩]
          ∧ (t.dev.coach g).snapGen = ((s.dev.coach g).snapGen + 1) % 0x100000000
          ∧ RegsExcept s t [PM_STATUS (portDie p.val)] ∧ ChangesOnly s t [.regs, .ports, .coaches])
    ∧ (ready s p.val c 0x07 →
        let b := bufAt bs 8
        let img := bufBytes s.dev p.val b
        ∀ l w, SMap.get none s.dev.net.armed g = none → bufOk s.dev p.val b false = true → b.len ≠ 0 → parseImage img = some l →
        l.all (sectOk s.env v g) = true → noRepeats l = true → loadCheck s.env v (engine p.val) g l = none →
        applySections s.env (engine p.val) l (fillInactive g l (clearInactive s.env g v)) = (none, w) →
        ∃ t, exec (.loadTimetable p c) s = .next t ∧ Completes s t p.val c stOk 0 (leBytes 4 (leAt img 4 4))
          ∧ (t.dev.coach g).imageId = leAt img 4 4
          ∧ (∀ x ∈ l, x.kind = 1 → SMap.get none (if w.genRuns s.env g then t.dev.net.inactive else t.dev.net.active) (x.die * 4 + g)
              = some (parseTable x.data)))
    ∧ (ready s p.val c 0x0E →
        let space := leAt bs 8 1
        let k := leAt bs 12 4
        let o := leAt bs 16 4
        let b := bufAt bs 20
        let into (t : State) : List Byte := t.dev.ldBytes (sramMem p.val b.off) b.len
        bufOk s.dev p.val b true = true → b.len ≠ 0 →
        (space = 2 → k < s.env.dies → k < 8 → o + b.len ≤ 0x10000000 → rangeSecure s.dev k 0 o b.len = false →
            rangeReaches s.dev k g 0 o b.len false = true →
          ∃ t, exec (.readState p c) s = .next t ∧ Copies s t p.val c [⟨k, o, b.len, none, b.off⟩]
            ∧ RegsExcept s t [PM_STATUS (portDie p.val)] ∧ ChangesOnly s t [.regs, .ports])
        ∧ (space = 0 → k < s.env.cores → o + b.len ≤ 0x40000 → s.dev.inRange g k = true → ∀ q, s.dev.reach s.env k = some q →
          ∃ t, exec (.readState p c) s = .next t ∧ Completes s t p.val c stOk 0 [] ∧ into t = s.dev.ldBytes (coreMem q o) b.len)
        ∧ (space = 1 → k < s.env.cores → o + b.len ≤ 0x1000 → o % 4 = 0 → s.dev.inRange g k = true → ∀ q, s.dev.reach s.env k = some q →
          ∃ t, exec (.readState p c) s = .next t ∧ Completes s t p.val c stOk 0 [] ∧ into t = coreRegBytes s.env s.dev q o b.len)
        ∧ (space < 2 → k < s.env.cores → o + b.len ≤ (if space = 0 then 0x40000 else 0x1000) → (space = 1 → o % 4 = 0) →
            s.dev.inRange g k = true → s.dev.reach s.env k = none →
          ∃ t, exec (.readState p c) s = .next t ∧ Completes s t p.val c stOk 0 [] ∧ into t = List.replicate b.len 0
            ∧ Recorded t (portDie p.val) g clsIF))
    ∧ (ready s p.val c 0x0F →
        let slot := leAt bs 9 1
        let b := bufAt bs 24
        let str := snapStream s.env v g
        let part := (str.drop (leAt bs 16 8)).take b.len
        let sectors := (str.length + 0xFFFF) / 0x10000
        let erased (v : Dev) (x : Nat) : Nat := SMap.get 0 v.crock.erases (v.sectorOf (0x600 + x))
        (applying s.dev g = true → exec (.snapshot p c) s = .next s)
        ∧ (applying s.dev g = false → leAt bs 8 1 = 0 → slot < 8 → bufOk s.dev p.val b true = true → b.len ≠ 0 →
          ∃ t, exec (.snapshot p c) s = .next t
            ∧ Completes s t p.val c stOk 0 (snapResult str.length part.length (s.dev.coach g).snapGen)
            ∧ t.dev.ldBytes (sramMem p.val b.off) part.length = part
            ∧ RegsExcept s t (cmdRegs p.val) ∧ ChangesOnly s t [.regs, .mem, .recent, .ports, .traces])
        ∧ (applying s.dev g = false → leAt bs 8 1 = 1 → slot < 8 → crockUsable s.env s.dev = true →
            bit (reg s (CR_STATUS s.env.master)) 3 = false → str.length ≤ slotBytes →
            (leastErased (dropCkpt s.env slot s.dev) sectors).length = sectors →
          ∃ t, exec (.snapshot p c) s = .next t
            ∧ Completes s t p.val c stOk 0 (snapResult str.length str.length (s.dev.coach g).snapGen)
            ∧ t.dev.ckptBytes slot str.length = str ∧ bit (reg t (CR_CKPT s.env.master)) slot = true
            ∧ (reg t (CR_CKPT_LEN s.env.master slot)).toNat = str.length
            ∧ (SMap.get [] t.dev.crock.ckpt slot).length = sectors ∧ (SMap.get [] t.dev.crock.ckpt slot).Nodup
            ∧ (∀ x ∈ SMap.get [] t.dev.crock.ckpt slot, x < 6656 ∧ (∀ k, k ≠ slot → x ∉ SMap.get [] t.dev.crock.ckpt k)
                ∧ (∀ y, y < 6656 → (∀ k, y ∉ SMap.get [] t.dev.crock.ckpt k) → erased s.dev x ≤ erased s.dev y))
            ∧ t.dev.rd64 (CR_ERASES_LO s.env.master) (CR_ERASES_HI s.env.master)
                = min (s.dev.rd64 (CR_ERASES_LO s.env.master) (CR_ERASES_HI s.env.master) + sectors) 0xFFFFFFFFFFFFFFFF))
    ∧ (ready s p.val c 0x10 → leAt bs 8 1 = 0 → leAt bs 9 1 < 8 → leAt bs 16 8 = 0 →
        let b := bufAt bs 24
        let img := bufBytes s.dev p.val b
        bufOk s.dev p.val b false = true → 64 ≤ b.len → leAt img 0 1 = 2 →
        ∀ w, restoreFrom s.env g img (img.length / 32 + 1) 64 (bumpGen g v) = (none, w) →
        let l := restoreCopies img img.length (img.length / 32 + 1) 64
        ∃ t, exec (.restore p c) s = .next t
          ∧ (l = [] → Completes s t p.val c stOk 0 [] ∧ (∀ a, away a → readByte t a = w.ld a))
          ∧ (l ≠ [] → Copies s t p.val c l ∧ (∀ a, readByte t a = w.ld a))
          ∧ t.dev.cores = w.cores ∧ t.dev.seps = w.seps)
    ∧ (ready s p.val c 0x11 → ∀ n, leAt bs 8 4 = n → n < s.env.cores → s.dev.inRange g n = true →
        (∀ q, s.dev.placeOf n = some q → s.dev.isFenced q = false → ∃ t, exec (.fenceCore p c) s = .next t
          ∧ Completes s t p.val c stOk 0 [] ∧ t.dev.isFenced q = true ∧ t.dev.enabled q = false ∧ bit (reg t (NC_STATUS q)) 5 = true)
        ∧ (s.dev.placeOf n = none ∨ (∃ q, s.dev.placeOf n = some q ∧ s.dev.isFenced q = true) → ∃ t, exec (.fenceCore p c) s = .next t
          ∧ Completes s t p.val c stOk 0 [1] ∧ t.dev.place = s.dev.place ∧ t.dev.cores = s.dev.cores))
    ∧ (ready s p.val c 0x12 → ∀ n q, leAt bs 8 4 = n →
        let b := bufAt bs 12
        let data := s.dev.ldBytes (sramMem p.val (b.off + 64)) (bufN s.dev p.val b 12 4)
        n < s.env.cores → s.dev.inRange g n = true → bufOk s.dev p.val b false = true → b.len ≠ 0 → recordForm s.dev p.val b 0 = none →
        recordCore s.dev g p.val b 0 = some n → s.dev.reach s.env n = none → spareFor s.dev n = some q →
        fldN (bufN s.dev p.val b 1 1) 1 2 = 0 → bufN s.dev p.val b 20 2 = 0 → crc32 data = bufN s.dev p.val b 16 4 →
        ∃ t, exec (.bringSpare p c) s = .next t ∧ GoesOn s t p.val c q ∧ t.dev.placeOf n = some q ∧ t.dev.coreOwner q = g
          ∧ bit (reg t (NC_STATUS q)) 5 = true)
    ∧ (∀ (q : Phys) (r : Running), let k := s.dev.coreOwner q.idx
        k < 4 → s.dev.runs k 0x12 = some r → r.aux = q.idx → ringed s (s.dev.coach k).port → bit (reg s (NC_STATUS q.idx)) 5 = true →
        Clocked s (pDie q.idx) 1 → ∃ t, exec (.coreResetDone q) s = .next t ∧ bit (reg t (NC_STATUS q.idx)) 5 = s.dev.isFenced q.idx
          ∧ Ends s t (s.dev.coach k).port r (if s.dev.isFenced q.idx then stFaulted else stOk) (leBytes 4 (r131 q.idx)))
    ∧ (ready s p.val c 0x1C → ∀ q, let n := leAt bs 8 4
        let x := w32 (leAt bs 12 4)
        let b := bufAt bs 16
        n < s.env.cores → bit x 31 = false → fld x 25 6 = 0 → bufOk s.dev p.val b false = true → b.len ≤ 512 →
        32 * (fld x 4 4 + 1) ≤ b.len → s.dev.inRange g n = true → s.dev.reach s.env n = some q →
        ∃ t, exec (.queueInject p c) s = .next t ∧ Completes s t p.val c (fld (reg t (QM_INJ_STATUS q)) 0 8) 0 [])

/-- Where its checks pass: SET_ROUTES fills the inactive version's entries of the coach's numbers from the placement; SWAP_EPOCH flips the epoch and drains the old version, and ends with the number that was in flight when none is left, or with TIMEOUT at the limit; DRAIN releases the hold, or sets it and ends when nothing is in flight, or at its limit; START_RUN of a coach that has swapped, with valid settings, runs the generator and reports the first tick and start; STOP_RUN ends at once in a stopped coach and else asks for the stop, which the boundary brings; STEP arms one tick 10 µs ahead, and ends when its action instant and frame have passed. What is not due changes nothing. -/
def Obligations.RunCommandsTakeEffect : Prop :=
  ∀ (p : Fin 4) (c : Cmd) (s : State),
    let bs := c.bytes
    let g := coachOf bs
    let m := s.env.master
    let v := begun s p.val c
    (ready s p.val c 0x08 →
        let b := bufAt bs 12
        let ver := !curEpoch s.env s.dev g
        ∀ l, bufOk s.dev p.val b false = true → leAt bs 8 4 ≤ 4096 → parseGroups s.dev p.val b (leAt bs 8 4) 0 = .ok l →
        (l.map (·.count)).foldl (· + ·) 0 + othersMembers s.dev g ver ≤ 65536 → (∀ q ∈ l, badMember s.dev g p.val b q = none) →
        draining s.env s.dev g = false → (∀ q ∈ l, ∀ o, groupOwner s.dev q.group = some o → o = g) →
        ∃ t, exec (.setRoutes p c) s = .next t ∧ Completes s t p.val c stOk 0 []
          ∧ (∀ n, (s.dev.coach g).rankBase ≤ n → n ≤ (s.dev.coach g).rankLimit →
              SMap.get 0 t.dev.fab.routes (b2n ver * 0x40000 + n) = (match s.dev.placeOf n with | some q => q + 1 | none => 0))
          ∧ t.dev.fab.groups = (if leAt bs 8 4 = 0 then s.dev.fab.groups else (fillGroups g p.val b l ver v).fab.groups)
          ∧ RegsExcept s t (cmdRegs p.val) ∧ ChangesOnly s t [.regs, .mem, .recent, .ports, .traces, .fab])
    ∧ (ready s p.val c 0x09 → draining s.env s.dev g = false →
        ∃ t, exec (.swapEpoch p c) s = .next t ∧ GoesOn s t p.val c (inFlight s.dev g (curEpoch s.env s.dev g))
          ∧ curEpoch s.env t.dev g = (!curEpoch s.env s.dev g) ∧ draining s.env t.dev g = true ∧ (t.dev.coach g).swapped = true
          ∧ t.dev.mem = s.dev.mem)
    ∧ (ready s p.val c 0x0A →
        (fldN (leAt bs 8 1) 0 1 = 1 → ∃ t, exec (.drain p c) s = .next t ∧ Completes s t p.val c stOk 0 [] ∧ isHeld s.env t.dev g = false)
        ∧ (fldN (leAt bs 8 1) 0 1 = 0 → ∃ t, exec (.drain p c) s = .next t ∧ isHeld s.env t.dev g = true ∧ t.dev.mem = s.dev.mem
            ∧ GoesOn s t p.val c (if leAt bs 12 4 = 0 then (reg s (EF_DRAIN_LIMIT m)).toNat else leAt bs 12 4)))
    ∧ (ready s p.val c 0x0B → (s.dev.coach g).swapped = true → (genSettings s.dev m g).valid = true →
        ∃ t, exec (.startRun p c) s = .next t ∧ t.dev.genRuns s.env g = true ∧ (t.dev.coach g).state = .running
          ∧ (t.dev.coach g).snapGen = ((s.dev.coach g).snapGen + 1) % 0x100000000 ∧ (t.dev.coach g).loss = false
          ∧ isHeld s.env t.dev g = false ∧ (t.dev.gen g).stepping = false
          ∧ Completes s t p.val c stOk 0 (leBytes 8 (s.dev.tgTick s.env g) ++ leBytes 8 (if bit (reg t (TG_CTRL m g)) 1 then 0 else
              match (t.dev.gen g).next with | x :: _ => x.start | [] => 0)))
    ∧ (ready s p.val c 0x0C →
        (coachState s.dev g = .stopped → ∃ t, exec (.stopRun p c) s = .next t
          ∧ Completes s t p.val c stOk 0 (leBytes 8 ((s.dev.gen g).lastTick.getD Config.noTick)) ∧ t.dev.gen g = s.dev.gen g)
        ∧ (coachState s.dev g ≠ .stopped → ∃ t, exec (.stopRun p c) s = .next t ∧ GoesOn s t p.val c 0
          ∧ (t.dev.gen g).stopReq = true ∧ (t.dev.coach g).state = .stopping ∧ t.dev.mem = s.dev.mem))
    ∧ (ready s p.val c 0x0D → (genSettings s.dev m g).valid = true →
        ∃ t, exec (.step p c) s = .next t ∧ GoesOn s t p.val c 0 ∧ t.dev.genRuns s.env g = true ∧ (t.dev.gen g).stepping = true
          ∧ (t.dev.gen g).next.map (·.start) = [s.env.now + 10000] ∧ (t.dev.coach g).state = .stepping)
    ∧ (∀ k : Fin 4,
        let q := (s.dev.coach k.val).port
        let h := s.dev.gen k.val
        (draining s.env s.dev k.val = true → inFlight s.dev k.val (!curEpoch s.env s.dev k.val) = 0 →
          ∃ t, exec (.swapEpochDrained k) s = .next t ∧ draining s.env t.dev k.val = false
            ∧ (∀ r, s.dev.runs k.val 0x09 = some r → ringed s q → Ends s t q r stOk (leBytes 4 r.aux)))
        ∧ (draining s.env s.dev k.val = false ∨ inFlight s.dev k.val (!curEpoch s.env s.dev k.val) ≠ 0 → exec (.swapEpochDrained k) s = .next s)
        ∧ (∀ r, s.dev.runs k.val 0x09 = some r → draining s.env s.dev k.val = true → inFlight s.dev k.val (!curEpoch s.env s.dev k.val) ≠ 0 →
          (r.time + 1000 * (reg s (EF_DRAIN_LIMIT m)).toNat ≤ s.env.nowOf (portDie q) → ringed s q →
            ∃ t, exec (.swapEpochTimeout k) s = .next t ∧ bit (reg t (EF_EPOCH m)) (8 + k.val) = true
              ∧ Ends s t q r stTimeout (leBytes 4 r.aux))
          ∧ (s.env.nowOf (portDie q) < r.time + 1000 * (reg s (EF_DRAIN_LIMIT m)).toNat → exec (.swapEpochTimeout k) s = .next s))
        ∧ (∀ r, s.dev.runs k.val 0x0A = some r → ringed s q →
          (coachQuiet s.dev k.val = true → isHeld s.env s.dev k.val = true → (s.dev.coach k.val).closeAt = none →
            ∃ t, exec (.drainDone k) s = .next t ∧ Ends s t q r stOk [] ∧ isHeld s.env t.dev k.val = true)
          ∧ (coachQuiet s.dev k.val = false → exec (.drainDone k) s = .next s)
          ∧ (coachQuiet s.dev k.val = false → r.time + 1000 * r.aux ≤ s.env.nowOf (portDie q) →
            ∃ t, exec (.drainTimeout k) s = .next t ∧ Ends s t q r stTimeout [] ∧ isHeld s.env t.dev k.val = isHeld s.env s.dev k.val))
        ∧ (s.dev.genRuns s.env k.val = true → h.stopReq = true → h.stepping = false → atBoundary s.env s.dev k.val = true →
            workOver s.env s.dev k.val = true →
          ∃ t, exec (.generatorStop k) s = .next t ∧ t.dev.genRuns s.env k.val = false
            ∧ ((s.dev.coach k.val).state = .closing → (t.dev.coach k.val).closeAt = some s.env.now ∧ isHeld s.env t.dev k.val = true)
            ∧ ((s.dev.coach k.val).state ≠ .closing → (t.dev.coach k.val).state = .stopped
                ∧ ∀ r, s.dev.runs k.val 0x0C = some r → ringed s q → Ends s t q r stOk (leBytes 8 ((t.dev.gen k.val).lastTick.getD Config.noTick))))
        ∧ (h.stopReq = false → exec (.generatorStop k) s = .next s)
        ∧ (∀ x r, h.cur = some x → s.dev.genRuns s.env k.val = true → h.stepping = true → x.acted = true → s.dev.frame k.val = none →
            s.dev.runs k.val 0x0D = some r → ringed s q →
          ∃ t, exec (.stepDone k) s = .next t ∧ t.dev.genRuns s.env k.val = false ∧ (t.dev.coach k.val).state = .stopped
            ∧ (t.dev.gen k.val).lastTick = some x.n
            ∧ Ends s t q r stOk (leBytes 8 x.n ++ leBytes 4 (lateOfTick s.env s.dev k.val x) ++ leBytes 1 (b2n x.missed)))
        ∧ (h.stepping = false → exec (.stepDone k) s = .next s))

/-- A device open that is asked for, with no command running, puts a valid page's rings in force with indices 0 and the highest shared version, ends a loss and discards what had not started; an invalid page closes the interface with BAD_PARAM, and no shared version refuses it. The next command of a ring leaves it for its lane, or completes at once where its form is refused, while the completion ring has room; a producer index beyond the ring breaks it. A firmware command that has waited 2 s completes with TIMEOUT. The host's consumer index is taken where it lies within the ring, and else recorded as an error. The oldest log record for a port goes to its log ring, is counted where the ring is full, and waits while the log stands still. -/
def Obligations.RingsAreKept : Prop :=
  ∀ (p : Fin 4) (s : State),
    let h := s.dev.port p.val
    let seq := hostN s.dev p.val 4 4
    let d := (hostN s.dev p.val 64 4 + 0x100000000 - h.cmdCons) % 0x100000000
    let m := s.env.master
    (dispatching s.dev p.val = true → openPending s.dev p.val = true → h.running = [] →
        (∀ maj, hostPageOk s.dev p.val = true → negotiate s.dev p.val = some maj → ∃ t, exec (.deviceOpen p) s = .next t
          ∧ let n := t.dev.port p.val
            n.ifState = 1 ∧ n.openSeq = seq ∧ n.ifMajor = maj ∧ n.openResult = stOk ∧ n.bases = (pageRings s.dev p.val).map (·.1)
            ∧ n.logs = [hostN s.dev p.val 20 1, hostN s.dev p.val 21 1, hostN s.dev p.val 22 1] ∧ n.cmdCons = 0 ∧ n.cplProd = 0
            ∧ n.cplCons = 0 ∧ n.logProd = 0 ∧ n.logCons = 0 ∧ n.loss = none ∧ n.lanes = [] ∧ n.hbRef = s.env.nowOf (portDie p.val)
            ∧ n.cmdDiscard = (h.cmdDiscard + notStarted s.dev p.val) % 0x100000000
            ∧ RegsExcept s t [hpAlert p.val] ∧ ChangesOnly s t [.regs, .ports])
        ∧ (hostPageOk s.dev p.val = false → ∃ t, exec (.deviceOpen p) s = .next t ∧ (t.dev.port p.val).ifState = 0
          ∧ (t.dev.port p.val).openResult = stBadParam ∧ (t.dev.port p.val).openSeq = seq ∧ (t.dev.port p.val).bases = []
          ∧ ChangesOnly s t [.ports])
        ∧ (hostPageOk s.dev p.val = true → negotiate s.dev p.val = none → ∃ t, exec (.deviceOpen p) s = .next t
          ∧ (t.dev.port p.val).ifState = 2 ∧ (t.dev.port p.val).openResult = stRefusedVersion ∧ (t.dev.port p.val).openSeq = seq
          ∧ ChangesOnly s t [.ports]))
    ∧ (openPending s.dev p.val = false ∨ h.running ≠ [] → exec (.deviceOpen p) s = .next s)
    ∧ (dispatching s.dev p.val = true → openPending s.dev p.val = false → h.serves = true →
        let bytes := s.dev.ldBytes (sramMem p.val (h.base 0 + h.cmdCons % h.slots 0 * 64)) 64
        let c : Cmd := ⟨h.cmdCons, bytes⟩
        (d ≠ 0 → d ≤ h.slots 0 → outstanding h < cplFree h →
          (formCheck bytes = none → ∃ t, exec (.cmdTake p) s = .next t
            ∧ t.dev.lane p.val (laneOf bytes) = s.dev.lane p.val (laneOf bytes) ++ [⟨h.cmdCons, bytes, s.env.nowOf (portDie p.val)⟩]
            ∧ (t.dev.port p.val).cmdCons = (h.cmdCons + 1) % 0x100000000 ∧ ChangesOnly s t [.ports])
          ∧ (∀ x, formCheck bytes = some x → ringed s p.val → ∃ t, exec (.cmdTake p) s = .next t
            ∧ Written s t p.val (runningOf s.env p.val c) x.1 x.2 [] ∧ (t.dev.port p.val).lanes = h.lanes
            ∧ (t.dev.port p.val).cmdCons = (h.cmdCons + 1) % 0x100000000
            ∧ RegsExcept s t (cmdRegs p.val) ∧ ChangesOnly s t [.regs, .mem, .recent, .ports, .traces]))
        ∧ (h.slots 0 < d → ∃ t, exec (.cmdTake p) s = .next t ∧ (t.dev.port p.val).ifState = 4 ∧ Recorded t (portDie p.val) 4 clsIF
            ∧ t.dev.mem = s.dev.mem)
        ∧ (d = 0 → exec (.cmdTake p) s = .next s))
    ∧ (∀ n e t0, h.lanes.find? (fun e => e.2.any (fun t => t.seq == n)) = some e → e.2.find? (fun t => t.seq == n) = some t0 →
        byFirmware t0.bytes = true → ringed s p.val →
        (t0.time + 2000000000 ≤ s.env.nowOf (portDie p.val) → ∃ t, exec (.fwCommandTimeout p n) s = .next t
          ∧ Written s t p.val (runningOf s.env p.val ⟨t0.seq, t0.bytes⟩) stTimeout 0 [] ∧ t.dev.lane p.val e.1 = e.2.erase t0
          ∧ RegsExcept s t (cmdRegs p.val) ∧ ChangesOnly s t [.regs, .mem, .recent, .ports, .traces])
        ∧ (s.env.nowOf (portDie p.val) < t0.time + 2000000000 → exec (.fwCommandTimeout p n) s = .next s))
    ∧ (dispatching s.dev p.val = true → h.bases ≠ [] → ∀ log : Bool,
        let x := hostN s.dev p.val (if log then 192 else 128) 4
        let ahead := ((if log then h.logProd else h.cplProd) + 0x100000000 - x) % 0x100000000
        (ahead ≤ h.slots (if log then 2 else 1) → ∃ t, exec (.ringConsume p log) s = .next t
          ∧ (if log then (t.dev.port p.val).logCons else (t.dev.port p.val).cplCons) = x ∧ ChangesOnly s t [.ports])
        ∧ (h.slots (if log then 2 else 1) < ahead → ∃ t, exec (.ringConsume p log) s = .next t ∧ Recorded t (portDie p.val) 4 clsIF
          ∧ t.dev.ports = s.dev.ports ∧ t.dev.mem = s.dev.mem))
    ∧ (∀ r rs, SMap.get [] s.dev.fw.queued p.val = r :: rs →
        (s.dev.ostlerUp m 0 = true → s.dev.fw.compDown.contains (m * 2 + 1) = false → h.bases ≠ [] →
          let used := (h.logProd + 0x100000000 - h.logCons) % 0x100000000
          (used < h.slots 2 → ∃ t, exec (.logDelivery p) s = .next t ∧ SMap.get [] t.dev.fw.queued p.val = rs
            ∧ t.dev.ldBytes (sramMem p.val (h.base 2 + h.logProd % h.slots 2 * 64)) r.bytes.length = r.bytes
            ∧ (t.dev.port p.val).logProd = (h.logProd + 1) % 0x100000000 ∧ bit (reg t (hpAlert p.val)) 1 = true
            ∧ RegsExcept s t [hpAlert p.val] ∧ ChangesOnly s t [.regs, .mem, .recent, .fw, .ports])
          ∧ (h.slots 2 ≤ used → ∃ t, exec (.logDelivery p) s = .next t ∧ SMap.get [] t.dev.fw.queued p.val = rs
            ∧ (t.dev.port p.val).logLost = min (h.logLost + 1) 0xFFFFFFFF ∧ ChangesOnly s t [.fw, .ports]))
        ∧ (s.dev.ostlerUp m 0 = false → exec (.logDelivery p) s = .next s))

/-- Where its checks pass: a BIST reports as many failures as it found of its kinds in its scope, a march 0 exactly where it found none, a destructive device-wide march that finds nothing leaves every core memory, program store, accumulator, vat and separator state at 0, one cut short by a crash of its ostler completes with FAULTED, and both wait while ostler 3's work stands still. LOG_READ writes the records and the next number. FW_STAGE writes its chunk to the inactive slot, which is STAGING until the last chunk makes it VALID or FAILED; a restart meanwhile ends it with FAULTED. FW_ACTIVATE puts the slot on TRIAL; confirmed in time, with no die left to restart, it is ACTIVE and the anti-rollback counter takes its number; after 1 s the slot is FAILED, the old image is back and the dies in service restart from it in turn. A deferred activation starts after 100 ms without emergency, or is cancelled. ATTEST writes its report. -/
def Obligations.FirmwareCommandsAndUpdates : Prop :=
  ∀ (p : Fin 4) (c : Cmd) (s : State),
    let bs := c.bytes
    let g := coachOf bs
    let m := s.env.master
    let k := inactive s.dev
    (∀ (march : Bool) (found : List Found),
        let op := if march then 0x13 else 0x14
        let st := if march then 4 else 10
        let row (cut : Option Nat) : Instr := if march then .marchRun p c found cut else .bistRun p c found cut
        (ready s p.val c op → s.dev.ostlerUp m 3 = true → leAt bs 8 1 < 2 → (march = true → leAt bs 9 1 < 2) →
          (leAt bs 8 1 = 1 → ∀ h, h < 4 → s.dev.isOpen h = false) →
          (∃ t r, exec (row none) s = .next t ∧ r.length = 16 ∧ Completes s t p.val c stOk 0 r
            ∧ (let l := fieldFound s.env s.dev st (leAt bs 8 1) g found
              (march = false → leAt r 4 4 = l.length % 0x100000000) ∧ (march = true → (leAt r 4 4 = 0 ↔ l = [])))
            ∧ (found = [] → march = true → leAt bs 9 1 = 1 → leAt bs 8 1 = 1 →
                (∀ q a, q < s.env.dies * 2112 → a < 0x40000 → readByte t (coreMem q a) = 0)
                ∧ (∀ q a, q < s.env.dies * 2112 → a < 0x4000 → readByte t (progMem q a) = 0)
                ∧ (∀ q, q < s.env.dies * 2112 → (t.dev.core q).acc = [] ∧ (t.dev.core q).inbuf = [])
                ∧ (∀ x e, x < s.env.dies → e < 16 → (t.dev.sep x e).st = [])
                ∧ (∀ d a, d < s.env.dies → a < 0x10000000 → readByte t (vatMem d a) = 0))
            ∧ (found = [] → march = false ∨ leAt bs 9 1 = 0 → RegsExcept s t (cmdRegs p.val)
                ∧ ∀ a, a < cplAt s p.val ∨ cplAt s p.val + 32 ≤ a → readByte t a = readByte s a))
          ∧ (∀ n, ∃ t, exec (row (some n)) s = .next t ∧ Completes s t p.val c stFaulted 0 []))
        ∧ (s.dev.ostlerUp m 3 = false → exec (row none) s = .next s))
    ∧ (ready s p.val c 0x15 →
        let n := leAt bs 12 4
        let b := bufAt bs 16
        let l := (s.dev.fw.log.filter (fun r => decide (leAt bs 8 4 ≤ r.seq) && logConcerns s.dev p.val r)).take n
        let out := (l.map LogRec.bytes).flatten
        bufOk s.dev p.val b true = true → n ≠ 0 → 64 * n ≤ b.len → (∀ r ∈ s.dev.fw.log, r.body.length = 48) →
        ∃ t, exec (.logRead p c) s = .next t ∧ t.dev.ldBytes (sramMem p.val b.off) out.length = out
          ∧ Completes s t p.val c stOk 0 (leBytes 4 l.length ++ leBytes 4 (match l.getLast? with
              | some r => (r.seq + 1) % 0x100000000 | none => s.dev.fw.nextSeq))
          ∧ RegsExcept s t (cmdRegs p.val) ∧ ChangesOnly s t [.regs, .mem, .recent, .ports, .traces])
    ∧ (ready s p.val c 0x16 →
        let off := fldN (leAt bs 8 4) 0 24
        let b := bufAt bs 12
        let last := leAt bs 20 1
        fldN (leAt bs 8 4) 24 8 = 0 → off % 64 = 0 → bufOk s.dev p.val b false = true → off + b.len ≤ 0x1000000 → b.len ≠ 0 →
        s.dev.fw.act = none → deferred s.env s.dev = false → crockWritable s.env s.dev = true →
        (last ≠ 1 → ∃ t, exec (.fwStage p c false) s = .next t ∧ Completes s t p.val c stOk 0 [] ∧ slotState t.dev k = 1
          ∧ t.dev.ldBytes (crockRaw (slotOffset k + off)) b.len = s.dev.ldBytes (sramMem p.val b.off) b.len)
        ∧ (last = 1 → ∃ t, exec (.fwStage p c false) s = .next t
          ∧ (let ok := imageAccepted s.env t.dev (slotImage t.dev k)
            Completes s t p.val c (if ok then stOk else stSecurity) (if ok then 0 else 8) [] ∧ slotState t.dev k = (if ok then 2 else 5)))
        ∧ (fwRuns s.env s.dev m = true → ∃ t, exec (.fwStage p c true) s = .next t ∧ Completes s t p.val c stFaulted 0 []
          ∧ cmState t.dev m = 1))
    ∧ (ready s p.val c 0x17 → s.dev.fw.act = none →
        (leAt bs 8 1 ≠ 1 → deferred s.env s.dev = false → crockWritable s.env s.dev = true → slotState s.dev k = 2 →
          (emergency s.env s.dev = false → ∃ t, exec (.fwActivate p c) s = .next t ∧ GoesOn s t p.val c 0 ∧ slotState t.dev k = 4
            ∧ (t.dev.fw.act.map (fun a => (a.slot, a.port))) = some (k, some p.val))
          ∧ (emergency s.env s.dev = true → ∃ t, exec (.fwActivate p c) s = .next t ∧ Completes s t p.val c stDeferred 0 []
            ∧ deferred s.env t.dev = true ∧ slotState t.dev k = 2))
        ∧ (leAt bs 8 1 = 1 → deferred s.env s.dev = true → ∃ t, exec (.fwActivate p c) s = .next t ∧ Completes s t p.val c stOk 0 []
          ∧ deferred s.env t.dev = false))
    ∧ (∀ a t0, s.dev.fw.act = some a → a.last = some t0 →
        let img := s.dev.fw.image.getD a.old
        let dies := s.env.dieList.filter (fun d => dieUp s.env s.dev d && !s.dev.dieDown.contains d)
        (a.due = [] → a.back = false → allStarted s.env s.dev = true → s.env.now ≤ t0 + 1000000000 →
          crockWritable s.env s.dev = true → ∃ t, exec .activationConfirm s = .next t
          ∧ slotState t.dev a.slot = 3 ∧ t.dev.crock.active = a.slot ∧ t.dev.crock.arc = max s.dev.crock.arc img.svn
          ∧ t.dev.fw.act = none
          ∧ (∀ q r, a.port = some q → s.dev.runningOp q 0x17 4 = some r → ringed s q → Ends s t q r stOk []))
        ∧ (a.due ≠ [] ∨ a.back = true ∨ crockWritable s.env s.dev = false → exec .activationConfirm s = .next s)
        ∧ (a.due = [] → a.back = false → t0 + 1000000000 < s.env.now → ∃ t, exec .activationTimeout s = .next t
          ∧ slotState t.dev a.slot = (if crockWritable s.env s.dev then 5 else slotState s.dev a.slot)
          ∧ t.dev.fw.image = some a.old ∧ bit (reg t (BU_STATUS m)) 12 = true ∧ t.dev.crock.arc = s.dev.crock.arc
          ∧ (dies = [] → t.dev.fw.act = none
            ∧ (∀ q r, a.port = some q → s.dev.runningOp q 0x17 4 = some r → ringed s q → Ends s t q r stFaulted []))
          ∧ (∀ y rest, dies = y :: rest → t.dev.fw.act = some { a with due := dies, back := true } ∧ cmState t.dev y = 1))
        ∧ (a.due ≠ [] ∨ a.back = true ∨ s.env.now ≤ t0 + 1000000000 → exec .activationTimeout s = .next s))
    ∧ (deferred s.env s.dev = true → emergency s.env s.dev = false → s.dev.fw.quiet + 100000000 ≤ s.env.now → s.dev.fwUp s.env = true →
        slotState s.dev k = 2 → ∃ t, exec .deferredActivationStart s = .next t ∧ deferred s.env t.dev = false ∧ slotState t.dev k = 4
          ∧ (t.dev.fw.act.map (fun a => (a.slot, a.port))) = some (k, none))
    ∧ (deferred s.env s.dev = false ∨ emergency s.env s.dev = true → exec .deferredActivationStart s = .next s)
    ∧ (ready s p.val c 0x1A → leAt bs 8 1 = 4 →
        let b := bufAt bs 16
        let n := s.dev.crock.certLen
        let cert : Bool := decide (n ≠ 0) && decide (384 + n ≤ b.len)
        bufOk s.dev p.val b true = true → 384 ≤ b.len → bit (reg s (SEC_STATUS m)) 0 = true →
        ∃ t, exec (.attest p c) s = .next t ∧ Completes s t p.val c stOk 0 []
          ∧ t.dev.ldBytes (sramMem p.val b.off) 224 = reportHead s.env (begun s p.val c) (s.dev.ldBytes (sramMem p.val b.off) 32)
              (384 + (if cert then n else 0)) cert)
    ∧ (leAt bs 8 1 ≠ 4 → exec (.attest p c) s = .next s)

/-- A crash of a running ostler leaves an FW record and resets it, or isolates it at the fourth within 10 minutes; its restart brings it back and counts. A component that traps is down until its restart is done. A restart of a die's firmware resets its coachman and the ostlers that are not isolated; done, they run and the restart counts, and a trial goes on with the next die or ends; a coachman that fails a third time has its die reset, or on the master die stays FAILED. Rows that a processor's work makes wait for MCK. A watchdog expires a period after its processor was started, halts not counted, and never while it is halted. A PSRAM error counts, marks the image copy it lies in, and crashes the firmware that read it. The oldest trace record is logged, or counted as lost beyond 64 in a millisecond. Only the secure monitor writes FW_WDT_CFG, whose zero periods keep the old ones; the debug token comes from the debug port alone. The crock's removal, tag failures and life thresholds show in its registers. The split of a tag failure by command (SNAPSHOT drops the slot's stream) is as R423 and R424 say; that a start of firmware serves its watchdogs is the model's reading (log entry 191). -/
def Obligations.FirmwareRestarts : Prop :=
  ∀ (d : Fin 8) (s : State), s.env.has d.val = true → s.dev.dieDown.contains d.val = false →
    let m := s.env.master
    let up : Prop := fwRuns s.env s.dev d.val = true
    (∀ k : Fin 4,
        (up → ostlerState s.dev d.val k.val = 0 → ∃ t, exec (.ostlerCrash d k) s = .next t ∧ Recorded t d.val 4 clsFW
          ∧ ostlerState t.dev d.val k.val = (if 3 ≤ (recentRestarts s.env s.dev d.val (d.val * 5 + k.val + 1)).length then 3 else 1)
          ∧ t.dev.mem = s.dev.mem)
        ∧ (up → ostlerState s.dev d.val k.val = 1 → Clocked s d.val 3 → ∃ t, exec (.ostlerRestartDone d k) s = .next t
          ∧ ostlerState t.dev d.val k.val = 0
          ∧ fld (reg t (FW_RESTARTS d.val)) 16 16 = min 0xFFFF (fld (reg s (FW_RESTARTS d.val)) 16 16 + 1)
          ∧ RegsExcept s t [FW_STATUS d.val, FW_RESTARTS d.val] ∧ ChangesOnly s t [.regs, .fw, .tick])
        ∧ (¬ up ∨ ostlerState s.dev d.val k.val ≠ 0 → exec (.ostlerCrash d k) s = .next s)
        ∧ (ostlerState s.dev d.val k.val ≠ 1 ∨ ¬ Clocked s d.val 3 → exec (.ostlerRestartDone d k) s = .next s))
    ∧ (∀ log : Bool,
        let key := d.val * 2 + b2n log
        (up → s.dev.fw.compDown.contains key = false → ∃ t, exec (.componentTrap d log) s = .next t ∧ Recorded t d.val 4 clsFW
          ∧ t.dev.fw.compDown = s.dev.fw.compDown ++ [key] ∧ t.dev.mem = s.dev.mem)
        ∧ (s.dev.fw.compDown.contains key = true → Clocked s d.val 3 → ∃ t, exec (.componentRestartDone d log) s = .next t
          ∧ t.dev.fw.compDown = s.dev.fw.compDown.filter (fun x => x != key) ∧ ChangesOnly s t [.fw])
        ∧ (¬ up ∨ s.dev.fw.compDown.contains key = true → exec (.componentTrap d log) s = .next s))
    ∧ (up → s.dev.fw.act = none → ∃ t, exec (.fwRestart d) s = .next t ∧ cmState t.dev d.val = 1
        ∧ (∀ k, k < 4 → ostlerState t.dev d.val k = (if ostlerState s.dev d.val k = 3 then 3 else 1))
        ∧ RegsExcept s t [FW_STATUS d.val] ∧ ChangesOnly s t [.regs, .fw])
    ∧ (¬ up → exec (.fwRestart d) s = .next s)
    ∧ (cmState s.dev d.val = 1 → s.dev.fw.resetDue = [] → Clocked s d.val 3 →
        (s.dev.fw.act = none → ∃ t, exec (.fwRestartDone d true) s = .next t ∧ cmState t.dev d.val = 0 ∧ t.dev.fw.act = none
          ∧ (∀ k, k < 4 → ostlerState t.dev d.val k = (if ostlerState s.dev d.val k = 1 then 0 else ostlerState s.dev d.val k))
          ∧ fld (reg t (FW_RESTARTS d.val)) 0 8 = min 255 (fld (reg s (FW_RESTARTS d.val)) 0 8 + 1)
          ∧ fld (reg t (FW_RESTARTS d.val)) 8 2 = min 3 ((recentRestarts s.env s.dev d.val (d.val * 5)).length + 1)
          ∧ Recorded t d.val 4 clsFW)
        ∧ (∀ a rest, s.dev.fw.act = some a → a.due = d.val :: rest → ∃ t, exec (.fwRestartDone d true) s = .next t
          ∧ (∀ y ys, rest = y :: ys → t.dev.fw.act = some { a with due := rest, last := some s.env.now } ∧ cmState t.dev y = 1)
          ∧ (rest = [] → a.back = false → t.dev.fw.act = some { a with due := [], last := some s.env.now } ∧ cmState t.dev d.val = 0)
          ∧ (rest = [] → a.back = true → t.dev.fw.act = none ∧ cmState t.dev d.val = 0
            ∧ (∀ q r, a.port = some q → s.dev.runningOp q 0x17 4 = some r → ringed s q → Ends s t q r stFaulted [])))
        ∧ (s.dev.fw.act = none →
          let n := (recentRestarts s.env s.dev d.val (64 + d.val)).length
          (n < 2 → ∃ t, exec (.fwRestartDone d false) s = .next t ∧ cmState t.dev d.val = 1 ∧ ChangesOnly s t [.fw])
          ∧ (2 ≤ n → d.val = m → ∃ t, exec (.fwRestartDone d false) s = .next t ∧ cmState t.dev d.val = 3
            ∧ RegsExcept s t [FW_STATUS d.val] ∧ ChangesOnly s t [.regs, .fw])
          ∧ (2 ≤ n → d.val ≠ m → ∃ t, exec (.fwRestartDone d false) s = .next t
            ∧ (s.dev.fwUp s.env = true → t.dev.dieDown = s.dev.dieDown ++ [d.val])
            ∧ (s.dev.fwUp s.env = false → t.dev.fw.resetDue = [d.val] ∧ ChangesOnly s t [.fw]))))
    ∧ (cmState s.dev d.val ≠ 1 ∨ ¬ Clocked s d.val 3 → ∀ ok, exec (.fwRestartDone d ok) s = .next s)
    ∧ (∀ proc : Fin 5,
        let due := SMap.get 0 s.dev.fw.served (d.val * 5 + proc.val) + SMap.get 0 s.dev.tick.paused (d.val * 8 + 1 + proc.val)
          + 1000000 * (if proc.val = 0 then fld (reg s (FW_WDT_CFG d.val)) 16 8 else fld (reg s (FW_WDT_CFG d.val)) 0 8)
        (s.dev.tick.halted.contains (d.val * 8 + 1 + proc.val) = true ∨ s.env.nowOf d.val < due →
            exec (.watchdogExpiry d proc) s = .next s)
        ∧ (s.dev.tick.halted.contains (d.val * 8 + 1 + proc.val) = false → due ≤ s.env.nowOf d.val → up → s.dev.fw.act = none →
            (proc.val = 0 → ∃ t, exec (.watchdogExpiry d proc) s = .next t ∧ cmState t.dev d.val = 1 ∧ ChangesOnly s t [.regs, .fw])
            ∧ (proc.val ≠ 0 → ostlerState s.dev d.val (proc.val - 1) = 0 → ∃ t, exec (.watchdogExpiry d proc) s = .next t
              ∧ ostlerState t.dev d.val (proc.val - 1) ≠ 0 ∧ Recorded t d.val 4 clsFW)))
    ∧ (∀ (comp : Fin 8) (off : Nat), off < 0x2000000 → ∃ t, exec (.psramCrcError d comp off) s = .next t
        ∧ reg t (XR_CRC_ERR d.val) = satAdd32 (reg s (XR_CRC_ERR d.val)) 1 ∧ Recorded t d.val 4 clsFW
        ∧ (off < 0x1000000 → d.val ∈ t.dev.fw.badCopy) ∧ (comp.val = 7 → t.dev.mem = s.dev.mem)
        ∧ (up → comp.val = 0 → s.dev.fw.act = none → cmState t.dev d.val = 1)
        ∧ (up → comp.val = 1 ∨ comp.val = 2 → t.dev.fw.compDown.contains (d.val * 2 + (comp.val - 1)) = true)
        ∧ (∀ k, up → k < 4 → comp.val = 3 + k → ostlerState s.dev d.val k = 0 → ostlerState t.dev d.val k ≠ 0))
    ∧ (∀ r rest, SMap.get [] s.dev.traces d.val = r :: rest → s.dev.ostlerUp d.val 0 = true → Clocked s d.val 3 →
        let old := SMap.get (0, 0) s.dev.fw.fwd (d.val * 4 + r.coach)
        let n := if old.1 = s.env.nowOf d.val / 1000000 then old.2 else 0
        (n < 64 → ∃ t, exec (.traceForward d) s = .next t ∧ SMap.get [] t.dev.traces d.val = rest
          ∧ (t.dev.fw.log.getLast?.map (fun x => (x.seq, x.kind, x.coach))) = some (s.dev.fw.nextSeq, r.kind, r.coach)
          ∧ ChangesOnly s t [.traces, .fw])
        ∧ (64 ≤ n → r.coach < 4 → ∃ t, exec (.traceForward d) s = .next t ∧ SMap.get [] t.dev.traces d.val = rest
          ∧ fld (reg t (FW_TRACE d.val r.coach)) 24 8 = min 255 (fld (reg s (FW_TRACE d.val r.coach)) 24 8 + 1)
          ∧ RegsExcept s t [FW_TRACE d.val r.coach] ∧ ChangesOnly s t [.traces, .regs]))
    ∧ (∀ x : Word,
        (∀ e : Fin 8, ∃ t, exec (.fwWdtCfgWrite (.monitor e) d x) s = .next t
          ∧ fld (reg t (FW_WDT_CFG d.val)) 0 8 = (if fld x 0 8 = 0 then fld (reg s (FW_WDT_CFG d.val)) 0 8 else fld x 0 8)
          ∧ fld (reg t (FW_WDT_CFG d.val)) 16 8 = (if fld x 16 8 = 0 then fld (reg s (FW_WDT_CFG d.val)) 16 8 else fld x 16 8)
          ∧ (fld x 0 8 = 0 ∨ fld x 16 8 = 0 → bit (reg t (FW_WDT_CFG d.val)) 24 = true)
          ∧ OnlyRegs s t [FW_WDT_CFG d.val])
        ∧ (∀ who : Party, (∀ e, who ≠ .monitor e) → debugOff s.dev who = false → ∃ t, exec (.fwWdtCfgWrite who d x) s = .next t
          ∧ reg t (FW_WDT_CFG d.val) = reg s (FW_WDT_CFG d.val) ∧ Recorded t d.val 4 clsSE)
        ∧ (s.dev.pins.ir = 0x20 → ∃ t, exec (.secDbgToken .debug d x) s = .next t
          ∧ (let level := Config.debugToken (tokenBytes s.dev d.val x) s.dev.crock.enrol (reg s (SEC_NONCE d.val)).toNat % 3
            (level = 0 → bit (reg t (SEC_STATUS d.val)) 4 = true ∧ Recorded t d.val 4 clsSE
              ∧ reg t (SEC_DEBUG d.val) = reg s (SEC_DEBUG d.val))
            ∧ (level ≠ 0 → ∀ e, e < s.env.dies → fld (reg t (SEC_DEBUG e)) 0 2 = max level (fld (reg s (SEC_DEBUG e)) 0 2))))
        ∧ (∀ who : Party, who ≠ .debug → ∃ t, exec (.secDbgToken who d x) s = .next t ∧ Recorded t d.val 4 clsSE
          ∧ RegsExcept s t (FC_CNT d.val 4 clsSE :: deniedRegs who)))
    ∧ (∀ high : Bool, ∃ t, exec (.crockDetChange high) s = .next t ∧ t.dev.pins = { s.dev.pins with crockDet := !high }
        ∧ (high = true → s.dev.pins.crockDet = true → crockSeen s.env s.dev = true → s.dev.bu.perst = true →
            bit (reg t (CR_STATUS m)) 8 = true)
        ∧ (high = false → ChangesOnly s t [.pins]))
    ∧ (crockUsable s.env s.dev = true →
        (∃ t, exec (.crockAuthFail none) s = .next t ∧ reg t (CR_AUTH_FAIL m) = satAdd32 (reg s (CR_AUTH_FAIL m)) 1 ∧ Recorded t m 4 clsFW
          ∧ t.dev.mem = s.dev.mem)
        ∧ (∀ (q : Fin 4) (c : Cmd), let slot := leAt c.bytes 9 1
          (ready s q.val c 0x10 → leAt c.bytes 8 1 = 1 → slot < 8 → bit (reg s (CR_CKPT m)) slot = true →
            ∃ t, exec (.crockAuthFail (some (q, c))) s = .next t
              ∧ reg t (CR_AUTH_FAIL m) = satAdd32 (reg s (CR_AUTH_FAIL m)) 1 ∧ Completes s t q.val c stFaulted 0 [])
          ∧ (ready s q.val c 0x0F → leAt c.bytes 8 1 = 1 → slot < 8 → applying s.dev (coachOf c.bytes) = false →
              crockWritable s.env s.dev = true → ∃ t, exec (.crockAuthFail (some (q, c))) s = .next t
              ∧ reg t (CR_AUTH_FAIL m) = satAdd32 (reg s (CR_AUTH_FAIL m)) 1 ∧ bit (reg t (CR_CKPT m)) slot = false
              ∧ SMap.get [] t.dev.crock.ckpt slot = [] ∧ Completes s t q.val c stFaulted 0 []))
        ∧ (∀ (reached : Fin 101) (spares : Fin 769) (erase : Word),
          let top := max erase.toNat (reg s (CR_MAX_ERASE m)).toNat
          let life := lifeOf spares.val top
          (fld (reg s (CR_LIFE m)) 0 8 ≤ life → fld (reg s (CR_LIFE m)) 8 10 ≤ spares.val → reached.val ≤ life →
            ∃ t, exec (.crockLifeThreshold reached spares erase) s = .next t ∧ fld (reg t (CR_LIFE m)) 0 8 = life
              ∧ fld (reg t (CR_LIFE m)) 8 10 = spares.val ∧ (reg t (CR_MAX_ERASE m)).toNat = top
              ∧ bit (reg t (CR_STATUS m)) 6 = (bit (reg s (CR_STATUS m)) 6 || decide (80 ≤ life))
              ∧ bit (reg t (CR_STATUS m)) 7 = (bit (reg s (CR_STATUS m)) 7 || decide (95 ≤ life))
              ∧ bit (reg t (CR_STATUS m)) 3 = (bit (reg s (CR_STATUS m)) 3 || decide (life = 100)))
          ∧ (life < reached.val → exec (.crockLifeThreshold reached spares erase) s = .next s)))
    ∧ (crockUsable s.env s.dev = false → exec (.crockAuthFail none) s = .next s)

/-- SET_OPP within the entry's limits stores ceiling and limit, makes its POWER record, and completes at once where the entry is in force, or goes on. A due step moves every die one entry, counts, and asks once for the entry's voltage. A measurement above the limit or at HOT begins an emergency of its kind and stores what was measured; every 100 µs the entry rises towards the floor, its frequencies the clocks' targets; 100 ms of calm end it; every 100 ms a step goes back. A quiet die is IDLE. In a domain that is held in reset or has no clock nothing is done (which rows are whose domain's work is log entry 159's reading of R432 and R436). ENTER_HOLD with stopped coaches completes, keeps the selection and begins the entry. A clock switch is pending until both clocks run, and hangs after 2 µs; FORCE under DOMRST passes the clock, and without it sets FORCE_ERR. Thresholds out of range keep the old value with CFG_ERR. AVS_FAULT makes a US record for every open coach. -/
def Obligations.PowerAndClocksFollowTheirRules : Prop :=
  ∀ (s : State),
    let m := s.env.master
    let now := s.env.now
    let e := oppNow s.env s.dev
    let ceil := ceiling s.env s.dev
    let em := emergency s.env s.dev
    (∀ (p : Fin 4) (c : Cmd), ready s p.val c 0x18 →
        let o := leAt c.bytes 8 1
        let w := leAt c.bytes 10 2
        o < 8 → w ≠ 0 → (∀ d, d < s.env.dies → overChurns s.dev o d = false ∧ overCores s.dev o d = false) →
        limitOk s.env.hw.part o w = true →
        ∃ t, exec (.setOpp p c) s = .next t ∧ ceiling s.env t.dev = o ∧ (reg t (PM_LIMIT m)).toNat = w
          ∧ (∀ d, d < s.env.dies → fld (reg t (PM_STATUS d)) 12 3 = o) ∧ oppNow s.env t.dev = e
          ∧ (t.dev.fw.log.getLast?.map (fun r => (r.kind, r.body.head?))) = some (10, some 6)
          ∧ (e ≤ o → t.dev.pw.recovering = false)
          ∧ (e = o → Completes s t p.val c stOk 0 [])
          ∧ (e ≠ o → em = false → GoesOn s t p.val c 0 ∧ (s.dev.pw.recovering = false ∨ e < o → t.dev.pw.step ≠ none)))
    ∧ (∀ t0 lower, s.dev.pw.step = some (t0, lower) →
        (t0 ≤ now → (lower = true → e ≠ 0) → (lower = false → e ≠ 7) → ∃ t, exec .oppStep s = .next t
          ∧ (∀ d, d < s.env.dies → fld (reg t (PM_STATUS d)) 8 3 = (if lower then e - 1 else e + 1)
              ∧ reg t (PM_OPP_CHANGES d) = satAdd32 (reg s (PM_OPP_CHANGES d)) 1
              ∧ (∀ p, p < 3 → bit (reg s (CK_STATUS d)) (8 + p) = true →
                  fld (reg t (CK_FREQ d p)) 0 16 = domainMHz (if lower then e - 1 else e + 1) p))
          ∧ t.dev.pw.vcore = some (oppCol (if lower then e - 1 else e + 1) 0 + guardMv s.env s.dev)
          ∧ (∀ a, a < sramMem s.env.bringUpPort 0 ∨ sramMem s.env.bringUpPort 0x2000000 ≤ a → readByte t a = readByte s a
              ∨ ¬ ringed s s.env.bringUpPort))
        ∧ (now < t0 → exec .oppStep s = .next s))
    ∧ (s.dev.pw.step = none → exec .oppStep s = .next s)
    ∧ (∀ x : Measure,
        (overPower s.env s.dev x = true ∨ overHeat s.env s.dev x = true → em = false → ∃ t, exec (.emergencyBegin x) s = .next t
          ∧ bit (reg t (PM_STATUS m)) 3 = overPower s.env s.dev x ∧ bit (reg t (PM_STATUS m)) 4 = overHeat s.env s.dev x
          ∧ (∀ d, d < s.env.dies → reg t (PM_EMERG_CNT d) = satAdd32 (reg s (PM_EMERG_CNT d)) 1
              ∧ (overPower s.env s.dev x = true → bit (reg t (PM_STATUS d)) 3 = true)
              ∧ (overHeat s.env s.dev x = true → bit (reg t (PM_STATUS d)) 4 = true)) ∧ t.dev.pins.smbAlert = true
          ∧ fld (reg t (PM_POWER m)) 16 16 = x.package.toNat ∧ oppNow s.env t.dev = e)
        ∧ (overPower s.env s.dev x = false → overHeat s.env s.dev x = false → ∃ t, exec (.emergencyBegin x) s = .next t
          ∧ fld (reg t (PM_POWER m)) 16 16 = x.package.toNat ∧ emergency s.env t.dev = em ∧ ChangesOnly s t [.regs, .pw])
        ∧ (em = true → calm s.env s.dev x = true → s.dev.pw.overAt + 100000000 ≤ now → ∃ t, exec (.emergencyEnd x) s = .next t
          ∧ emergency s.env t.dev = false
          ∧ (∀ d, d < s.env.dies → bit (reg t (PM_STATUS d)) 3 = false ∧ bit (reg t (PM_STATUS d)) 4 = false) ∧ t.dev.fw.quiet = now ∧ t.dev.pw.recovering = decide (ceil < e) ∧ oppNow s.env t.dev = e)
        ∧ (em = true → calm s.env s.dev x = false → ∃ t, exec (.emergencyEnd x) s = .next t ∧ emergency s.env t.dev = true
          ∧ t.dev.pw.overAt = now ∧ ChangesOnly s t [.regs, .pw]))
    ∧ (em = true → s.dev.pw.step = none → s.dev.pw.lastStep + 100000 ≤ now → e < fld (reg s (PM_EMERG_FLOOR m)) 0 3 →
        ∃ t, exec .emergencyStep s = .next t ∧ t.dev.pw.step = some (now, false) ∧ t.dev.pw.lastStep = now
          ∧ (∀ d p, d < s.env.dies → p < 3 → bit (reg s (CK_STATUS d)) (8 + p) = true →
              fld (reg t (CK_FREQ d p)) 16 16 = domainMHz (min 7 (e + 1)) p ∧ fld (reg t (CK_FREQ d p)) 0 16 = fld (reg s (CK_FREQ d p)) 0 16)
          ∧ ChangesOnly s t [.regs, .pw])
    ∧ (em = false ∨ now < s.dev.pw.lastStep + 100000 ∨ fld (reg s (PM_EMERG_FLOOR m)) 0 3 ≤ e → exec .emergencyStep s = .next s)
    ∧ (s.dev.pw.recovering = true → em = false → s.dev.pw.step = none → s.dev.pw.lastStep + 100000000 ≤ now → ceil < e →
        ∃ t, exec .recoveryStep s = .next t ∧ t.dev.pw.step = some (now, true) ∧ t.dev.pw.lastStep = now
          ∧ (∀ d p, d < s.env.dies → p < 3 → bit (reg s (CK_STATUS d)) (8 + p) = true →
              fld (reg t (CK_FREQ d p)) 16 16 = domainMHz (e - 1) p ∧ fld (reg t (CK_FREQ d p)) 0 16 = fld (reg s (CK_FREQ d p)) 0 16)
          ∧ ChangesOnly s t [.regs, .pw])
    ∧ (s.dev.pw.recovering = false ∨ em = true ∨ e ≤ ceil → exec .recoveryStep s = .next s)
    ∧ (∀ (p : Fin 4) (c : Cmd), ready s p.val c 0x19 → (∀ g, g < 4 → coachState s.dev g = .stopped ∨ coachState s.dev g = .none) →
        bufOk s.dev p.val (bufAt c.bytes 8) false = true → (bufAt c.bytes 8).len ≠ 0 → holdError s.env s.dev p.val (bufAt c.bytes 8) = none →
        ∃ t, exec (.enterHold p c) s = .next t ∧ Completes s t p.val c stOk 0 [] ∧ t.dev.pw.phase = .entering
          ∧ t.dev.pw.banks = s.env.dieList.flatMap (holdBanks s.dev p.val (bufAt c.bytes 8))
          ∧ (s.dev.pw.phase = .run → t.dev.pw.since = now
              ∧ (t.dev.fw.log.getLast?.map (fun r => (r.kind, r.body.head?))) = some (10, some 4))
          ∧ (s.dev.pw.phase ≠ .run → t.dev.pw.wakeDue = s.dev.pw.wakeDue) ∧ t.dev.cores = s.dev.cores)
    ∧ (∃ t, exec .avsFault s = .next t ∧ (∀ g, g < 4 → s.dev.isOpen g = true → Recorded t m g clsUS)
        ∧ ((∀ g, g < 4 → s.dev.isOpen g = false) → Recorded t m 4 clsUS) ∧ t.dev.mem = s.dev.mem)
    ∧ (∀ d : Fin 8, s.env.has d.val = true →
        (dieQuiet s.env s.dev d.val = true → ∃ t, exec (.dieIdleEntry d) s = .next t ∧ bit (reg t (PM_STATUS d.val)) 0 = true
          ∧ OnlyRegs s t [PM_STATUS d.val])
        ∧ (dieQuiet s.env s.dev d.val = false → exec (.dieIdleEntry d) s = .next s)
        ∧ (∀ p : Fin 6,
            (switching s.dev d.val p.val = true → sourceRuns s.dev d.val p.val (s.dev.fb (CK_STATUS d.val) (8 + p.val)) = true →
                sourceRuns s.dev d.val p.val (s.dev.fb (CK_SEL d.val) p.val) = true →
              ∃ t, exec (.ckSwitchDone d p) s = .next t ∧ switching t.dev d.val p.val = false
                ∧ bit (reg t (CK_STATUS d.val)) (8 + p.val) = bit (reg s (CK_SEL d.val)) p.val
                ∧ RegsExcept s t [CK_STATUS d.val, CK_FREQ d.val p.val] ∧ ChangesOnly s t [.regs, .pw])
            ∧ (switching s.dev d.val p.val = false → exec (.ckSwitchDone d p) s = .next s ∧ exec (.ckHang d p) s = .next s)
            ∧ (switching s.dev d.val p.val = true → SMap.get 0 s.dev.pw.switches (d.val * 8 + p.val) + 2000 ≤ s.env.nowOf m →
              ∃ t, exec (.ckHang d p) s = .next t ∧ bit (reg t (CK_HANG d.val)) p.val = true ∧ OnlyRegs s t [CK_HANG d.val]))
        ∧ (∀ (k : Fin 8) (x : Word), ∀ i ∈ [Instr.ckSelSwitch (.coachman k) d x, .ckSelForce (.coachman k) d x, .ckSelDomrst (.coachman k) d x],
            ∃ t, exec i s = .next t
              ∧ (∀ p, p < 6 → bit (reg t (CK_SEL d.val)) p = bit x p ∧ bit (reg t (CK_SEL d.val)) (16 + p) = bit x (16 + p))
              ∧ (∀ p, p < 6 → bit x p ≠ bit (reg s (CK_SEL d.val)) p → bit x (8 + p) = false → switching t.dev d.val p = true)
              ∧ (∀ p, p < 6 → bit x (8 + p) = true → bit (reg s (CK_SEL d.val)) (16 + p) = true → switching t.dev d.val p = false
                  ∧ bit (reg t (CK_STATUS d.val)) (8 + p) = bit x p)
              ∧ ((∃ p, p < 6 ∧ bit x (8 + p) = true ∧ bit (reg s (CK_SEL d.val)) (16 + p) = false) → bit (reg t (CK_HANG d.val)) 6 = true))
        ∧ (∀ (q : Fin 4) (x : Word), ∀ i ∈ [Instr.ckSelSwitch (.port q) d x, .ckSelForce (.port q) d x, .ckSelDomrst (.port q) d x],
            ∃ t, exec i s = .next t ∧ Recorded t d.val 4 clsSE ∧ RegsExcept s t (FC_CNT d.val 4 clsSE :: deniedRegs (.port q))
              ∧ ChangesOnly s t [.regs, .flt]))
    ∧ (∀ (d : Fin 8) (c : Fin 4) (n : Fin 64) (k : Fin 4) (log ok : Bool),
        (s.dev.still d.val 0 = true → ∀ i ∈ [Instr.passStart d c, .pailRecord d], exec i s = .next s)
        ∧ (s.dev.still d.val 3 = true → ∀ i ∈ [Instr.ostlerRestartDone d k, .componentRestartDone d log, .fwRestartDone d ok, .traceForward d],
            exec i s = .next s)
        ∧ (s.dev.still d.val 4 = true → exec (.cmpMatch d n) s = .next s))
    ∧ (∀ (q : Phys) (c : Fin 16), s.dev.still (pDie q.idx) 1 = true →
        ∀ i ∈ [Instr.coreResetDone q, .eventArrival q, .fireEnd q, .rowWriteBack q, .qmArrival q, .replyArrival q, .sendStart q c,
          .relayTrigger q c, .sendRetry q c, .replyTimeout q c], exec i s = .next s)
    ∧ (∀ src : Source, s.dev.still (sourceDie src) 2 = true → exec (.packetInject src) s = .next s)
    ∧ (∀ (k : Fin 8) (x : Word),
        (∃ t, exec (.pmThermWrite (.coachman k) false x) s = .next t
          ∧ (let ok : Bool := decide (85 ≤ fld x 0 8 ∧ fld x 0 8 ≤ 105 ∧ 1 ≤ fld x 8 8 ∧ fld x 8 8 ≤ 20)
            reg t (PM_THERM m) = (if ok then x &&& 0xFFFF else reg s (PM_THERM m))
            ∧ bit (reg t (PM_STATUS m)) 6 = (bit (reg s (PM_STATUS m)) 6 || !ok))
          ∧ OnlyRegs s t [PM_THERM m, PM_STATUS m])
        ∧ (∃ t, exec (.pmThermWrite (.coachman k) true x) s = .next t
          ∧ (reg t (PM_EMERG_FLOOR m)).toNat = (if fld x 0 3 < ceil then (reg s (PM_EMERG_FLOOR m)).toNat else fld x 0 3)
          ∧ bit (reg t (PM_STATUS m)) 6 = (bit (reg s (PM_STATUS m)) 6 || decide (fld x 0 3 < ceil))
          ∧ OnlyRegs s t [PM_EMERG_FLOOR m, PM_STATUS m]))

/-- PERST_N high starts the controller and takes the TAP out of EXTEST, CLAMP and HIGHZ. A step row by the bring-up port once it responds, or by firmware, runs its step where the handshake accepts its code: STEP and STATE show it and its work is done on the state so marked; out of order it sets SEQ_ERR and nothing else, and a host on another port leaves an SE record. A running step that finished ends with its result, its time, at most its maximum, and DONE; with parts missing it ends only at its maximum. OPEN_PORTS ends with READY and opens its ports, TEST_MEMORY with the memory open, COMMIT_DEFECTS with the entries found in the crock. START_FW that has waited its maximum for a start marks the slot failed, sets FALLBACK and starts the other slot's image, or is FATAL. With nothing found: POWER_DIES has every die in service, LOCK_PLLS runs every clock from its PLL at the entry's frequency, TEST_MEMORY in destructive mode leaves memory, accumulators and separator state 0. READ_CROCK shows the crock's life, identity and isolated parts, or is RETRY or crockless; VERIFY_FW chooses the active slot's image, else the other's, or the host's; START_FW copies the image to every die in service and runs it; LOAD_MICROCODE loads every core or isolates it; KNOWN_ANSWER and BIST count failures and cover at least R365's floors; COMMIT_DEFECTS places the core numbers on the good slots. -/
def Obligations.BringUpStepsRunInOrder : Prop :=
  ∀ (s : State),
    let m := s.env.master
    let alive : Prop := s.dev.bu.perst = true ∧ s.dev.pw.thermtrip = false ∧ s.dev.pw.phase ≠ .hold
    let rows (who : Party) (found : List Found) (auth fails : Bool) : List (Nat × Instr × (Env → Dev → Dev)) :=
      [(1, .powerDies who found, powerDies found), (2, .lockPlls who found, lockPlls found), (3, .trainCouplings who found, trainCouplings found),
       (4, .testMemory who found, testMemory found), (5, .readCrock who auth, readCrock auth), (6, .verifyFw who, verifyFw),
       (7, .startFw who found, startFw found), (8, .loadMicrocode who found, loadMicrocode found),
       (9, .knownAnswer who found, testBlocks false found), (10, .bist who found, testBlocks true found),
       (11, .commitDefects who fails, commitDefects fails), (12, .openPorts who, openPortsStep)]
    let host : Party := .port ⟨s.env.bringUpPort % 4, Nat.mod_lt _ (by decide)⟩
    let done (k : Nat) (w : Dev) : Dev := if k = 3 then trainSync s.env (s.env.dieList.filter (dieUp s.env w)) w else w
    (s.dev.bu.perst = false → s.dev.pw.thermtrip = false → ∃ t, exec .perstNDeassert s = .next t ∧ t.dev.bu.perst = true
        ∧ t.dev.bu.since = s.env.now ∧ ChangesOnly s t [.bu, .pins])
    ∧ (s.dev.bu.perst = true → ∃ t, exec .perstNDeassert s = .next t ∧ ChangesOnly s t [.pins]
        ∧ t.dev.pins.ir = (if s.dev.pins.ir ∈ [3, 4, 5] then 1 else s.dev.pins.ir))
    ∧ (∀ (who : Party) found auth fails, alive →
        (who = host ∧ (s.dev.port s.env.bringUpPort).lp.available = true) ∨ isFirmware who = true →
        ∀ x ∈ rows who found auth fails,
          let v := seqCount s.env who m s.dev
          (buAccepts s.env s.dev x.1 = true → ∃ t, exec x.2.1 s = .next t
            ∧ t.dev = done x.1 (x.2.2 s.env { buStart s.env x.1 v with bu := { (buStart s.env x.1 v).bu with begun := true } })
            ∧ (x.1 ≠ 3 → t.clk = s.clk))
          ∧ (buRunning s.env s.dev = true → buStep s.env s.dev = x.1 → s.dev.bu.begun = false → ∃ t, exec x.2.1 s = .next t
            ∧ t.dev = done x.1 (x.2.2 s.env { v with bu := { v.bu with begun := true } }))
          ∧ (buAccepts s.env s.dev x.1 = false → s.dev.bu.begun = true ∨ buRunning s.env s.dev = false → ∃ t, exec x.2.1 s = .next t
            ∧ bit (reg t (BU_STATUS m)) 9 = true ∧ OnlyRegs s t (BU_STATUS m :: seqRegs who)))
    ∧ (∀ (q : Fin 4) (x : Word), alive → q.val ≠ s.env.bringUpPort → (s.dev.port q.val).lp.available = true →
        ∃ t, exec (.buStepWriteRefused (.port q) x) s = .next t
        ∧ Recorded t m 4 clsSE ∧ t.dev.bu = s.dev.bu ∧ reg t (BU_STATUS m) = reg s (BU_STATUS m) ∧ ChangesOnly s t [.regs, .flt])
    ∧ (∀ (k : Fin 8) (x : Word), alive → buAccepts s.env s.dev (fld x 0 4) = false → ∃ t, exec (.buStepWriteRefused (.coachman k) x) s = .next t
        ∧ bit (reg t (BU_STATUS m)) 9 = true ∧ OnlyRegs s t [BU_STATUS m])
    ∧ (∀ who found, alive → isFirmware who = true → buAccepts s.env s.dev 3 = true → ∃ t, exec (.trainCouplings who found) s = .next t
        ∧ (∀ d, d < s.env.dies → dieUp s.env t.dev d = true → t.clk.now d = s.clk.now m))
    ∧ (alive → ∀ who, isFirmware who = true →
        (buAccepts s.env s.dev 1 = true → ∃ t, exec (.powerDies who []) s = .next t
          ∧ (∀ d, d < s.env.dies → dieState s.env t.dev d = 1 ∧ bit (reg t (XR_CTRL d)) 0 = true ∧ bit (reg t (PM_PAD_RELEASE d)) 18 = false
              ∧ d ∈ t.dev.pins.hrReset)
          ∧ buStep s.env t.dev = 1 ∧ buRunning s.env t.dev = true)
        ∧ (buAccepts s.env s.dev 2 = true → ∃ t, exec (.lockPlls who []) s = .next t
          ∧ (∀ d, d < s.env.dies → dieState s.env s.dev d ≠ 4 → fld (reg t (CK_STATUS d)) 0 6 = 0x3F ∧ fld (reg t (CK_STATUS d)) 8 6 = 0x3F
              ∧ fld (reg t (CK_SEL d)) 0 6 = 0x3F
              ∧ ∀ p, p < 6 → fld (reg t (CK_FREQ d p)) 0 16 = domainMHz (oppNow s.env s.dev) p))
        ∧ (buAccepts s.env s.dev 4 = true → bit (reg s (BU_ARG m)) 0 = false → ∃ t, exec (.testMemory who []) s = .next t
          ∧ (∀ a, a < crockRaw 0 → readByte t a = 0) ∧ (∀ a, crockRaw 0 ≤ a → readByte t a = readByte s a)
          ∧ (∀ q, (t.dev.core q).acc = [] ∧ (t.dev.core q).inbuf = []) ∧ (∀ d k, k < 16 → (t.dev.sep d k).st = [])
          ∧ (∀ d c, c < 4 → (t.dev.churn d c).acc = [] ∧ (t.dev.churn d c).image = []))
        ∧ (buAccepts s.env s.dev 4 = true → bit (reg s (BU_ARG m)) 0 = true → ∃ t, exec (.testMemory who []) s = .next t
          ∧ t.dev.mem = s.dev.mem))
    ∧ (alive → ∀ who, isFirmware who = true →
        (buAccepts s.env s.dev 5 = true → ∀ auth, ∃ t, exec (.readCrock who auth) s = .next t ∧ t.dev.pins.crReset = true
          ∧ (let missing : Bool := !s.dev.pins.crockDet
            (missing = true ∨ (s.dev.crock.blank = false ∧ auth = false) →
              (bit (reg s (BU_CTRL m)) 0 = true → bit (reg t (BU_STATUS m)) 10 = true ∧ bit (reg t (CR_STATUS m)) 4 = true ∧ t.dev.bu.result = 0)
              ∧ (bit (reg s (BU_CTRL m)) 0 = false → t.dev.bu.result = 2
                ∧ t.dev.bu.cause = (if missing then causeNoCrock else causeCrockAuth)))
            ∧ (missing = false → s.dev.crock.blank = true ∨ auth = true →
              fld (reg t (CR_STATUS m)) 0 3 = 7
              ∧ (let life := fld (reg t (CR_LIFE m)) 0 8
                bit (reg t (CR_STATUS m)) 3 = decide (100 ≤ life) ∧ bit (reg t (CR_STATUS m)) 6 = decide (80 ≤ life)
                  ∧ bit (reg t (CR_STATUS m)) 7 = decide (95 ≤ life) ∧ bit (reg t (BU_STATUS m)) 11 = decide (100 ≤ life))
              ∧ bit (reg t (SEC_STATUS m)) 0 = true ∧ bit (reg t (SEC_STATUS m)) 1 = decide (t.dev.crock.certLen ≠ 0))
            ∧ (missing = false → s.dev.crock.blank = true → t.dev.crock.blank = false ∧ t.dev.crock.enrol = s.dev.crock.enrol + 1
              ∧ t.dev.crock.arc = 0 ∧ t.dev.crock.defects = [] ∧ bit (reg t (CR_STATUS m)) 5 = true)
            ∧ (missing = false → s.dev.crock.blank = false → auth = true → t.dev.crock.defects = s.dev.crock.defects
              ∧ ∀ e ∈ s.dev.listed, fldN e 57 1 = 1 → s.env.has (fldN e 16 3) = true →
                (fldN e 8 8 = 1 → pMake (fldN e 16 3) (fldN e 30 6) (fldN e 24 6) ∈ t.dev.bu.isolated)
                ∧ (fldN e 8 8 = 6 → t.dev.blockFenced (mBlock (fldN e 16 3) 0 (fldN e 24 2)) = true))))
        ∧ (buAccepts s.env s.dev 6 = true →
          let a := slotImage s.dev s.dev.crock.active
          let b := slotImage s.dev (1 - s.dev.crock.active)
          ∃ t, exec (.verifyFw who) s = .next t ∧ t.dev.crock.slotA = (if s.dev.crock.slotA = 4 then 2 else s.dev.crock.slotA)
            ∧ t.dev.crock.slotB = (if s.dev.crock.slotB = 4 then 2 else s.dev.crock.slotB)
            ∧ (bit (reg s (BU_CTRL m)) 1 = false → bit (reg s (BU_STATUS m)) 10 = false →
              (imageAccepted s.env s.dev a = true → t.dev.fw.chosen = some (s.dev.crock.active, imageOf a) ∧ t.dev.bu.result = 0)
              ∧ (imageAccepted s.env s.dev a = false → imageAccepted s.env s.dev b = true →
                  t.dev.fw.chosen = some (1 - s.dev.crock.active, imageOf b) ∧ t.dev.bu.result = 0)
              ∧ (imageAccepted s.env s.dev a = false → imageAccepted s.env s.dev b = false → t.dev.bu.result = 2
                  ∧ t.dev.bu.cause = (if imageSigned a || imageSigned b then causeFwRollback else causeFwSig)))
            ∧ (bit (reg s (BU_CTRL m)) 1 = false → bit (reg s (BU_STATUS m)) 10 = true → t.dev.bu.result = 2)
            ∧ (bit (reg s (BU_CTRL m)) 1 = true →
              (∀ bs, hostImage s.env s.dev = some bs → imageAccepted s.env s.dev bs = true → t.dev.fw.chosen = some (2, imageOf bs)
                ∧ t.dev.bu.result = 0)
              ∧ (hostImage s.env s.dev = none → t.dev.bu.result = 2 ∧ t.dev.bu.cause = causeHostImage)))
        ∧ (buAccepts s.env s.dev 7 = true →
          (s.dev.fw.chosen = none → ∃ t, exec (.startFw who []) s = .next t ∧ t.dev.bu.result = 3 ∧ t.dev.bu.cause = causeFwStart)
          ∧ (∀ k img, s.dev.fw.chosen = some (k, img) →
            let bs := chosenBytes s.env s.dev k
            ∃ t, exec (.startFw who []) s = .next t ∧ t.dev.fw.image = some img ∧ t.dev.bu.result = 0
              ∧ (k < 2 → slotState t.dev k = 3 ∧ t.dev.crock.active = k)
              ∧ (∀ d, d < s.env.dies → dieUp s.env s.dev d = true → cmState t.dev d = 0
                ∧ (reg t (FW_IMAGE d)).toNat = img.ver % 0x100000000 ∧ bit (reg t (FW_STATUS d)) 10 = decide (k = 1)
                ∧ bit (reg t (FW_STATUS d)) 11 = decide (k = 2)
                ∧ (bs.length ≤ 0x1000000 → t.dev.ldBytes (psramMem d 0) bs.length = bs))))
        ∧ (buAccepts s.env s.dev 8 = true →
          let bs := ucodeBytes s.dev m
          ∃ t, exec (.loadMicrocode who []) s = .next t
            ∧ ∀ d i, d < s.env.dies → dieUp s.env s.dev d = true → i < 2112 → let q := pMake d 0 i
              (ucodeWhole bs = true → bit (reg t (NC_STATUS q)) 3 = false
                ∧ t.dev.ldBytes (progMem q 0) (bs.take 0x4000).length = bs.take 0x4000)
              ∧ (ucodeWhole bs = false → bit (reg t (NC_UCODE_STATUS q)) 8 = true ∧ q ∈ t.dev.bu.isolated ∧ 1 ≤ t.dev.bu.result))
        ∧ (∀ (bist : Bool) (found : List Found),
          let n := if bist then 10 else 9
          buAccepts s.env s.dev n = true → ∃ t, exec (if bist then .bist who found else .knownAnswer who found) s = .next t
            ∧ (∀ k ∈ [0, 1, 2, 3, 4, 6, 7],
                let x := kindFig s.dev k
                let y := kindFig t.dev k
                y.tested = max x.tested (kindTested s.env s.dev k)
                  ∧ y.failed = x.failed + ((found.filter (foundHere s.env n)).filter (fun f => benchKind f.kind.val == k)).length
                  ∧ (let floors := if bist then [9600, 9700, 9550, 9550, 9650, 0, 9400, 9200] else [10000, 10000, 10000, 10000, 10000, 0, 9800, 10000]
                    floors.getD k 0 ≤ (if bist then y.bist else y.ka) ∧ (if bist then y.bist else y.ka) ≤ 10000))
            ∧ (∀ f ∈ found, f.kind.val = 1 → s.env.has f.die.val = true → coreOfFound f ∈ t.dev.bu.isolated ∧ 1 ≤ t.dev.bu.result))
        ∧ (buAccepts s.env s.dev 11 = true → ∀ fails, ∃ t, exec (.commitDefects who fails) s = .next t ∧ t.dev.place.built = true
          ∧ (∀ d tl k, d < s.env.dies → tl < 64 → k < 32 →
              let good := (List.range 33).filter (fun x => dieUp s.env s.dev d && !s.dev.bu.isolated.contains (pMake d tl x))
              t.dev.placeOf (2048 * d + 32 * tl + k) = (good[k]?).map (pMake d tl)
              ∧ SMap.get 0 t.dev.place.spare (d * 64 + tl) = ((good[32]?).map (fun x => pMake d tl x + 1)).getD 0)
          ∧ (bit (reg s (CR_STATUS m)) 4 = true → t.dev.bu.result = 0)
          ∧ (bit (reg s (CR_STATUS m)) 4 = false → bit (reg s (CR_STATUS m)) 3 = true ∨ fails = true →
              t.dev.bu.result = 1 ∧ t.dev.bu.cause = causeDefectWrite)
          ∧ (bit (reg s (CR_STATUS m)) 4 = false → bit (reg s (CR_STATUS m)) 3 = false → fails = true → Recorded t m 4 clsFW)))
    ∧ (∀ late : List Found,
        let k := buStep s.env s.dev
        let elapsed : Prop := s.dev.bu.start + stepMax s.env s.dev k ≤ s.env.now
        (1 ≤ k → k ≤ 12 → buRunning s.env s.dev = true → s.dev.bu.begun = true → (k = 7 → s.dev.fw.image ≠ none ∨ s.dev.bu.result = 3) → late = [] →
          ∃ t, exec (.buStepEnd []) s = .next t ∧ fld (reg t (BU_STATUS m)) 4 2 = 2
            ∧ fld (reg t (BU_STATUS m)) 6 2 = s.dev.bu.result % 4 ∧ fld (reg t (BU_STATUS m)) 0 4 = k
            ∧ (reg t (BU_TIME m k)).toNat = min (s.env.now - s.dev.bu.start) (stepMax s.env s.dev k) / 1000
            ∧ (s.dev.bu.result ≠ 0 → (reg t (BU_DETAIL m)).toNat = (s.dev.bu.cause + 0x100 * s.dev.bu.causeDie) % 0x100000000)
            ∧ (k = 12 → s.dev.bu.result ≤ 1 → buReady s.env t.dev = true
                ∧ ∀ p, p < 4 → portOpens s.env s.dev p = true → t.dev.portOpen p = true)
            ∧ (k = 11 → s.dev.bu.result = 0 → fld (reg s (CR_STATUS m)) 2 3 = 1 → bit (reg s (CR_STATUS m)) 8 = false → s.dev.bu.found ≠ [] →
                t.dev.crock.defects = (s.dev.crock.defects ++ s.dev.bu.found).take 4096)
            ∧ (k = 4 → t.dev.bu.tested = true) ∧ t.dev.mem = s.dev.mem)
        ∧ (buRunning s.env s.dev = false ∨ s.dev.bu.begun = false ∨ (late ≠ [] ∧ ¬ elapsed) → exec (.buStepEnd late) s = .next s))
    ∧ (∀ k img found, s.dev.fw.chosen = some (k, img) → buRunning s.env s.dev = true → buStep s.env s.dev = 7 → s.dev.bu.begun = true →
        s.dev.fw.image = none → bit (reg s (BU_STATUS m)) 12 = false →
        (s.dev.bu.start + stepMax s.env s.dev 7 ≤ s.env.now → ∃ t, exec (.fwStartFallback found) s = .next t
          ∧ (k < 2 → bit (reg t (BU_STATUS m)) 12 = true ∧ slotState t.dev k = 5
            ∧ (let bs := slotImage s.dev (1 - k)
              (imageAccepted s.env s.dev bs = true → masterFails s.env found = false → t.dev.fw.image = some (imageOf bs)
                ∧ t.dev.fw.chosen = some (1 - k, imageOf bs) ∧ slotState t.dev (1 - k) = 3)
              ∧ (imageAccepted s.env s.dev bs = false ∨ masterFails s.env found = true → s.dev.bu.result < 3 →
                t.dev.bu.result = 3 ∧ t.dev.bu.cause = causeFwStart ∧ t.dev.bu.causeDie = m)))
          ∧ (2 ≤ k → s.dev.bu.result < 3 → t.dev.bu.result = 3 ∧ t.dev.bu.cause = causeFwStart ∧ t.dev.bu.causeDie = m))
        ∧ (s.env.now < s.dev.bu.start + stepMax s.env s.dev 7 → exec (.fwStartFallback found) s = .next s))

/-- BU_CTRL stores its two options; SAFE_RELEASE after READY, with firmware up, ends BOOT_HOLD, waits where firmware is down, and before READY sets SEQ_ERR. BU_PADS and PM_PAD_RELEASE release the pad groups that they name and latch none. A die that a die warm reset took down is re-brought: its firmware and clocks run, its PSRAM channel is enabled, it is down no longer, and its cores hold the microcode of an image that is whole, and show that they do not where it is not; an isolated ostler stays so; any other die stays as it is. -/
def Obligations.BringUpRegistersAndRebring : Prop :=
  ∀ (s : State),
    let m := s.env.master
    let alive : Prop := s.dev.bu.perst = true ∧ s.dev.pw.thermtrip = false ∧ s.dev.pw.phase ≠ .hold
    (alive → ∀ (k : Fin 8) (x : Word),
        (bit x 2 = false → ∃ t, exec (.buCtrlSafeRelease (.coachman k) x) s = .next t ∧ fld (reg t (BU_CTRL m)) 0 2 = fld x 0 2
          ∧ OnlyRegs s t [BU_CTRL m])
        ∧ (bit x 2 = true → buReady s.env s.dev = false → ∃ t, exec (.buCtrlSafeRelease (.coachman k) x) s = .next t
          ∧ bit (reg t (BU_STATUS m)) 9 = true ∧ OnlyRegs s t [BU_CTRL m, BU_STATUS m])
        ∧ (bit x 2 = true → buReady s.env s.dev = true → s.dev.fwUp s.env = true → ∃ t, exec (.buCtrlSafeRelease (.coachman k) x) s = .next t
          ∧ bit (reg t (FR_SAFEN m)) 0 = false ∧ t.dev.bu = { s.dev.bu with safeDue := false }
          ∧ RegsExcept s t [BU_CTRL m, FR_SAFEN m] ∧ ChangesOnly s t [.regs, .bu])
        ∧ (bit x 2 = true → buReady s.env s.dev = true → s.dev.fwUp s.env = false → ∃ t, exec (.buCtrlSafeRelease (.coachman k) x) s = .next t
          ∧ t.dev.bu = { s.dev.bu with safeDue := true } ∧ RegsExcept s t [BU_CTRL m] ∧ ChangesOnly s t [.regs, .bu])
        ∧ (∃ t, exec (.buPadsWrite (.coachman k) x) s = .next t
          ∧ (∀ i, i < 5 → bit (reg t (PM_PAD_RELEASE 0)) (16 + i) = (bit (reg s (PM_PAD_RELEASE 0)) (16 + i) && !bit x i)
              ∧ bit (reg t (PM_PAD_RELEASE 1)) (16 + i) = (bit (reg s (PM_PAD_RELEASE 1)) (16 + i) && !bit x (8 + i)))
          ∧ OnlyRegs s t [PM_PAD_RELEASE 0, PM_PAD_RELEASE 1]))
    ∧ (∀ (d : Fin 8) (x : Word), s.env.has d.val = true →
        (∀ who, who = .port ⟨s.env.bringUpPort % 4, Nat.mod_lt _ (by decide)⟩ ∨ isFirmware who = true →
          ∃ t, exec (.pmPadReleaseWrite who d x) s = .next t
            ∧ (∀ i, i < 5 → bit (reg t (PM_PAD_RELEASE d.val)) (16 + i) = (bit (reg s (PM_PAD_RELEASE d.val)) (16 + i) && !bit x i))
            ∧ OnlyRegs s t (PM_PAD_RELEASE d.val :: seqRegs who))
        ∧ (∀ q : Fin 4, q.val ≠ s.env.bringUpPort → ∃ t, exec (.pmPadReleaseWrite (.port q) d x) s = .next t
            ∧ Recorded t d.val 4 clsSE ∧ reg t (PM_PAD_RELEASE d.val) = reg s (PM_PAD_RELEASE d.val)))
    ∧ (∀ d : Fin 8,
        (s.dev.dieDown.contains d.val = true → ∃ t, exec (.dieRebring d []) s = .next t ∧ t.dev.dieDown.contains d.val = false
          ∧ (∀ e, e ≠ d.val → t.dev.dieDown.contains e = s.dev.dieDown.contains e)
          ∧ fld (reg t (FW_STATUS d.val)) 0 2 = 0
          ∧ (∀ o, o < 4 → fld (reg t (FW_STATUS d.val)) (2 * o + 2) 2 = (if fld (reg s (FW_STATUS d.val)) (2 * o + 2) 2 = 3 then 3 else 0))
          ∧ bit (reg t (XR_CTRL d.val)) 0 = true ∧ fld (reg t (CK_STATUS d.val)) 0 6 = 0x3F
          ∧ (let bs := ucodeBytes (if copyBad s.dev d.val then reloadCopy s.env d.val s.dev else s.dev) d.val
            (ucodeWhole bs = true → ∀ q, pDie q = d.val → bit (reg t (NC_STATUS q)) 3 = false
              ∧ t.dev.ldBytes (progMem q 0) (bs.take 0x4000).length = bs.take 0x4000)
            ∧ (ucodeWhole bs = false → ∀ q, pDie q = d.val → bit (reg t (NC_UCODE_STATUS q)) 8 = true)))
        ∧ (s.dev.dieDown.contains d.val = false → ∀ found, exec (.dieRebring d found) s = .next s))

/-- One error of a source other than a memory's is captured in its slot, with the address and the information that its source lays out, or merged into the record there, and counted, one of a lane at its die's lane counter too; a corrected core memory error counts at the core; an uncorrectable one fences it. An FW error of firmware that runs restarts it. The record of a slot is copied to the aggregator when it has room and no older one waits; without room, or behind an older record that is held, it is held, its alert given and counted once. The handler takes the oldest record, logs it, enters each core that its UC errors fenced in the defect list and frees the slot. FC_ACK frees a slot for firmware alone; FC_REACT of every die takes the value of the coach's party, US_ACT at least HOLD_SAFE. A sensor at or below a limit makes a CE record, and a critical slot sensor a defect entry; the voltage guard only rises. Factory mode opens with a token through the debug port on a package whose TESTMODE was high; injection works only in it, and clears GO. -/
def Obligations.ErrorsAreRecordedAndHandled : Prop :=
  ∀ (s : State),
    let m := s.env.master
    (∀ (e : Detected) (cls o : Nat), classOfSource e.source.toNat = some cls → s.env.has e.die.val = true →
        s.env.has (mDie e.master.toNat) = true → (mIsCore e.master.toNat = true → e.master.toNat % 0x1000 < 2112) →
        (e.source.toNat ∉ [1, 2, 3, 9, 0x40, 0x41, 0x42] → o < 5 → (namesOwner e.source.toNat = true → o = e.owner.val) →
            (namesOwner e.source.toNat = false → ownersOr ((ownersOfBlock s.dev e.master.toNat).getD [4]) = [o]) →
          ∃ t, exec (.faultRaise [e]) s = .next t
          ∧ (let k := slotKey e.die.val o cls
            t.dev.slot k = some (match s.dev.slot k with
              | some r => merged r
              | none => captured s.env ⟨e.die.val, cls, o, e.source.toNat, e.master.toNat, e.access.val,
                  if hasAddr e.source.toNat then e.addr.toNat else 0, e.info.toNat &&& infoMask e.source.toNat⟩))
          ∧ reg t (FC_CNT e.die.val o cls) = satAdd32 (reg s (FC_CNT e.die.val o cls)) 1
          ∧ (e.source.toNat = 6 → reg t (SN_LANE_CE e.die.val) = satAdd32 (reg s (SN_LANE_CE e.die.val)) 1
              ∧ reg t (SN_LANE_UE e.die.val) = reg s (SN_LANE_UE e.die.val))
          ∧ (e.source.toNat = 7 → reg t (SN_LANE_UE e.die.val) = satAdd32 (reg s (SN_LANE_UE e.die.val)) 1
              ∧ reg t (SN_LANE_CE e.die.val) = reg s (SN_LANE_CE e.die.val))
          ∧ (e.source.toNat ∉ [6, 7] → reg t (SN_LANE_CE e.die.val) = reg s (SN_LANE_CE e.die.val)
              ∧ reg t (SN_LANE_UE e.die.val) = reg s (SN_LANE_UE e.die.val))
          ∧ RegsExcept s t [FC_CNT e.die.val o cls, TG_STATUS m o, SN_LANE_CE e.die.val, SN_LANE_UE e.die.val]
          ∧ ChangesOnly s t [.regs, .tick, .flt])
        ∧ (∀ k, k < 4 → e.source.toNat = 0x40 → e.master.toNat = mBlock (mDie e.master.toNat) 8 k →
            fwRuns s.env s.dev (mDie e.master.toNat) = true → ostlerState s.dev (mDie e.master.toNat) k = 0 →
            ∃ t, exec (.faultRaise [e]) s = .next t ∧ Recorded t e.die.val 4 clsFW ∧ ostlerState t.dev (mDie e.master.toNat) k ≠ 0)
        ∧ (e.source.toNat = 0x41 → e.master.toNat = mBlock (mDie e.master.toNat) 7 0 → fwRuns s.env s.dev (mDie e.master.toNat) = true →
            s.dev.fw.act = none → ∃ t, exec (.faultRaise [e]) s = .next t ∧ Recorded t e.die.val 4 clsFW
              ∧ cmState t.dev (mDie e.master.toNat) = 1)
        ∧ (mIsCore e.master.toNat = true →
            let q := mPhys e.master.toNat
            (e.source.toNat = 1 → ∃ t, exec (.faultRaise [e]) s = .next t ∧ reg t (NC_MEM_CE q) = satAdd32 (reg s (NC_MEM_CE q)) 1
              ∧ Recorded t e.die.val (s.dev.coreOwner q) clsCE ∧ t.dev.mem = s.dev.mem)
            ∧ (e.source.toNat = 2 → s.dev.isFenced q = false → ∃ t, exec (.faultRaise [e]) s = .next t ∧ t.dev.isFenced q = true
              ∧ t.dev.enabled q = false ∧ Recorded t e.die.val (s.dev.coreOwner q) clsUC ∧ ∃ x ∈ t.dev.flt.ucDue, x.2 = q)
            ∧ (e.source.toNat = 2 → s.dev.isFenced q = true → ∃ t, exec (.faultRaise [e]) s = .next t
              ∧ Recorded t e.die.val (s.dev.coreOwner q) clsUC ∧ t.dev.cores = s.dev.cores ∧ t.dev.mem = s.dev.mem)))
    ∧ exec (.faultRaise []) s = .next s
    ∧ (∀ (d : Fin 8) (o : Fin 5) (cls : Fin 7),
        let k := slotKey d.val o.val cls.val
        (s.dev.slot k = none ∨ ¬ Clocked s d.val 3 → exec (.aggOffer d o cls) s = .next s)
        ∧ (∀ r, s.dev.slot k = some r → s.env.has d.val = true → r.copied = false → Clocked s d.val 3 →
          let older := olderWaits s.dev d.val k r.time false
          let queued := olderWaits s.dev d.val k r.time true
          (s.dev.flt.agg.length < 64 → older = false → queued = false → ∃ t, exec (.aggOffer d o cls) s = .next t
            ∧ t.dev.flt.agg = s.dev.flt.agg ++ [(k, { r with copied := true })] ∧ t.dev.slot k = some { r with copied := true }
            ∧ (r.held = false → r.owner < 4 → s.dev.isOpen r.owner = true →
                bit (reg t (hpAlert (s.dev.coach r.owner).port)) (if r.cls = clsDL then 3 else 2) = true)
            ∧ ChangesOnly s t [.regs, .flt])
          ∧ (s.dev.flt.agg.length < 64 → older = true → queued = false → exec (.aggOffer d o cls) s = .next s)
          ∧ (64 ≤ s.dev.flt.agg.length ∨ queued = true → r.held = false → ∃ t, exec (.aggOffer d o cls) s = .next t
            ∧ t.dev.slot k = some { r with held := true } ∧ t.dev.flt.agg = s.dev.flt.agg ∧ t.dev.flt.heldQ = s.dev.flt.heldQ ++ [k]
            ∧ (r.owner < 4 → s.dev.isOpen r.owner = true →
                bit (reg t (hpAlert (s.dev.coach r.owner).port)) (if r.cls = clsDL then 3 else 2) = true)
            ∧ reg t (FC_AGG_OVF m) = satAdd32 (reg s (FC_AGG_OVF m)) 1)
          ∧ (64 ≤ s.dev.flt.agg.length ∨ queued = true → r.held = true → exec (.aggOffer d o cls) s = .next s)))
    ∧ (s.dev.flt.agg = [] ∨ s.dev.handlerUp m = false → exec .faultHandlerTake s = .next s)
    ∧ (∀ k r rest, s.dev.flt.agg = (k, r) :: rest → s.dev.handlerUp m = true → ∃ t, exec .faultHandlerTake s = .next t
        ∧ t.dev.flt.agg = rest ∧ t.dev.slot k = none
        ∧ (r.cls ≠ clsUC → r.cls ≠ clsUS → ChangesOnly s t [.flt, .fw]
            ∧ t.dev.fw.log.getLast?.map (fun x => (x.seq, x.kind, x.coach, x.time, x.body.take 32))
                = some (s.dev.fw.nextSeq, 1, r.owner, s.env.now, r.bytes))
        ∧ (r.cls = clsUC → t.dev.flt.ucDue = s.dev.flt.ucDue.filter (fun x => x.1 != k)
            ∧ ∀ x ∈ s.dev.flt.ucDue, x.1 = k → (t.dev.crock.defects ++ t.dev.bu.found).any (fun y =>
              entryKey y == entryKey (defectEntry 0x01 (pDie x.2) (x.2 % 33 + 64 * (x.2 % 2112 / 33)) 0x30 false)) = true))
    ∧ (∀ (d : Fin 8) (x : Word), s.env.has d.val = true →
        (∀ k : Fin 8, fld x 0 3 < 7 → fld x 3 3 < 5 → ∃ t, exec (.fcAckWrite (.coachman k) d x) s = .next t
          ∧ t.dev.slot (slotKey d.val (fld x 3 3) (fld x 0 3)) = none
          ∧ (∀ j, j ≠ slotKey d.val (fld x 3 3) (fld x 0 3) → t.dev.slot j = s.dev.slot j) ∧ ChangesOnly s t [.flt])
        ∧ (∀ q : Fin 4, ∃ t, exec (.fcAckWrite (.port q) d x) s = .next t ∧ Recorded t d.val 4 clsSE
          ∧ (∀ j, s.dev.slot j ≠ none → t.dev.slot j ≠ none))
        ∧ (∀ (who : Party) (g : Fin 4), who ≠ .debug →
            (mayWriteCoach s.dev g.val who = true → ∃ t, exec (.fcReactWrite who d g x) s = .next t
              ∧ (∀ e, e < s.env.dies → reg t (FC_REACT e g.val) = reactValue x ∧ 2 ≤ fld (reg t (FC_REACT e g.val)) 4 2)
              ∧ OnlyRegs s t (s.env.dieList.map (fun e => FC_REACT e g.val) ++ seqRegs who))
            ∧ (mayWriteCoach s.dev g.val who = false → ∃ t, exec (.fcReactWrite who d g x) s = .next t
              ∧ Recorded t d.val (s.dev.coachOrDevice g.val) clsSE ∧ ∀ e, e < s.env.dies → reg t (FC_REACT e g.val) = reg s (FC_REACT e g.val)))
        ∧ (∀ (who : Party) (token : List Byte),
            (s.hw.testmode = true → who = .debug → s.dev.pins.ir = 0x20 → Config.factoryToken token s.dev.crock.enrol = true →
              ∃ t, exec (.fcInjUnlockWrite who d token) s = .next t ∧ t.dev.flt.factory = true
                ∧ (∀ e, e < s.env.dies → bit (reg t (SEC_STATUS e)) 5 = true) ∧ ChangesOnly s t [.regs, .flt])
            ∧ (s.dev.flt.factory = false → s.hw.testmode = false ∨ who ≠ .debug → debugOff s.dev who = false → ∃ t, exec (.fcInjUnlockWrite who d token) s = .next t
                ∧ t.dev.flt.factory = false ∧ Recorded t d.val 4 clsSE)
            ∧ (∀ q, s.dev.flt.factory = true → who = .port q → ∃ t, exec (.fcInjUnlockWrite who d token) s = .next t
                ∧ t.dev.flt.factory = true ∧ Recorded t d.val 4 clsSE))
        ∧ (s.dev.flt.factory = false ∨ bit (reg s (FC_INJ_CTRL d.val)) 24 = false → exec (.fcInjGo d) s = .next s)
        ∧ (s.dev.flt.factory = true → bit (reg s (FC_INJ_CTRL d.val)) 24 = true →
            let w := reg s (FC_INJ_CTRL d.val)
            let a := s.dev.rd64 (FC_INJ_ADDR_LO d.val) (FC_INJ_ADDR_HI d.val) % 0x1000000000000
            (fld w 0 2 = 0 → ∃ t, exec (.fcInjGo d) s = .next t ∧ bit (reg t (FC_INJ_CTRL d.val)) 24 = false
              ∧ OnlyRegs s t [FC_INJ_CTRL d.val])
            ∧ (fld w 0 2 = 3 → fld w 8 3 < 7 → fld w 12 3 < 5 → ∃ t, exec (.fcInjGo d) s = .next t
              ∧ bit (reg t (FC_INJ_CTRL d.val)) 24 = false ∧ Recorded t d.val (fld w 12 3) (fld w 8 3))
            ∧ (∀ lo hi die mm, injTarget s.env s.dev a = none → injPsram s.env a = none → injTable s.env a = some (lo, hi, die, mm) →
              fld w 0 2 = 2 → let mask := 2 ^ fld w 2 6 ^^^ (2 * 2 ^ fld w 2 6 % 2 ^ 64)
              ∃ t, exec (.fcInjGo d) s = .next t ∧ bit (reg t (FC_INJ_CTRL d.val)) 24 = false
                ∧ reg t lo = (reg s lo ^^^ w32 mask) ∧ reg t hi = (reg s hi ^^^ w32 (mask / 0x100000000)))
            ∧ (∀ y die mm, injTarget s.env s.dev a = some (y, die, mm) → mIsCore mm = false →
              (fld w 0 2 = 1 → ∃ t, exec (.fcInjGo d) s = .next t ∧ bit (reg t (FC_INJ_CTRL d.val)) 24 = false ∧ t.dev.mem = s.dev.mem)
              ∧ (fld w 0 2 = 2 → ∃ t, exec (.fcInjGo d) s = .next t ∧ bit (reg t (FC_INJ_CTRL d.val)) 24 = false
                ∧ t.dev.ldN y 8 = (s.dev.ldN y 8 ^^^ (2 ^ fld w 2 6 ^^^ (2 * 2 ^ fld w 2 6 % 2 ^ 64)))
                ∧ (∀ b, b < y ∨ y + 8 ≤ b → readByte t b = readByte s b)))))
    ∧ (∀ e : Reading, s.env.has e.die.val = true → s.dev.ostlerUp e.die.val 2 = true →
        let d := e.die.val
        let k := e.sensor.val
        let n := e.margin.toNat
        ∃ t, exec (.ageingRead [e]) s = .next t
          ∧ SMap.get 0 t.dev.flt.margins ((d * 64 + e.tile.val) * 64 + k) = n
          ∧ (reg s (PM_VGUARD d)).toNat ≤ (reg t (PM_VGUARD d)).toNat
          ∧ (fld (reg s (FC_AGE_LIMITS d)) 0 8 < n → fld (reg s (FC_AGE_LIMITS d)) 8 8 < n → t.dev.flt.slots = s.dev.flt.slots
              ∧ RegsExcept s t [PM_VGUARD d])
          ∧ (n ≤ fld (reg s (FC_AGE_LIMITS d)) 0 8 ∨ n ≤ fld (reg s (FC_AGE_LIMITS d)) 8 8 →
              Recorded t d (if k < 33 then s.dev.coreOwner (pMake d e.tile.val k) else 4) clsCE)
          ∧ (n ≤ fld (reg s (FC_AGE_LIMITS d)) 8 8 → k < 33 → (t.dev.crock.defects ++ t.dev.bu.found).any (fun x =>
              entryKey x == entryKey (defectEntry 0x01 d (k + 64 * e.tile.val) 0x31 false)) = true))

/-- Power-on reset samples the straps, zeroes the time base and leaves every register at its reset value but PM_LIMIT, which is the part's TDP. A cold reset zeroes the time base, ends every coach, keeps the crock's bytes and clears all other memory; its cause is 1 for PERST_N, 2 for REFCLK, 4 for a PLL of the master; a PLL of another die makes a US record and takes that die down, once the master die's firmware runs. THERMTRIP holds and asserts SMB_ALERT_N. A package warm reset, by firmware or the open bring-up port, keeps core memories, port SRAM and time, and ends the coaches; other open ports are refused with an SE record, a closed port's write is counted as reserved, and after a FATAL start none is taken (the model's reading of R359, log entry 188). A die warm reset clears the die's cores and touches no other die's; the master cannot be named. HOLD starts 10 µs after its command and keeps the selected core memories; waking reports itself. -/
def Obligations.ResetsLeaveWhatTheTableSays : Prop :=
  ∀ (s : State),
    let m := s.env.master
    let cold (t : State) (cause : Nat) : Prop := t.hw = s.hw ∧ t.clk = Clock.zero ∧ t.pending = s.pending
      ∧ (reg t (FC_RESET_CAUSE m)).toNat = cause ∧ t.dev.coaches = [] ∧ t.dev.cores = [] ∧ t.dev.ports = [] ∧ t.dev.place.built = false
      ∧ t.dev.pw.phase = .run ∧ t.dev.crock.defects = s.dev.crock.defects ∧ t.dev.crock.arc = s.dev.crock.arc
      ∧ (∀ a, readByte t a = if inCrock a then readByte s a else 0)
      ∧ (∀ r : Reg, r.key ≠ (FC_RESET_CAUSE m).key → r.key ≠ (PM_LIMIT m).key → reg t r = regReset r)
    (∀ (msel testmode : Bool) (addr : Fin 4) (fit : CrockFit), ∃ t, exec (.powerOnReset msel testmode addr fit) s = .next t
        ∧ t.hw = { s.hw with msel := msel, testmode := testmode, smbAddr := addr.val } ∧ t.clk = Clock.zero
        ∧ (∀ r : Reg, r.key ≠ (PM_LIMIT (if msel then 1 else 0)).key → reg t r = regReset r)
        ∧ (reg t (PM_LIMIT (if msel then 1 else 0))).toNat = partTdp s.hw.part
        ∧ t.dev.coaches = [] ∧ t.dev.cores = [] ∧ t.dev.pw = Power.init ∧ t.dev.bu = BringUp.init
        ∧ (∀ a, readByte t a = if inCrock a && fit != .blank then readByte s a else 0))
    ∧ (∃ t, exec .packageColdReset s = .next t ∧ cold t 1 ∧ t.dev.bu.perst = false)
    ∧ (∃ t, exec .refclkLoss s = .next t ∧ cold t 2 ∧ t.dev.bu.perst = s.dev.bu.perst)
    ∧ (∃ t, exec .thermtrip s = .next t ∧ cold t 0 ∧ t.dev.pw.thermtrip = true ∧ t.dev.pins.smbAlert = true)
    ∧ (∀ (d : Fin 8) (p : Fin 6),
        (s.env.has d.val = true → bit (reg s (CK_STATUS d.val)) p.val = true →
          (d.val = m → ∃ t, exec (.pllUnlock d p) s = .next t ∧ cold t 4)
          ∧ (d.val ≠ m → ∃ t, exec (.pllUnlock d p) s = .next t ∧ t.clk = s.clk
            ∧ (s.dev.fwUp s.env = true → t.dev.dieDown.contains d.val = true)
            ∧ (s.dev.fwUp s.env = false → t.dev.dieDown = s.dev.dieDown ∧ t.dev.fw.resetDue.contains d.val = true)
            ∧ (∀ g ∈ s.dev.ownersOn d.val, Recorded t d.val g clsUS)))
        ∧ (s.env.has d.val = false ∨ bit (reg s (CK_STATUS d.val)) p.val = false → exec (.pllUnlock d p) s = .next s))
    ∧ (∀ (who : Party) (x : Word), ∀ i ∈ [Instr.pmResetReqPackageWarm who x, .pmResetReqDieWarm who x],
        (fld x 16 16 = 0x7A5C → fld x 0 2 = 1 → mayReset s.env who 1 = true → s.dev.pw.thermtrip = false → s.dev.pw.phase ≠ .hold →
            (∀ p, who = .port p → s.dev.portOpen p.val = true) → fld (reg s (BU_STATUS m)) 6 2 ≠ 3 →
          ∃ t, exec i s = .next t ∧ t.clk = s.clk ∧ t.hw = s.hw ∧ (reg t (FC_RESET_CAUSE m)).toNat = 3 ∧ t.dev.coaches = []
            ∧ t.dev.cores = [] ∧ t.dev.place.built = false
            ∧ (∀ q a, q < s.env.dies * 2112 → a < 0x40000 → readByte t (coreMem q a) = readByte s (coreMem q a))
            ∧ (∀ (p : Fin 4) a, a < 0x2000000 → readByte t (sramMem p.val a) = readByte s (sramMem p.val a))
            ∧ t.dev.pw.heldCores = List.range (s.env.dies * 2112)
            ∧ fld (reg t (PM_STATUS m)) 8 3 = fld (reg s (PM_STATUS m)) 12 3 ∧ reg t (PM_LIMIT m) = reg s (PM_LIMIT m))
        ∧ (fld x 0 2 = 1 → isFirmware who = true → fld (reg s (BU_STATUS m)) 6 2 = 3 → exec i s = .next s)
        ∧ (fld x 16 16 = 0x7A5C → fld x 0 2 = 2 → isFirmware who = true →
            let d := fld x 2 3
            (d ≠ m → s.env.has d = true → s.dev.dieDown.contains d = false → ∃ t, exec i s = .next t
              ∧ t.dev.dieDown = s.dev.dieDown ++ [d] ∧ t.clk = s.clk ∧ fld (reg t (FW_STATUS d)) 0 2 = 1
              ∧ (∀ q a, q < 8 * 2112 → a < 0x40000 → readByte t (coreMem q a) = if pDie q = d then 0 else readByte s (coreMem q a))
              ∧ (∀ c, c < 4 → t.dev.churnOwner d c = s.dev.churnOwner d c)
              ∧ (∀ q, pDie q ≠ d → t.dev.core q = s.dev.core q)
              ∧ t.dev.coaches = s.dev.coaches)
            ∧ (d = m ∨ s.env.has d = false ∨ s.dev.dieDown.contains d = true → ∃ t, exec i s = .next t
              ∧ bit (reg t (PM_STATUS m)) 5 = true ∧ OnlyRegs s t [PM_STATUS m]))
        ∧ (∀ q : Fin 4, who = .port q → s.dev.portOpen q.val = false → (s.dev.port q.val).lp.available = true →
            let r := HP_RSV_ACCESS (portDie q.val) (portUnit q.val)
            ∃ t, exec i s = .next t ∧ reg t r = satAdd32 (reg s r) 1 ∧ OnlyRegs s t (r :: seqRegs who))
        ∧ (∀ q : Fin 4, who = .port q → q.val ≠ s.env.bringUpPort → s.dev.portOpen q.val = true →
            ∃ t, exec i s = .next t ∧ Recorded t m 4 clsSE
            ∧ RegsExcept s t (FC_CNT m 4 clsSE :: deniedRegs (.port q)) ∧ ChangesOnly s t [.regs, .flt]))
    ∧ (s.dev.pw.phase = .entering → s.dev.pw.since + 10000 ≤ s.env.now → s.dev.pw.wakeDue = false →
        ∃ t, exec .holdEntry s = .next t ∧ t.dev.pw.phase = .hold ∧ t.dev.pins.vcoreEn = false ∧ t.clk = s.clk ∧ t.dev.coaches = []
          ∧ (∀ q a, q < 8 * 2112 → a < 0x40000 → readByte t (coreMem q a)
              = if s.dev.pw.cores.any (fun e => e.2 == q) then readByte s (coreMem q a) else 0)
          ∧ (∀ (p : Fin 4) a, a < 0x2000000 → readByte t (sramMem p.val a) = 0)
          ∧ (∀ a, inCrock a = true → readByte t a = readByte s a))
    ∧ (s.dev.pw.phase ≠ .entering ∨ s.env.now < s.dev.pw.since + 10000 → exec .holdEntry s = .next s)
    ∧ (s.dev.pw.phase = .hold → ∃ t, exec .wake s = .next t ∧ t.dev.pw.phase = .run ∧ bit (reg t (PM_STATUS m)) 1 = true
        ∧ (reg t (FC_RESET_CAUSE m)).toNat = 3 ∧ t.dev.pins.vcoreEn = true ∧ t.clk = s.clk
        ∧ t.dev.pw.heldBanks = s.dev.pw.banks ∧ t.dev.pw.heldCores = s.dev.pw.cores.map (·.2)
        ∧ (∀ q a, q < 8 * 2112 → a < 0x40000 → readByte t (coreMem q a) = readByte s (coreMem q a)))
    ∧ (s.dev.pw.phase = .entering → ∃ t, exec .wake s = .next t ∧ t.dev.pw = { s.dev.pw with wakeDue := true } ∧ ChangesOnly s t [.pw])
    ∧ (s.dev.pw.phase = .run → exec .wake s = .next s)
    ∧ (s.dev.pw.phase ≠ .hold → ∃ t, exec .vcoreEnHigh s = .next t ∧ t.dev.pins = { s.dev.pins with vcoreEn := true } ∧ ChangesOnly s t [.pins])
    ∧ (s.dev.pw.phase = .hold → exec .vcoreEnHigh s = .next s)

/-- Firmware's write to XR_CTRL sets EN, and while EN is 0 the fixed settings, with LAT only from 3 to 7 and else CFG_ERR; while EN is 1 a change of them is dropped with an IF record; CLR_CNT clears the counters. XR_TCSM keeps to 1,000 to 4,000. A calibration while EN is 0 ends in CAL or CAL_ERR. The SMBus target answers a listed read command from 10 ms after PERST_N, with its packet error code for a host that reads one, and no write; an alert response gives its address and releases the alert unless THERMTRIP holds it. An instruction reaches the TAP of every die (the model's choice, log entry 190): IDCODE and BYPASS load their registers, SAMPLE_PRELOAD captures the pins and shifts the boundary, EXTEST and CLAMP drive the pins from it and HIGHZ releases them while PERST_N is low, but for SAFE_N and THERMTRIP_N, and DEBUG selects the debug port. -/
def Obligations.PackageInterfacesAnswer : Prop :=
  ∀ (s : State),
    let l := pins s.env s.dev
    let loaded (t : State) (ir : Nat) (tdr : Option Nat) : Prop :=
      t.dev.pins = { s.dev.pins with ir := ir, tdr := tdr.getD s.dev.pins.tdr, chain := t.dev.pins.chain }
        ∧ (∀ d, d < s.env.dies → d ≠ s.env.master →
            SMap.get (1, 0) t.dev.pins.chain d = (ir, tdr.getD (SMap.get (1, 0) s.dev.pins.chain d).2)) ∧ ChangesOnly s t [.pins]
    (∀ (k d : Fin 8) (x : Word), s.env.has d.val = true →
        let r := XR_CTRL d.val
        (bit (reg s r) 0 = false → ∃ t, exec (.xrCtrlWrite (.coachman k) d false x) s = .next t
          ∧ bit (reg t r) 0 = bit x 0 ∧ bit (reg t r) 1 = bit x 1 ∧ fld (reg t r) 6 2 = fld x 6 2
          ∧ fld (reg t r) 2 4 = (if 3 ≤ fld x 2 4 ∧ fld x 2 4 ≤ 7 then fld x 2 4 else fld (reg s r) 2 4)
          ∧ (fld x 2 4 < 3 ∨ 7 < fld x 2 4 → bit (reg t (XR_STATUS d.val)) 2 = true)
          ∧ (bit x 8 = true → ∀ q ∈ xrCounters d.val, reg t q = 0)
          ∧ OnlyRegs s t (r :: XR_STATUS d.val :: xrCounters d.val))
        ∧ (bit (reg s r) 0 = true → fld (reg s r) 1 7 = fld x 1 7 → ∃ t, exec (.xrCtrlWrite (.coachman k) d false x) s = .next t
          ∧ bit (reg t r) 0 = bit x 0 ∧ fld (reg t r) 1 7 = fld (reg s r) 1 7 ∧ OnlyRegs s t (r :: xrCounters d.val))
        ∧ (bit (reg s r) 0 = true → fld (reg s r) 1 7 ≠ fld x 1 7 → ∃ t, exec (.xrCtrlWrite (.coachman k) d false x) s = .next t
          ∧ bit (reg t r) 0 = bit x 0 ∧ fld (reg t r) 1 7 = fld (reg s r) 1 7 ∧ Recorded t d.val 4 clsIF)
        ∧ (bit (reg s r) 0 = false → ∃ t, exec (.xrCtrlWrite (.coachman k) d true x) s = .next t
          ∧ (let ok : Bool := decide (1000 ≤ fld x 0 12 ∧ fld x 0 12 ≤ 4000)
            (reg t (XR_TCSM d.val)).toNat = (if ok then fld x 0 12 else (reg s (XR_TCSM d.val)).toNat)
            ∧ bit (reg t (XR_STATUS d.val)) 2 = (bit (reg s (XR_STATUS d.val)) 2 || !ok))
          ∧ OnlyRegs s t [XR_TCSM d.val, XR_STATUS d.val])
        ∧ (∀ ok : Bool, bit (reg s r) 0 = false → ∃ t, exec (.xrCalRecal (.coachman k) d ok) s = .next t
          ∧ bit (reg t (XR_STATUS d.val)) 0 = ok ∧ (ok = false → bit (reg t (XR_STATUS d.val)) 1 = true)
          ∧ RegsExcept s t [XR_CAL d.val, XR_STATUS d.val] ∧ ChangesOnly s t [.regs, .freeCtr])
        ∧ (∀ ok : Bool, bit (reg s r) 0 = true → ∃ t, exec (.xrCalRecal (.coachman k) d ok) s = .next t ∧ Recorded t d.val 4 clsIF
          ∧ reg t (XR_STATUS d.val) = reg s (XR_STATUS d.val) ∧ reg t (XR_CAL d.val) = reg s (XR_CAL d.val))
        ∧ (∀ q : Fin 4, ∀ i ∈ [Instr.xrCtrlWrite (.port q) d false x, .xrCtrlWrite (.port q) d true x, .xrCalRecal (.port q) d true],
          ∃ t, exec i s = .next t ∧ Recorded t d.val 4 clsSE ∧ RegsExcept s t (FC_CNT d.val 4 clsSE :: deniedRegs (.port q))
            ∧ ChangesOnly s t [.regs, .flt]))
    ∧ (∀ code : Byte,
        (smbUp s.env s.dev = true → ∃ t, exec (.smbusRead code .read) s = .next t ∧ t.dev.pins.smbAnswer = smbValue s.env s.dev code.toNat
          ∧ (code = 0x08 → t.dev.pins.smbAnswer = some (leBytes 4 (hpId s.env 0)))
          ∧ (code = 0x05 → t.dev.pins.smbAnswer = some (leBytes 1 (oppNow s.env s.dev + 16 * ceiling s.env s.dev)))
          ∧ (8 < code.toNat → t.dev.pins.smbAnswer = none) ∧ ChangesOnly s t [.pins])
        ∧ (smbUp s.env s.dev = true → ∃ t, exec (.smbusRead code .readPec) s = .next t
          ∧ t.dev.pins = { s.dev.pins with smbAnswer := (smbValue s.env s.dev code.toNat).map (fun bs => bs ++ [smbPec s.env code.toNat bs]) }
          ∧ ChangesOnly s t [.pins])
        ∧ (∃ t, exec (.smbusRead code .write) s = .next t ∧ t.dev.pins = { s.dev.pins with smbAnswer := none } ∧ ChangesOnly s t [.pins])
        ∧ (smbUp s.env s.dev = false → ∀ use, ∃ t, exec (.smbusRead code use) s = .next t
          ∧ t.dev.pins = { s.dev.pins with smbAnswer := none } ∧ ChangesOnly s t [.pins]))
    ∧ (smbUp s.env s.dev = true → ∃ t, exec .smbusAlertResponse s = .next t
        ∧ t.dev.pins = { s.dev.pins with smbAnswer := some (leBytes 1 (0x58 + s.hw.smbAddr)), smbAlert := s.dev.pins.smbAlert && s.dev.pw.thermtrip }
        ∧ ChangesOnly s t [.pins])
    ∧ (smbUp s.env s.dev = false → ∃ t, exec .smbusAlertResponse s = .next t
        ∧ t.dev.pins = { s.dev.pins with smbAnswer := none } ∧ ChangesOnly s t [.pins])
    ∧ (∀ x ∈ [(Instr.idcode, 1, some (idcode s.hw.part)), (.bypass, 0xFF, some 0), (.debug, 0x20, none)],
        ∃ t, exec x.1 s = .next t ∧ loaded t x.2.1 x.2.2)
    ∧ (fldN (idcode s.hw.part) 0 1 = 1 ∧ fldN (idcode s.hw.part) 1 11 = 0x2C3
        ∧ fldN (idcode s.hw.part) 12 16 = (match s.hw.part with | .vn2_8 => 0x5628 | .vn2_4 => 0x5624 | .vn2_2 => 0x5622))
    ∧ (∀ cells : List Bool, ∃ t, exec (.samplePreload cells) s = .next t ∧ t.dev.pins.ir = 2
        ∧ t.dev.pins.sampled.length = l.length ∧ t.dev.pins.boundary = (t.dev.pins.sampled ++ cells).drop cells.length
        ∧ (∀ (i : Nat) b, l[i]? = some (PinDrive.level b) ∨ l[i]? = some (PinDrive.guarded b) → t.dev.pins.sampled[i]? = some b)
        ∧ ChangesOnly s t [.pins, .freeCtr])
    ∧ (∀ x ∈ [(Instr.extest, 3), (.clamp, 4), (.highz, 5)],
        (s.dev.bu.perst = false → ∃ t, exec x.1 s = .next t ∧ loaded t x.2 none
          ∧ (∀ (i : Nat) b, l[i]? = some (PinDrive.level b) → pinLevel s.env t.dev i = (if x.2 = 5 then none else s.dev.pins.boundary[i]?))
          ∧ (∀ (i : Nat) b, l[i]? = some (PinDrive.guarded b) → pinLevel s.env t.dev i = some b))
        ∧ (s.dev.bu.perst = true → ∃ t, exec x.1 s = .next t ∧ loaded t 0xFF (some 0)
          ∧ ∀ (i : Nat) b, l[i]? = some (PinDrive.level b) → pinLevel s.env t.dev i = some b))
end

