-- ==== Sys2Proof/Laws/Bits.lean ====
section
/-! SUPPORT. Bit fields: reading a field after writing one. -/
namespace Sys2Proof.Machine

open Sys2Proof

theorem setFldN_div (v lo len x : Nat) : setFldN v lo len x / 2 ^ (lo + len) = v / 2 ^ (lo + len) := by
  have h1 : x % 2 ^ len < 2 ^ len := Nat.mod_lt _ (Nat.two_pow_pos len)
  have h2 : v % 2 ^ lo < 2 ^ lo := Nat.mod_lt _ (Nat.two_pow_pos lo)
  have h3 : x % 2 ^ len * 2 ^ lo + v % 2 ^ lo < 2 ^ (lo + len) := by
    rw [Nat.pow_add, Nat.mul_comm (2 ^ lo)]
    calc x % 2 ^ len * 2 ^ lo + v % 2 ^ lo < x % 2 ^ len * 2 ^ lo + 2 ^ lo := by omega
      _ = (x % 2 ^ len + 1) * 2 ^ lo := by rw [Nat.add_mul, Nat.one_mul]
      _ ≤ 2 ^ len * 2 ^ lo := Nat.mul_le_mul_right _ h1
  unfold setFldN
  rw [Nat.add_assoc, Nat.mul_comm, Nat.mul_add_div (Nat.two_pow_pos _), Nat.div_eq_of_lt h3, Nat.add_zero]

theorem setFldN_split (v lo len x : Nat) :
    setFldN v lo len x = 2 ^ lo * (v / 2 ^ (lo + len) * 2 ^ len + x % 2 ^ len) + v % 2 ^ lo := by
  unfold setFldN
  generalize v / 2 ^ (lo + len) = a
  generalize x % 2 ^ len = b
  generalize v % 2 ^ lo = c
  rw [Nat.pow_add]
  generalize 2 ^ lo = p
  generalize 2 ^ len = q
  rw [Nat.mul_add, Nat.mul_comm b p, ← Nat.mul_assoc, ← Nat.mul_assoc, Nat.mul_comm a p]

theorem setFldN_mod (v lo len x : Nat) : setFldN v lo len x % 2 ^ lo = v % 2 ^ lo := by
  rw [setFldN_split, Nat.mul_add_mod, Nat.mod_mod]

theorem fldN_setFldN_same (v lo len x : Nat) : fldN (setFldN v lo len x) lo len = x % 2 ^ len := by
  rw [fldN, setFldN_split, Nat.mul_add_div (Nat.two_pow_pos _), Nat.div_eq_of_lt (Nat.mod_lt _ (Nat.two_pow_pos _)), Nat.add_zero,
    Nat.mul_comm, Nat.mul_add_mod, Nat.mod_mod]

theorem fldN_eq (v i n : Nat) : fldN v i n = v % 2 ^ (i + n) / 2 ^ i := by
  rw [fldN, Nat.pow_add, Nat.mod_mul_right_div_self]

/-- A field below the one written keeps its value. -/
theorem fldN_setFldN_below (v lo len x i n : Nat) (h : i + n ≤ lo) : fldN (setFldN v lo len x) i n = fldN v i n := by
  rw [fldN_eq, fldN_eq]
  have hd : 2 ^ (i + n) ∣ 2 ^ lo := Nat.pow_dvd_pow 2 h
  rw [← Nat.mod_mod_of_dvd (setFldN v lo len x) hd, setFldN_mod, Nat.mod_mod_of_dvd v hd]

/-- A field above the one written keeps its value. -/
theorem fldN_setFldN_above (v lo len x i n : Nat) (h : lo + len ≤ i) : fldN (setFldN v lo len x) i n = fldN v i n := by
  obtain ⟨k, rfl⟩ := Nat.exists_eq_add_of_le h
  simp only [fldN]
  rw [Nat.pow_add 2 (lo + len) k, ← Nat.div_div_eq_div_mul, setFldN_div, Nat.div_div_eq_div_mul]

theorem setFldN_lt (v lo len x : Nat) (hv : v < 2 ^ 32) (h : lo + len ≤ 32) : setFldN v lo len x < 2 ^ 32 := by
  obtain ⟨k, hk⟩ := Nat.exists_eq_add_of_le h
  have h1 : setFldN v lo len x / 2 ^ (lo + len) = v / 2 ^ (lo + len) := setFldN_div v lo len x
  have h2 : v / 2 ^ (lo + len) < 2 ^ k := by
    rw [Nat.div_lt_iff_lt_mul (Nat.two_pow_pos _), ← Nat.pow_add, Nat.add_comm k, ← hk]; exact hv
  rw [hk, Nat.add_comm, Nat.pow_add, ← Nat.div_lt_iff_lt_mul (Nat.two_pow_pos _), h1]
  exact h2

theorem setFld_toNat (w : Word) (lo len x : Nat) (h : lo + len ≤ 32) : (setFld w lo len x).toNat = setFldN w.toNat lo len x := by
  rw [setFld, BitVec.toNat_ofNat]
  exact Nat.mod_eq_of_lt (setFldN_lt _ _ _ _ w.isLt h)

theorem fld_setFld_same (w : Word) (lo len x : Nat) (h : lo + len ≤ 32) : fld (setFld w lo len x) lo len = x % 2 ^ len := by
  rw [fld, setFld_toNat w lo len x h, fldN_setFldN_same]

/-- A field that does not meet the one written keeps its value. -/
theorem fld_setFld_other (w : Word) (lo len x i n : Nat) (h : lo + len ≤ 32) (hd : i + n ≤ lo ∨ lo + len ≤ i) :
    fld (setFld w lo len x) i n = fld w i n := by
  rw [fld, setFld_toNat w lo len x h]
  rcases hd with hd | hd
  · exact fldN_setFldN_below _ _ _ _ _ _ hd
  · exact fldN_setFldN_above _ _ _ _ _ _ hd

theorem bit_setBit_same (w : Word) (i : Nat) (b : Bool) (h : i < 32) : bit (setBit w i b) i = b := by
  rw [bit, setBit, fld_setFld_same w i 1 _ (by omega)]
  cases b <;> rfl

theorem bit_setBit_other (w : Word) (i j : Nat) (b : Bool) (h : i < 32) (hd : j ≠ i) : bit (setBit w i b) j = bit w j := by
  rw [bit, setBit, fld_setFld_other w i 1 _ j 1 (by omega) (by omega)]; rfl

theorem fld_setBit_other (w : Word) (i lo len : Nat) (b : Bool) (h : i < 32) (hd : lo + len ≤ i ∨ i + 1 ≤ lo) :
    fld (setBit w i b) lo len = fld w lo len := fld_setFld_other w i 1 _ lo len (by omega) hd

theorem bit_setFld_other (w : Word) (lo len x i : Nat) (h : lo + len ≤ 32) (hd : i < lo ∨ lo + len ≤ i) :
    bit (setFld w lo len x) i = bit w i := by
  rw [bit, fld_setFld_other w lo len x i 1 h (by omega)]; rfl

theorem w32_toNat (n : Nat) : (w32 n).toNat = n % 2 ^ 32 := by simp [w32]

end Sys2Proof.Machine
end

