-- ==== Sys2Proof/Laws/Map.lean ====
section
/-! SUPPORT. Sparse maps: reading after writing, and that every operation keeps the canonical form. -/
namespace Sys2Proof.Machine

variable {α : Type}

@[simp] theorem SMap.get_nil (d : α) (k : Nat) : SMap.get d ([] : SMap α) k = d := rfl

theorem SMap.get_erase (d : α) (m : SMap α) (k j : Nat) :
    SMap.get d (m.erase k) j = if j = k then d else SMap.get d m j := by
  induction m with
  | nil => simp [SMap.erase]
  | cons e m ih =>
    obtain ⟨a, x⟩ := e
    by_cases hk : a = k
    · subst hk
      by_cases hj : j = a
      · simpa [SMap.erase, hj] using ih
      · simp only [SMap.erase, if_true, ih, hj, if_false, SMap.get]
        rw [if_neg (fun h => hj h.symm)]
    · simp only [SMap.erase, hk, if_false, SMap.get, ih]
      by_cases ha : a = j
      · subst ha; simp [hk]
      · simp [ha]

theorem SMap.get_insert (d : α) (m : SMap α) (k j : Nat) (x : α) (h : ∀ e ∈ m, e.1 ≠ k) :
    SMap.get d (m.insert k x) j = if j = k then x else SMap.get d m j := by
  induction m with
  | nil => by_cases hj : k = j <;> simp [SMap.insert, SMap.get, hj, eq_comm]
  | cons e m ih =>
    obtain ⟨a, y⟩ := e
    have hak : a ≠ k := h (a, y) List.mem_cons_self
    have ih := ih (fun e he => h e (by simp [he]))
    by_cases hlt : k < a
    · simp only [SMap.insert, hlt, if_true, SMap.get]
      by_cases hj : j = k
      · simp [hj]
      · simp [hj, Ne.symm hj]
    · simp only [SMap.insert, hlt, if_false, SMap.get, ih]
      by_cases ha : a = j
      · subst ha; simp [hak]
      · simp [ha]

theorem SMap.erase_keys (m : SMap α) (k : Nat) : ∀ e ∈ m.erase k, e.1 ≠ k := by
  induction m with
  | nil => simp [SMap.erase]
  | cons e m ih =>
    obtain ⟨a, x⟩ := e
    by_cases hk : a = k
    · simpa [SMap.erase, hk] using ih
    · simp only [SMap.erase, hk, if_false, List.mem_cons]
      rintro e (rfl | he)
      · exact hk
      · exact ih e he

/-- Reading after writing. -/
theorem SMap.get_set [DecidableEq α] (d : α) (m : SMap α) (k j : Nat) (x : α) :
    SMap.get d (SMap.set d m k x) j = if j = k then x else SMap.get d m j := by
  unfold SMap.set
  split
  · next h => rw [SMap.get_erase]; split <;> simp_all
  · rw [SMap.get_insert d _ _ _ _ (SMap.erase_keys m k), SMap.get_erase]
    split <;> simp_all

@[simp] theorem SMap.get_set_same [DecidableEq α] (d : α) (m : SMap α) (k : Nat) (x : α) :
    SMap.get d (SMap.set d m k x) k = x := by simp [SMap.get_set]

/-- Writing one key leaves every other, whatever default each is read with. -/
theorem SMap.get_set_ne [DecidableEq α] (d e : α) (m : SMap α) {k j : Nat} (x : α) (h : j ≠ k) :
    SMap.get e (SMap.set d m k x) j = SMap.get e m j := by
  unfold SMap.set
  split
  · rw [SMap.get_erase, if_neg h]
  · rw [SMap.get_insert e _ _ _ _ (SMap.erase_keys m k), SMap.get_erase, if_neg h, if_neg h]

/-! ## The canonical form -/

theorem SMap.sorted_cons_iff (k : Nat) (x : α) (m : SMap α) :
    SMap.sorted ((k, x) :: m) = true ↔ (∀ e ∈ m, k < e.1) ∧ SMap.sorted m = true := by
  induction m generalizing k x with
  | nil => simp [SMap.sorted]
  | cons e m ih =>
    obtain ⟨a, y⟩ := e
    simp only [SMap.sorted, Bool.and_eq_true, decide_eq_true_eq, List.mem_cons, forall_eq_or_imp]
    constructor
    · rintro ⟨h1, h2⟩
      exact ⟨⟨h1, fun e he => Nat.lt_trans h1 (((ih a y).1 h2).1 e he)⟩, h2⟩
    · rintro ⟨⟨h1, -⟩, h2⟩
      exact ⟨h1, h2⟩

theorem SMap.mem_erase (m : SMap α) (k : Nat) (e : Nat × α) (h : e ∈ m.erase k) : e ∈ m := by
  induction m with
  | nil => simp [SMap.erase] at h
  | cons a m ih =>
    obtain ⟨b, x⟩ := a
    by_cases hk : b = k
    · simp only [SMap.erase, hk, if_true] at h
      exact List.mem_cons_of_mem _ (ih h)
    · simp only [SMap.erase, hk, if_false, List.mem_cons] at h ⊢
      exact h.imp id ih

theorem SMap.sorted_erase (m : SMap α) (k : Nat) (h : SMap.sorted m = true) : SMap.sorted (m.erase k) = true := by
  induction m with
  | nil => rfl
  | cons a m ih =>
    obtain ⟨b, x⟩ := a
    rw [SMap.sorted_cons_iff] at h
    by_cases hk : b = k
    · simpa [SMap.erase, hk] using ih h.2
    · simp only [SMap.erase, hk, if_false, SMap.sorted_cons_iff]
      exact ⟨fun e he => h.1 e (SMap.mem_erase m k e he), ih h.2⟩

theorem SMap.mem_insert (m : SMap α) (k : Nat) (x : α) (e : Nat × α) : e ∈ m.insert k x ↔ e = (k, x) ∨ e ∈ m := by
  induction m with
  | nil => simp [SMap.insert]
  | cons a m ih =>
    obtain ⟨b, y⟩ := a
    by_cases hk : k < b
    · simp [SMap.insert, hk]
    · simp only [SMap.insert, hk, if_false, List.mem_cons, ih]
      exact or_left_comm

theorem SMap.sorted_insert (m : SMap α) (k : Nat) (x : α) (hs : SMap.sorted m = true) (hk : ∀ e ∈ m, e.1 ≠ k) :
    SMap.sorted (m.insert k x) = true := by
  induction m with
  | nil => rfl
  | cons a m ih =>
    obtain ⟨b, y⟩ := a
    have hb : b ≠ k := hk (b, y) List.mem_cons_self
    rw [SMap.sorted_cons_iff] at hs
    by_cases h : k < b
    · rw [SMap.insert, if_pos h, SMap.sorted_cons_iff, SMap.sorted_cons_iff]
      refine ⟨fun e he => ?_, hs.1, hs.2⟩
      rcases List.mem_cons.1 he with rfl | he
      · exact h
      · exact Nat.lt_trans h (hs.1 e he)
    · simp only [SMap.insert, h, if_false, SMap.sorted_cons_iff]
      refine ⟨fun e he => ?_, ih hs.2 (fun e he => hk e (by simp [he]))⟩
      rcases (SMap.mem_insert m k x e).1 he with rfl | he
      · simp only; omega
      · exact hs.1 e he

theorem SMap.sorted_set [DecidableEq α] (d : α) (m : SMap α) (k : Nat) (x : α) (h : SMap.sorted m = true) :
    SMap.sorted (SMap.set d m k x) = true := by
  unfold SMap.set
  split
  · exact SMap.sorted_erase m k h
  · exact SMap.sorted_insert _ _ _ (SMap.sorted_erase m k h) (SMap.erase_keys m k)

theorem SMap.noDefault_set [DecidableEq α] (d : α) (m : SMap α) (k : Nat) (x : α)
    (h : SMap.noDefault (fun _ => d) m = true) : SMap.noDefault (fun _ => d) (SMap.set d m k x) = true := by
  simp only [SMap.noDefault, List.all_eq_true, decide_eq_true_eq] at h ⊢
  unfold SMap.set
  split
  · exact fun e he => h e (SMap.mem_erase m k e he)
  · next hx =>
    intro e he
    rcases (SMap.mem_insert _ k x e).1 he with rfl | he
    · exact hx
    · exact h e (SMap.mem_erase m k e he)

theorem SMap.sorted_filter (p : Nat × α → Bool) (m : SMap α) (h : SMap.sorted m = true) : SMap.sorted (m.filter p) = true := by
  induction m with
  | nil => rfl
  | cons a m ih =>
    obtain ⟨b, y⟩ := a
    rw [SMap.sorted_cons_iff] at h
    by_cases hp : p (b, y) = true
    · rw [List.filter_cons_of_pos hp, SMap.sorted_cons_iff]
      exact ⟨fun e he => h.1 e ((List.mem_filter.1 he).1), ih h.2⟩
    · rw [List.filter_cons_of_neg hp]
      exact ih h.2

theorem SMap.noDefault_filter [DecidableEq α] (d : Nat → α) (p : Nat × α → Bool) (m : SMap α)
    (h : SMap.noDefault d m = true) : SMap.noDefault d (m.filter p) = true := by
  simp only [SMap.noDefault, List.all_eq_true] at h ⊢
  exact fun e he => h e ((List.mem_filter.1 he).1)

end Sys2Proof.Machine
end

