-- ==== Sys2Proof/Laws/State.lean ====
section
/-! SUPPORT. State and its parts: one lemma per field per update, so that no later proof unfolds a record update. -/
namespace Sys2Proof.Machine

open Sys2Proof

/-! ## State.onDev -/

@[simp] theorem State.onDev_hw (s : State) (f : Env → Dev → Dev) : (s.onDev f).hw = s.hw := rfl
@[simp] theorem State.onDev_clk (s : State) (f : Env → Dev → Dev) : (s.onDev f).clk = s.clk := rfl
@[simp] theorem State.onDev_pending (s : State) (f : Env → Dev → Dev) : (s.onDev f).pending = s.pending := rfl
@[simp] theorem State.onDev_dev (s : State) (f : Env → Dev → Dev) : (s.onDev f).dev = f s.env s.dev := rfl
@[simp] theorem State.onDev_env (s : State) (f : Env → Dev → Dev) : (s.onDev f).env = s.env := rfl

/-- What a meaning of the common shape leaves alone. -/
theorem State.onDev_answers {s t : State} {f : Env → Dev → Dev}
    (h : (Host.Outcome.next (s.onDev f) : Host.Outcome State Fault Refusal) = .next t) :
    t.hw = s.hw ∧ t.clk = s.clk ∧ t.pending = s.pending := by
  injection h with h
  subst h
  exact ⟨rfl, rfl, rfl⟩

/-! ## State.onClk: the work of a block, whose domain runs or stands still -/

@[simp] theorem State.onClk_hw (s : State) (d p : Nat) (f : Env → Dev → Dev) : (s.onClk d p f).hw = s.hw := rfl
@[simp] theorem State.onClk_clk (s : State) (d p : Nat) (f : Env → Dev → Dev) : (s.onClk d p f).clk = s.clk := rfl
@[simp] theorem State.onClk_pending (s : State) (d p : Nat) (f : Env → Dev → Dev) : (s.onClk d p f).pending = s.pending := rfl

theorem State.onClk_still (s : State) (d p : Nat) (f : Env → Dev → Dev) (h : s.dev.still d p = true) : s.onClk d p f = s := by
  simp [State.onClk, State.onDev, h]

theorem State.onClk_clocked (s : State) (d p : Nat) (f : Env → Dev → Dev) (h : s.dev.still d p = false) : s.onClk d p f = s.onDev f := by
  simp [State.onClk, State.onDev, h]

/-! ## Registers -/

@[simp] theorem Dev.wr_latch (v : Dev) (r : Reg) (x : Word) : (v.wr r x).latch = v.latch := rfl
@[simp] theorem Dev.wr_rdata (v : Dev) (r : Reg) (x : Word) : (v.wr r x).rdata = v.rdata := rfl
@[simp] theorem Dev.wr_mem (v : Dev) (r : Reg) (x : Word) : (v.wr r x).mem = v.mem := rfl
@[simp] theorem Dev.wr_freeCtr (v : Dev) (r : Reg) (x : Word) : (v.wr r x).freeCtr = v.freeCtr := rfl
@[simp] theorem Dev.wr_tick (v : Dev) (r : Reg) (x : Word) : (v.wr r x).tick = v.tick := rfl
@[simp] theorem Dev.wr_bus (v : Dev) (r : Reg) (x : Word) : (v.wr r x).bus = v.bus := rfl
@[simp] theorem Dev.wr_cores (v : Dev) (r : Reg) (x : Word) : (v.wr r x).cores = v.cores := rfl
@[simp] theorem Dev.wr_fab (v : Dev) (r : Reg) (x : Word) : (v.wr r x).fab = v.fab := rfl
@[simp] theorem Dev.wr_place (v : Dev) (r : Reg) (x : Word) : (v.wr r x).place = v.place := rfl
@[simp] theorem Dev.wr_flt (v : Dev) (r : Reg) (x : Word) : (v.wr r x).flt = v.flt := rfl
@[simp] theorem Dev.wr_churns (v : Dev) (r : Reg) (x : Word) : (v.wr r x).churns = v.churns := rfl
@[simp] theorem Dev.wr_net (v : Dev) (r : Reg) (x : Word) : (v.wr r x).net = v.net := rfl
@[simp] theorem Dev.wr_seps (v : Dev) (r : Reg) (x : Word) : (v.wr r x).seps = v.seps := rfl
@[simp] theorem Dev.wr_fus (v : Dev) (r : Reg) (x : Word) : (v.wr r x).fus = v.fus := rfl
@[simp] theorem Dev.wr_ports (v : Dev) (r : Reg) (x : Word) : (v.wr r x).ports = v.ports := rfl
@[simp] theorem Dev.wr_coaches (v : Dev) (r : Reg) (x : Word) : (v.wr r x).coaches = v.coaches := rfl
@[simp] theorem Dev.wr_traces (v : Dev) (r : Reg) (x : Word) : (v.wr r x).traces = v.traces := rfl
@[simp] theorem Dev.wr_fw (v : Dev) (r : Reg) (x : Word) : (v.wr r x).fw = v.fw := rfl
@[simp] theorem Dev.wr_crock (v : Dev) (r : Reg) (x : Word) : (v.wr r x).crock = v.crock := rfl
@[simp] theorem Dev.wr_bu (v : Dev) (r : Reg) (x : Word) : (v.wr r x).bu = v.bu := rfl
@[simp] theorem Dev.wr_pw (v : Dev) (r : Reg) (x : Word) : (v.wr r x).pw = v.pw := rfl
@[simp] theorem Dev.wr_pins (v : Dev) (r : Reg) (x : Word) : (v.wr r x).pins = v.pins := rfl
@[simp] theorem Dev.wr_dieDown (v : Dev) (r : Reg) (x : Word) : (v.wr r x).dieDown = v.dieDown := rfl

/-! ## The parts of the package -/

@[simp] theorem Dev.modPort_regs (v : Dev) (p : Nat) (f : Port → Port) : (v.modPort p f).regs = v.regs := rfl
@[simp] theorem Dev.modPort_latch (v : Dev) (p : Nat) (f : Port → Port) : (v.modPort p f).latch = v.latch := rfl
@[simp] theorem Dev.modPort_rdata (v : Dev) (p : Nat) (f : Port → Port) : (v.modPort p f).rdata = v.rdata := rfl
@[simp] theorem Dev.modPort_mem (v : Dev) (p : Nat) (f : Port → Port) : (v.modPort p f).mem = v.mem := rfl
@[simp] theorem Dev.modPort_freeCtr (v : Dev) (p : Nat) (f : Port → Port) : (v.modPort p f).freeCtr = v.freeCtr := rfl
@[simp] theorem Dev.modPort_tick (v : Dev) (p : Nat) (f : Port → Port) : (v.modPort p f).tick = v.tick := rfl
@[simp] theorem Dev.modPort_bus (v : Dev) (p : Nat) (f : Port → Port) : (v.modPort p f).bus = v.bus := rfl
@[simp] theorem Dev.modPort_cores (v : Dev) (p : Nat) (f : Port → Port) : (v.modPort p f).cores = v.cores := rfl
@[simp] theorem Dev.modPort_fab (v : Dev) (p : Nat) (f : Port → Port) : (v.modPort p f).fab = v.fab := rfl
@[simp] theorem Dev.modPort_place (v : Dev) (p : Nat) (f : Port → Port) : (v.modPort p f).place = v.place := rfl
@[simp] theorem Dev.modPort_flt (v : Dev) (p : Nat) (f : Port → Port) : (v.modPort p f).flt = v.flt := rfl
@[simp] theorem Dev.modPort_churns (v : Dev) (p : Nat) (f : Port → Port) : (v.modPort p f).churns = v.churns := rfl
@[simp] theorem Dev.modPort_net (v : Dev) (p : Nat) (f : Port → Port) : (v.modPort p f).net = v.net := rfl
@[simp] theorem Dev.modPort_seps (v : Dev) (p : Nat) (f : Port → Port) : (v.modPort p f).seps = v.seps := rfl
@[simp] theorem Dev.modPort_fus (v : Dev) (p : Nat) (f : Port → Port) : (v.modPort p f).fus = v.fus := rfl
@[simp] theorem Dev.modPort_coaches (v : Dev) (p : Nat) (f : Port → Port) : (v.modPort p f).coaches = v.coaches := rfl
@[simp] theorem Dev.modPort_traces (v : Dev) (p : Nat) (f : Port → Port) : (v.modPort p f).traces = v.traces := rfl
@[simp] theorem Dev.modPort_fw (v : Dev) (p : Nat) (f : Port → Port) : (v.modPort p f).fw = v.fw := rfl
@[simp] theorem Dev.modPort_crock (v : Dev) (p : Nat) (f : Port → Port) : (v.modPort p f).crock = v.crock := rfl
@[simp] theorem Dev.modPort_bu (v : Dev) (p : Nat) (f : Port → Port) : (v.modPort p f).bu = v.bu := rfl
@[simp] theorem Dev.modPort_pw (v : Dev) (p : Nat) (f : Port → Port) : (v.modPort p f).pw = v.pw := rfl
@[simp] theorem Dev.modPort_pins (v : Dev) (p : Nat) (f : Port → Port) : (v.modPort p f).pins = v.pins := rfl
@[simp] theorem Dev.modPort_dieDown (v : Dev) (p : Nat) (f : Port → Port) : (v.modPort p f).dieDown = v.dieDown := rfl
@[simp] theorem Dev.modCoach_regs (v : Dev) (g : Nat) (f : Coach → Coach) : (v.modCoach g f).regs = v.regs := rfl
@[simp] theorem Dev.modCoach_latch (v : Dev) (g : Nat) (f : Coach → Coach) : (v.modCoach g f).latch = v.latch := rfl
@[simp] theorem Dev.modCoach_rdata (v : Dev) (g : Nat) (f : Coach → Coach) : (v.modCoach g f).rdata = v.rdata := rfl
@[simp] theorem Dev.modCoach_mem (v : Dev) (g : Nat) (f : Coach → Coach) : (v.modCoach g f).mem = v.mem := rfl
@[simp] theorem Dev.modCoach_freeCtr (v : Dev) (g : Nat) (f : Coach → Coach) : (v.modCoach g f).freeCtr = v.freeCtr := rfl
@[simp] theorem Dev.modCoach_tick (v : Dev) (g : Nat) (f : Coach → Coach) : (v.modCoach g f).tick = v.tick := rfl
@[simp] theorem Dev.modCoach_bus (v : Dev) (g : Nat) (f : Coach → Coach) : (v.modCoach g f).bus = v.bus := rfl
@[simp] theorem Dev.modCoach_cores (v : Dev) (g : Nat) (f : Coach → Coach) : (v.modCoach g f).cores = v.cores := rfl
@[simp] theorem Dev.modCoach_fab (v : Dev) (g : Nat) (f : Coach → Coach) : (v.modCoach g f).fab = v.fab := rfl
@[simp] theorem Dev.modCoach_place (v : Dev) (g : Nat) (f : Coach → Coach) : (v.modCoach g f).place = v.place := rfl
@[simp] theorem Dev.modCoach_flt (v : Dev) (g : Nat) (f : Coach → Coach) : (v.modCoach g f).flt = v.flt := rfl
@[simp] theorem Dev.modCoach_churns (v : Dev) (g : Nat) (f : Coach → Coach) : (v.modCoach g f).churns = v.churns := rfl
@[simp] theorem Dev.modCoach_net (v : Dev) (g : Nat) (f : Coach → Coach) : (v.modCoach g f).net = v.net := rfl
@[simp] theorem Dev.modCoach_seps (v : Dev) (g : Nat) (f : Coach → Coach) : (v.modCoach g f).seps = v.seps := rfl
@[simp] theorem Dev.modCoach_fus (v : Dev) (g : Nat) (f : Coach → Coach) : (v.modCoach g f).fus = v.fus := rfl
@[simp] theorem Dev.modCoach_ports (v : Dev) (g : Nat) (f : Coach → Coach) : (v.modCoach g f).ports = v.ports := rfl
@[simp] theorem Dev.modCoach_traces (v : Dev) (g : Nat) (f : Coach → Coach) : (v.modCoach g f).traces = v.traces := rfl
@[simp] theorem Dev.modCoach_fw (v : Dev) (g : Nat) (f : Coach → Coach) : (v.modCoach g f).fw = v.fw := rfl
@[simp] theorem Dev.modCoach_crock (v : Dev) (g : Nat) (f : Coach → Coach) : (v.modCoach g f).crock = v.crock := rfl
@[simp] theorem Dev.modCoach_bu (v : Dev) (g : Nat) (f : Coach → Coach) : (v.modCoach g f).bu = v.bu := rfl
@[simp] theorem Dev.modCoach_pw (v : Dev) (g : Nat) (f : Coach → Coach) : (v.modCoach g f).pw = v.pw := rfl
@[simp] theorem Dev.modCoach_pins (v : Dev) (g : Nat) (f : Coach → Coach) : (v.modCoach g f).pins = v.pins := rfl
@[simp] theorem Dev.modCoach_dieDown (v : Dev) (g : Nat) (f : Coach → Coach) : (v.modCoach g f).dieDown = v.dieDown := rfl
@[simp] theorem Dev.modGen_regs (v : Dev) (g : Nat) (f : TickGen → TickGen) : (v.modGen g f).regs = v.regs := rfl
@[simp] theorem Dev.modGen_latch (v : Dev) (g : Nat) (f : TickGen → TickGen) : (v.modGen g f).latch = v.latch := rfl
@[simp] theorem Dev.modGen_rdata (v : Dev) (g : Nat) (f : TickGen → TickGen) : (v.modGen g f).rdata = v.rdata := rfl
@[simp] theorem Dev.modGen_mem (v : Dev) (g : Nat) (f : TickGen → TickGen) : (v.modGen g f).mem = v.mem := rfl
@[simp] theorem Dev.modGen_freeCtr (v : Dev) (g : Nat) (f : TickGen → TickGen) : (v.modGen g f).freeCtr = v.freeCtr := rfl
@[simp] theorem Dev.modGen_bus (v : Dev) (g : Nat) (f : TickGen → TickGen) : (v.modGen g f).bus = v.bus := rfl
@[simp] theorem Dev.modGen_cores (v : Dev) (g : Nat) (f : TickGen → TickGen) : (v.modGen g f).cores = v.cores := rfl
@[simp] theorem Dev.modGen_fab (v : Dev) (g : Nat) (f : TickGen → TickGen) : (v.modGen g f).fab = v.fab := rfl
@[simp] theorem Dev.modGen_place (v : Dev) (g : Nat) (f : TickGen → TickGen) : (v.modGen g f).place = v.place := rfl
@[simp] theorem Dev.modGen_flt (v : Dev) (g : Nat) (f : TickGen → TickGen) : (v.modGen g f).flt = v.flt := rfl
@[simp] theorem Dev.modGen_churns (v : Dev) (g : Nat) (f : TickGen → TickGen) : (v.modGen g f).churns = v.churns := rfl
@[simp] theorem Dev.modGen_net (v : Dev) (g : Nat) (f : TickGen → TickGen) : (v.modGen g f).net = v.net := rfl
@[simp] theorem Dev.modGen_seps (v : Dev) (g : Nat) (f : TickGen → TickGen) : (v.modGen g f).seps = v.seps := rfl
@[simp] theorem Dev.modGen_fus (v : Dev) (g : Nat) (f : TickGen → TickGen) : (v.modGen g f).fus = v.fus := rfl
@[simp] theorem Dev.modGen_ports (v : Dev) (g : Nat) (f : TickGen → TickGen) : (v.modGen g f).ports = v.ports := rfl
@[simp] theorem Dev.modGen_coaches (v : Dev) (g : Nat) (f : TickGen → TickGen) : (v.modGen g f).coaches = v.coaches := rfl
@[simp] theorem Dev.modGen_traces (v : Dev) (g : Nat) (f : TickGen → TickGen) : (v.modGen g f).traces = v.traces := rfl
@[simp] theorem Dev.modGen_fw (v : Dev) (g : Nat) (f : TickGen → TickGen) : (v.modGen g f).fw = v.fw := rfl
@[simp] theorem Dev.modGen_crock (v : Dev) (g : Nat) (f : TickGen → TickGen) : (v.modGen g f).crock = v.crock := rfl
@[simp] theorem Dev.modGen_bu (v : Dev) (g : Nat) (f : TickGen → TickGen) : (v.modGen g f).bu = v.bu := rfl
@[simp] theorem Dev.modGen_pw (v : Dev) (g : Nat) (f : TickGen → TickGen) : (v.modGen g f).pw = v.pw := rfl
@[simp] theorem Dev.modGen_pins (v : Dev) (g : Nat) (f : TickGen → TickGen) : (v.modGen g f).pins = v.pins := rfl
@[simp] theorem Dev.modGen_dieDown (v : Dev) (g : Nat) (f : TickGen → TickGen) : (v.modGen g f).dieDown = v.dieDown := rfl
@[simp] theorem Dev.modCore_regs (v : Dev) (p : Nat) (f : Core → Core) : (v.modCore p f).regs = v.regs := rfl
@[simp] theorem Dev.modCore_latch (v : Dev) (p : Nat) (f : Core → Core) : (v.modCore p f).latch = v.latch := rfl
@[simp] theorem Dev.modCore_rdata (v : Dev) (p : Nat) (f : Core → Core) : (v.modCore p f).rdata = v.rdata := rfl
@[simp] theorem Dev.modCore_mem (v : Dev) (p : Nat) (f : Core → Core) : (v.modCore p f).mem = v.mem := rfl
@[simp] theorem Dev.modCore_freeCtr (v : Dev) (p : Nat) (f : Core → Core) : (v.modCore p f).freeCtr = v.freeCtr := rfl
@[simp] theorem Dev.modCore_tick (v : Dev) (p : Nat) (f : Core → Core) : (v.modCore p f).tick = v.tick := rfl
@[simp] theorem Dev.modCore_bus (v : Dev) (p : Nat) (f : Core → Core) : (v.modCore p f).bus = v.bus := rfl
@[simp] theorem Dev.modCore_fab (v : Dev) (p : Nat) (f : Core → Core) : (v.modCore p f).fab = v.fab := rfl
@[simp] theorem Dev.modCore_place (v : Dev) (p : Nat) (f : Core → Core) : (v.modCore p f).place = v.place := rfl
@[simp] theorem Dev.modCore_flt (v : Dev) (p : Nat) (f : Core → Core) : (v.modCore p f).flt = v.flt := rfl
@[simp] theorem Dev.modCore_churns (v : Dev) (p : Nat) (f : Core → Core) : (v.modCore p f).churns = v.churns := rfl
@[simp] theorem Dev.modCore_net (v : Dev) (p : Nat) (f : Core → Core) : (v.modCore p f).net = v.net := rfl
@[simp] theorem Dev.modCore_seps (v : Dev) (p : Nat) (f : Core → Core) : (v.modCore p f).seps = v.seps := rfl
@[simp] theorem Dev.modCore_fus (v : Dev) (p : Nat) (f : Core → Core) : (v.modCore p f).fus = v.fus := rfl
@[simp] theorem Dev.modCore_ports (v : Dev) (p : Nat) (f : Core → Core) : (v.modCore p f).ports = v.ports := rfl
@[simp] theorem Dev.modCore_coaches (v : Dev) (p : Nat) (f : Core → Core) : (v.modCore p f).coaches = v.coaches := rfl
@[simp] theorem Dev.modCore_traces (v : Dev) (p : Nat) (f : Core → Core) : (v.modCore p f).traces = v.traces := rfl
@[simp] theorem Dev.modCore_fw (v : Dev) (p : Nat) (f : Core → Core) : (v.modCore p f).fw = v.fw := rfl
@[simp] theorem Dev.modCore_crock (v : Dev) (p : Nat) (f : Core → Core) : (v.modCore p f).crock = v.crock := rfl
@[simp] theorem Dev.modCore_bu (v : Dev) (p : Nat) (f : Core → Core) : (v.modCore p f).bu = v.bu := rfl
@[simp] theorem Dev.modCore_pw (v : Dev) (p : Nat) (f : Core → Core) : (v.modCore p f).pw = v.pw := rfl
@[simp] theorem Dev.modCore_pins (v : Dev) (p : Nat) (f : Core → Core) : (v.modCore p f).pins = v.pins := rfl
@[simp] theorem Dev.modCore_dieDown (v : Dev) (p : Nat) (f : Core → Core) : (v.modCore p f).dieDown = v.dieDown := rfl
@[simp] theorem Dev.modTick_regs (v : Dev) (f : TickState → TickState) : (v.modTick f).regs = v.regs := rfl
@[simp] theorem Dev.modTick_latch (v : Dev) (f : TickState → TickState) : (v.modTick f).latch = v.latch := rfl
@[simp] theorem Dev.modTick_rdata (v : Dev) (f : TickState → TickState) : (v.modTick f).rdata = v.rdata := rfl
@[simp] theorem Dev.modTick_mem (v : Dev) (f : TickState → TickState) : (v.modTick f).mem = v.mem := rfl
@[simp] theorem Dev.modTick_freeCtr (v : Dev) (f : TickState → TickState) : (v.modTick f).freeCtr = v.freeCtr := rfl
@[simp] theorem Dev.modTick_bus (v : Dev) (f : TickState → TickState) : (v.modTick f).bus = v.bus := rfl
@[simp] theorem Dev.modTick_cores (v : Dev) (f : TickState → TickState) : (v.modTick f).cores = v.cores := rfl
@[simp] theorem Dev.modTick_fab (v : Dev) (f : TickState → TickState) : (v.modTick f).fab = v.fab := rfl
@[simp] theorem Dev.modTick_place (v : Dev) (f : TickState → TickState) : (v.modTick f).place = v.place := rfl
@[simp] theorem Dev.modTick_flt (v : Dev) (f : TickState → TickState) : (v.modTick f).flt = v.flt := rfl
@[simp] theorem Dev.modTick_churns (v : Dev) (f : TickState → TickState) : (v.modTick f).churns = v.churns := rfl
@[simp] theorem Dev.modTick_net (v : Dev) (f : TickState → TickState) : (v.modTick f).net = v.net := rfl
@[simp] theorem Dev.modTick_seps (v : Dev) (f : TickState → TickState) : (v.modTick f).seps = v.seps := rfl
@[simp] theorem Dev.modTick_fus (v : Dev) (f : TickState → TickState) : (v.modTick f).fus = v.fus := rfl
@[simp] theorem Dev.modTick_ports (v : Dev) (f : TickState → TickState) : (v.modTick f).ports = v.ports := rfl
@[simp] theorem Dev.modTick_coaches (v : Dev) (f : TickState → TickState) : (v.modTick f).coaches = v.coaches := rfl
@[simp] theorem Dev.modTick_traces (v : Dev) (f : TickState → TickState) : (v.modTick f).traces = v.traces := rfl
@[simp] theorem Dev.modTick_fw (v : Dev) (f : TickState → TickState) : (v.modTick f).fw = v.fw := rfl
@[simp] theorem Dev.modTick_crock (v : Dev) (f : TickState → TickState) : (v.modTick f).crock = v.crock := rfl
@[simp] theorem Dev.modTick_bu (v : Dev) (f : TickState → TickState) : (v.modTick f).bu = v.bu := rfl
@[simp] theorem Dev.modTick_pw (v : Dev) (f : TickState → TickState) : (v.modTick f).pw = v.pw := rfl
@[simp] theorem Dev.modTick_pins (v : Dev) (f : TickState → TickState) : (v.modTick f).pins = v.pins := rfl
@[simp] theorem Dev.modTick_dieDown (v : Dev) (f : TickState → TickState) : (v.modTick f).dieDown = v.dieDown := rfl
@[simp] theorem Dev.modNet_regs (v : Dev) (f : NetState → NetState) : (v.modNet f).regs = v.regs := rfl
@[simp] theorem Dev.modNet_latch (v : Dev) (f : NetState → NetState) : (v.modNet f).latch = v.latch := rfl
@[simp] theorem Dev.modNet_rdata (v : Dev) (f : NetState → NetState) : (v.modNet f).rdata = v.rdata := rfl
@[simp] theorem Dev.modNet_mem (v : Dev) (f : NetState → NetState) : (v.modNet f).mem = v.mem := rfl
@[simp] theorem Dev.modNet_freeCtr (v : Dev) (f : NetState → NetState) : (v.modNet f).freeCtr = v.freeCtr := rfl
@[simp] theorem Dev.modNet_tick (v : Dev) (f : NetState → NetState) : (v.modNet f).tick = v.tick := rfl
@[simp] theorem Dev.modNet_bus (v : Dev) (f : NetState → NetState) : (v.modNet f).bus = v.bus := rfl
@[simp] theorem Dev.modNet_cores (v : Dev) (f : NetState → NetState) : (v.modNet f).cores = v.cores := rfl
@[simp] theorem Dev.modNet_fab (v : Dev) (f : NetState → NetState) : (v.modNet f).fab = v.fab := rfl
@[simp] theorem Dev.modNet_place (v : Dev) (f : NetState → NetState) : (v.modNet f).place = v.place := rfl
@[simp] theorem Dev.modNet_flt (v : Dev) (f : NetState → NetState) : (v.modNet f).flt = v.flt := rfl
@[simp] theorem Dev.modNet_churns (v : Dev) (f : NetState → NetState) : (v.modNet f).churns = v.churns := rfl
@[simp] theorem Dev.modNet_seps (v : Dev) (f : NetState → NetState) : (v.modNet f).seps = v.seps := rfl
@[simp] theorem Dev.modNet_fus (v : Dev) (f : NetState → NetState) : (v.modNet f).fus = v.fus := rfl
@[simp] theorem Dev.modNet_ports (v : Dev) (f : NetState → NetState) : (v.modNet f).ports = v.ports := rfl
@[simp] theorem Dev.modNet_coaches (v : Dev) (f : NetState → NetState) : (v.modNet f).coaches = v.coaches := rfl
@[simp] theorem Dev.modNet_traces (v : Dev) (f : NetState → NetState) : (v.modNet f).traces = v.traces := rfl
@[simp] theorem Dev.modNet_fw (v : Dev) (f : NetState → NetState) : (v.modNet f).fw = v.fw := rfl
@[simp] theorem Dev.modNet_crock (v : Dev) (f : NetState → NetState) : (v.modNet f).crock = v.crock := rfl
@[simp] theorem Dev.modNet_bu (v : Dev) (f : NetState → NetState) : (v.modNet f).bu = v.bu := rfl
@[simp] theorem Dev.modNet_pw (v : Dev) (f : NetState → NetState) : (v.modNet f).pw = v.pw := rfl
@[simp] theorem Dev.modNet_pins (v : Dev) (f : NetState → NetState) : (v.modNet f).pins = v.pins := rfl
@[simp] theorem Dev.modNet_dieDown (v : Dev) (f : NetState → NetState) : (v.modNet f).dieDown = v.dieDown := rfl
@[simp] theorem Dev.modFab_regs (v : Dev) (f : Fabric → Fabric) : (v.modFab f).regs = v.regs := rfl
@[simp] theorem Dev.modFab_latch (v : Dev) (f : Fabric → Fabric) : (v.modFab f).latch = v.latch := rfl
@[simp] theorem Dev.modFab_rdata (v : Dev) (f : Fabric → Fabric) : (v.modFab f).rdata = v.rdata := rfl
@[simp] theorem Dev.modFab_mem (v : Dev) (f : Fabric → Fabric) : (v.modFab f).mem = v.mem := rfl
@[simp] theorem Dev.modFab_freeCtr (v : Dev) (f : Fabric → Fabric) : (v.modFab f).freeCtr = v.freeCtr := rfl
@[simp] theorem Dev.modFab_tick (v : Dev) (f : Fabric → Fabric) : (v.modFab f).tick = v.tick := rfl
@[simp] theorem Dev.modFab_bus (v : Dev) (f : Fabric → Fabric) : (v.modFab f).bus = v.bus := rfl
@[simp] theorem Dev.modFab_cores (v : Dev) (f : Fabric → Fabric) : (v.modFab f).cores = v.cores := rfl
@[simp] theorem Dev.modFab_place (v : Dev) (f : Fabric → Fabric) : (v.modFab f).place = v.place := rfl
@[simp] theorem Dev.modFab_flt (v : Dev) (f : Fabric → Fabric) : (v.modFab f).flt = v.flt := rfl
@[simp] theorem Dev.modFab_churns (v : Dev) (f : Fabric → Fabric) : (v.modFab f).churns = v.churns := rfl
@[simp] theorem Dev.modFab_net (v : Dev) (f : Fabric → Fabric) : (v.modFab f).net = v.net := rfl
@[simp] theorem Dev.modFab_seps (v : Dev) (f : Fabric → Fabric) : (v.modFab f).seps = v.seps := rfl
@[simp] theorem Dev.modFab_fus (v : Dev) (f : Fabric → Fabric) : (v.modFab f).fus = v.fus := rfl
@[simp] theorem Dev.modFab_ports (v : Dev) (f : Fabric → Fabric) : (v.modFab f).ports = v.ports := rfl
@[simp] theorem Dev.modFab_coaches (v : Dev) (f : Fabric → Fabric) : (v.modFab f).coaches = v.coaches := rfl
@[simp] theorem Dev.modFab_traces (v : Dev) (f : Fabric → Fabric) : (v.modFab f).traces = v.traces := rfl
@[simp] theorem Dev.modFab_fw (v : Dev) (f : Fabric → Fabric) : (v.modFab f).fw = v.fw := rfl
@[simp] theorem Dev.modFab_crock (v : Dev) (f : Fabric → Fabric) : (v.modFab f).crock = v.crock := rfl
@[simp] theorem Dev.modFab_bu (v : Dev) (f : Fabric → Fabric) : (v.modFab f).bu = v.bu := rfl
@[simp] theorem Dev.modFab_pw (v : Dev) (f : Fabric → Fabric) : (v.modFab f).pw = v.pw := rfl
@[simp] theorem Dev.modFab_pins (v : Dev) (f : Fabric → Fabric) : (v.modFab f).pins = v.pins := rfl
@[simp] theorem Dev.modFab_dieDown (v : Dev) (f : Fabric → Fabric) : (v.modFab f).dieDown = v.dieDown := rfl
@[simp] theorem Dev.modPlace_regs (v : Dev) (f : Placement → Placement) : (v.modPlace f).regs = v.regs := rfl
@[simp] theorem Dev.modPlace_latch (v : Dev) (f : Placement → Placement) : (v.modPlace f).latch = v.latch := rfl
@[simp] theorem Dev.modPlace_rdata (v : Dev) (f : Placement → Placement) : (v.modPlace f).rdata = v.rdata := rfl
@[simp] theorem Dev.modPlace_mem (v : Dev) (f : Placement → Placement) : (v.modPlace f).mem = v.mem := rfl
@[simp] theorem Dev.modPlace_freeCtr (v : Dev) (f : Placement → Placement) : (v.modPlace f).freeCtr = v.freeCtr := rfl
@[simp] theorem Dev.modPlace_tick (v : Dev) (f : Placement → Placement) : (v.modPlace f).tick = v.tick := rfl
@[simp] theorem Dev.modPlace_bus (v : Dev) (f : Placement → Placement) : (v.modPlace f).bus = v.bus := rfl
@[simp] theorem Dev.modPlace_cores (v : Dev) (f : Placement → Placement) : (v.modPlace f).cores = v.cores := rfl
@[simp] theorem Dev.modPlace_fab (v : Dev) (f : Placement → Placement) : (v.modPlace f).fab = v.fab := rfl
@[simp] theorem Dev.modPlace_flt (v : Dev) (f : Placement → Placement) : (v.modPlace f).flt = v.flt := rfl
@[simp] theorem Dev.modPlace_churns (v : Dev) (f : Placement → Placement) : (v.modPlace f).churns = v.churns := rfl
@[simp] theorem Dev.modPlace_net (v : Dev) (f : Placement → Placement) : (v.modPlace f).net = v.net := rfl
@[simp] theorem Dev.modPlace_seps (v : Dev) (f : Placement → Placement) : (v.modPlace f).seps = v.seps := rfl
@[simp] theorem Dev.modPlace_fus (v : Dev) (f : Placement → Placement) : (v.modPlace f).fus = v.fus := rfl
@[simp] theorem Dev.modPlace_ports (v : Dev) (f : Placement → Placement) : (v.modPlace f).ports = v.ports := rfl
@[simp] theorem Dev.modPlace_coaches (v : Dev) (f : Placement → Placement) : (v.modPlace f).coaches = v.coaches := rfl
@[simp] theorem Dev.modPlace_traces (v : Dev) (f : Placement → Placement) : (v.modPlace f).traces = v.traces := rfl
@[simp] theorem Dev.modPlace_fw (v : Dev) (f : Placement → Placement) : (v.modPlace f).fw = v.fw := rfl
@[simp] theorem Dev.modPlace_crock (v : Dev) (f : Placement → Placement) : (v.modPlace f).crock = v.crock := rfl
@[simp] theorem Dev.modPlace_bu (v : Dev) (f : Placement → Placement) : (v.modPlace f).bu = v.bu := rfl
@[simp] theorem Dev.modPlace_pw (v : Dev) (f : Placement → Placement) : (v.modPlace f).pw = v.pw := rfl
@[simp] theorem Dev.modPlace_pins (v : Dev) (f : Placement → Placement) : (v.modPlace f).pins = v.pins := rfl
@[simp] theorem Dev.modPlace_dieDown (v : Dev) (f : Placement → Placement) : (v.modPlace f).dieDown = v.dieDown := rfl
@[simp] theorem Dev.modFlt_regs (v : Dev) (f : FaultState → FaultState) : (v.modFlt f).regs = v.regs := rfl
@[simp] theorem Dev.modFlt_latch (v : Dev) (f : FaultState → FaultState) : (v.modFlt f).latch = v.latch := rfl
@[simp] theorem Dev.modFlt_rdata (v : Dev) (f : FaultState → FaultState) : (v.modFlt f).rdata = v.rdata := rfl
@[simp] theorem Dev.modFlt_mem (v : Dev) (f : FaultState → FaultState) : (v.modFlt f).mem = v.mem := rfl
@[simp] theorem Dev.modFlt_freeCtr (v : Dev) (f : FaultState → FaultState) : (v.modFlt f).freeCtr = v.freeCtr := rfl
@[simp] theorem Dev.modFlt_tick (v : Dev) (f : FaultState → FaultState) : (v.modFlt f).tick = v.tick := rfl
@[simp] theorem Dev.modFlt_bus (v : Dev) (f : FaultState → FaultState) : (v.modFlt f).bus = v.bus := rfl
@[simp] theorem Dev.modFlt_cores (v : Dev) (f : FaultState → FaultState) : (v.modFlt f).cores = v.cores := rfl
@[simp] theorem Dev.modFlt_fab (v : Dev) (f : FaultState → FaultState) : (v.modFlt f).fab = v.fab := rfl
@[simp] theorem Dev.modFlt_place (v : Dev) (f : FaultState → FaultState) : (v.modFlt f).place = v.place := rfl
@[simp] theorem Dev.modFlt_churns (v : Dev) (f : FaultState → FaultState) : (v.modFlt f).churns = v.churns := rfl
@[simp] theorem Dev.modFlt_net (v : Dev) (f : FaultState → FaultState) : (v.modFlt f).net = v.net := rfl
@[simp] theorem Dev.modFlt_seps (v : Dev) (f : FaultState → FaultState) : (v.modFlt f).seps = v.seps := rfl
@[simp] theorem Dev.modFlt_fus (v : Dev) (f : FaultState → FaultState) : (v.modFlt f).fus = v.fus := rfl
@[simp] theorem Dev.modFlt_ports (v : Dev) (f : FaultState → FaultState) : (v.modFlt f).ports = v.ports := rfl
@[simp] theorem Dev.modFlt_coaches (v : Dev) (f : FaultState → FaultState) : (v.modFlt f).coaches = v.coaches := rfl
@[simp] theorem Dev.modFlt_traces (v : Dev) (f : FaultState → FaultState) : (v.modFlt f).traces = v.traces := rfl
@[simp] theorem Dev.modFlt_fw (v : Dev) (f : FaultState → FaultState) : (v.modFlt f).fw = v.fw := rfl
@[simp] theorem Dev.modFlt_crock (v : Dev) (f : FaultState → FaultState) : (v.modFlt f).crock = v.crock := rfl
@[simp] theorem Dev.modFlt_bu (v : Dev) (f : FaultState → FaultState) : (v.modFlt f).bu = v.bu := rfl
@[simp] theorem Dev.modFlt_pw (v : Dev) (f : FaultState → FaultState) : (v.modFlt f).pw = v.pw := rfl
@[simp] theorem Dev.modFlt_pins (v : Dev) (f : FaultState → FaultState) : (v.modFlt f).pins = v.pins := rfl
@[simp] theorem Dev.modFlt_dieDown (v : Dev) (f : FaultState → FaultState) : (v.modFlt f).dieDown = v.dieDown := rfl
@[simp] theorem Dev.modFu_regs (v : Dev) (p : Nat) (f : FrameUnit → FrameUnit) : (v.modFu p f).regs = v.regs := rfl
@[simp] theorem Dev.modFu_latch (v : Dev) (p : Nat) (f : FrameUnit → FrameUnit) : (v.modFu p f).latch = v.latch := rfl
@[simp] theorem Dev.modFu_rdata (v : Dev) (p : Nat) (f : FrameUnit → FrameUnit) : (v.modFu p f).rdata = v.rdata := rfl
@[simp] theorem Dev.modFu_mem (v : Dev) (p : Nat) (f : FrameUnit → FrameUnit) : (v.modFu p f).mem = v.mem := rfl
@[simp] theorem Dev.modFu_freeCtr (v : Dev) (p : Nat) (f : FrameUnit → FrameUnit) : (v.modFu p f).freeCtr = v.freeCtr := rfl
@[simp] theorem Dev.modFu_tick (v : Dev) (p : Nat) (f : FrameUnit → FrameUnit) : (v.modFu p f).tick = v.tick := rfl
@[simp] theorem Dev.modFu_bus (v : Dev) (p : Nat) (f : FrameUnit → FrameUnit) : (v.modFu p f).bus = v.bus := rfl
@[simp] theorem Dev.modFu_cores (v : Dev) (p : Nat) (f : FrameUnit → FrameUnit) : (v.modFu p f).cores = v.cores := rfl
@[simp] theorem Dev.modFu_fab (v : Dev) (p : Nat) (f : FrameUnit → FrameUnit) : (v.modFu p f).fab = v.fab := rfl
@[simp] theorem Dev.modFu_place (v : Dev) (p : Nat) (f : FrameUnit → FrameUnit) : (v.modFu p f).place = v.place := rfl
@[simp] theorem Dev.modFu_flt (v : Dev) (p : Nat) (f : FrameUnit → FrameUnit) : (v.modFu p f).flt = v.flt := rfl
@[simp] theorem Dev.modFu_churns (v : Dev) (p : Nat) (f : FrameUnit → FrameUnit) : (v.modFu p f).churns = v.churns := rfl
@[simp] theorem Dev.modFu_net (v : Dev) (p : Nat) (f : FrameUnit → FrameUnit) : (v.modFu p f).net = v.net := rfl
@[simp] theorem Dev.modFu_seps (v : Dev) (p : Nat) (f : FrameUnit → FrameUnit) : (v.modFu p f).seps = v.seps := rfl
@[simp] theorem Dev.modFu_ports (v : Dev) (p : Nat) (f : FrameUnit → FrameUnit) : (v.modFu p f).ports = v.ports := rfl
@[simp] theorem Dev.modFu_coaches (v : Dev) (p : Nat) (f : FrameUnit → FrameUnit) : (v.modFu p f).coaches = v.coaches := rfl
@[simp] theorem Dev.modFu_traces (v : Dev) (p : Nat) (f : FrameUnit → FrameUnit) : (v.modFu p f).traces = v.traces := rfl
@[simp] theorem Dev.modFu_fw (v : Dev) (p : Nat) (f : FrameUnit → FrameUnit) : (v.modFu p f).fw = v.fw := rfl
@[simp] theorem Dev.modFu_crock (v : Dev) (p : Nat) (f : FrameUnit → FrameUnit) : (v.modFu p f).crock = v.crock := rfl
@[simp] theorem Dev.modFu_bu (v : Dev) (p : Nat) (f : FrameUnit → FrameUnit) : (v.modFu p f).bu = v.bu := rfl
@[simp] theorem Dev.modFu_pw (v : Dev) (p : Nat) (f : FrameUnit → FrameUnit) : (v.modFu p f).pw = v.pw := rfl
@[simp] theorem Dev.modFu_pins (v : Dev) (p : Nat) (f : FrameUnit → FrameUnit) : (v.modFu p f).pins = v.pins := rfl
@[simp] theorem Dev.modFu_dieDown (v : Dev) (p : Nat) (f : FrameUnit → FrameUnit) : (v.modFu p f).dieDown = v.dieDown := rfl
@[simp] theorem Dev.modChurn_regs (v : Dev) (d c : Nat) (f : Churn → Churn) : (v.modChurn d c f).regs = v.regs := rfl
@[simp] theorem Dev.modChurn_latch (v : Dev) (d c : Nat) (f : Churn → Churn) : (v.modChurn d c f).latch = v.latch := rfl
@[simp] theorem Dev.modChurn_rdata (v : Dev) (d c : Nat) (f : Churn → Churn) : (v.modChurn d c f).rdata = v.rdata := rfl
@[simp] theorem Dev.modChurn_mem (v : Dev) (d c : Nat) (f : Churn → Churn) : (v.modChurn d c f).mem = v.mem := rfl
@[simp] theorem Dev.modChurn_freeCtr (v : Dev) (d c : Nat) (f : Churn → Churn) : (v.modChurn d c f).freeCtr = v.freeCtr := rfl
@[simp] theorem Dev.modChurn_tick (v : Dev) (d c : Nat) (f : Churn → Churn) : (v.modChurn d c f).tick = v.tick := rfl
@[simp] theorem Dev.modChurn_bus (v : Dev) (d c : Nat) (f : Churn → Churn) : (v.modChurn d c f).bus = v.bus := rfl
@[simp] theorem Dev.modChurn_cores (v : Dev) (d c : Nat) (f : Churn → Churn) : (v.modChurn d c f).cores = v.cores := rfl
@[simp] theorem Dev.modChurn_fab (v : Dev) (d c : Nat) (f : Churn → Churn) : (v.modChurn d c f).fab = v.fab := rfl
@[simp] theorem Dev.modChurn_place (v : Dev) (d c : Nat) (f : Churn → Churn) : (v.modChurn d c f).place = v.place := rfl
@[simp] theorem Dev.modChurn_flt (v : Dev) (d c : Nat) (f : Churn → Churn) : (v.modChurn d c f).flt = v.flt := rfl
@[simp] theorem Dev.modChurn_net (v : Dev) (d c : Nat) (f : Churn → Churn) : (v.modChurn d c f).net = v.net := rfl
@[simp] theorem Dev.modChurn_seps (v : Dev) (d c : Nat) (f : Churn → Churn) : (v.modChurn d c f).seps = v.seps := rfl
@[simp] theorem Dev.modChurn_fus (v : Dev) (d c : Nat) (f : Churn → Churn) : (v.modChurn d c f).fus = v.fus := rfl
@[simp] theorem Dev.modChurn_ports (v : Dev) (d c : Nat) (f : Churn → Churn) : (v.modChurn d c f).ports = v.ports := rfl
@[simp] theorem Dev.modChurn_coaches (v : Dev) (d c : Nat) (f : Churn → Churn) : (v.modChurn d c f).coaches = v.coaches := rfl
@[simp] theorem Dev.modChurn_traces (v : Dev) (d c : Nat) (f : Churn → Churn) : (v.modChurn d c f).traces = v.traces := rfl
@[simp] theorem Dev.modChurn_fw (v : Dev) (d c : Nat) (f : Churn → Churn) : (v.modChurn d c f).fw = v.fw := rfl
@[simp] theorem Dev.modChurn_crock (v : Dev) (d c : Nat) (f : Churn → Churn) : (v.modChurn d c f).crock = v.crock := rfl
@[simp] theorem Dev.modChurn_bu (v : Dev) (d c : Nat) (f : Churn → Churn) : (v.modChurn d c f).bu = v.bu := rfl
@[simp] theorem Dev.modChurn_pw (v : Dev) (d c : Nat) (f : Churn → Churn) : (v.modChurn d c f).pw = v.pw := rfl
@[simp] theorem Dev.modChurn_pins (v : Dev) (d c : Nat) (f : Churn → Churn) : (v.modChurn d c f).pins = v.pins := rfl
@[simp] theorem Dev.modChurn_dieDown (v : Dev) (d c : Nat) (f : Churn → Churn) : (v.modChurn d c f).dieDown = v.dieDown := rfl
@[simp] theorem Dev.modSep_regs (v : Dev) (d k : Nat) (f : Sep → Sep) : (v.modSep d k f).regs = v.regs := rfl
@[simp] theorem Dev.modSep_latch (v : Dev) (d k : Nat) (f : Sep → Sep) : (v.modSep d k f).latch = v.latch := rfl
@[simp] theorem Dev.modSep_rdata (v : Dev) (d k : Nat) (f : Sep → Sep) : (v.modSep d k f).rdata = v.rdata := rfl
@[simp] theorem Dev.modSep_mem (v : Dev) (d k : Nat) (f : Sep → Sep) : (v.modSep d k f).mem = v.mem := rfl
@[simp] theorem Dev.modSep_freeCtr (v : Dev) (d k : Nat) (f : Sep → Sep) : (v.modSep d k f).freeCtr = v.freeCtr := rfl
@[simp] theorem Dev.modSep_tick (v : Dev) (d k : Nat) (f : Sep → Sep) : (v.modSep d k f).tick = v.tick := rfl
@[simp] theorem Dev.modSep_bus (v : Dev) (d k : Nat) (f : Sep → Sep) : (v.modSep d k f).bus = v.bus := rfl
@[simp] theorem Dev.modSep_cores (v : Dev) (d k : Nat) (f : Sep → Sep) : (v.modSep d k f).cores = v.cores := rfl
@[simp] theorem Dev.modSep_fab (v : Dev) (d k : Nat) (f : Sep → Sep) : (v.modSep d k f).fab = v.fab := rfl
@[simp] theorem Dev.modSep_place (v : Dev) (d k : Nat) (f : Sep → Sep) : (v.modSep d k f).place = v.place := rfl
@[simp] theorem Dev.modSep_flt (v : Dev) (d k : Nat) (f : Sep → Sep) : (v.modSep d k f).flt = v.flt := rfl
@[simp] theorem Dev.modSep_churns (v : Dev) (d k : Nat) (f : Sep → Sep) : (v.modSep d k f).churns = v.churns := rfl
@[simp] theorem Dev.modSep_net (v : Dev) (d k : Nat) (f : Sep → Sep) : (v.modSep d k f).net = v.net := rfl
@[simp] theorem Dev.modSep_fus (v : Dev) (d k : Nat) (f : Sep → Sep) : (v.modSep d k f).fus = v.fus := rfl
@[simp] theorem Dev.modSep_ports (v : Dev) (d k : Nat) (f : Sep → Sep) : (v.modSep d k f).ports = v.ports := rfl
@[simp] theorem Dev.modSep_coaches (v : Dev) (d k : Nat) (f : Sep → Sep) : (v.modSep d k f).coaches = v.coaches := rfl
@[simp] theorem Dev.modSep_traces (v : Dev) (d k : Nat) (f : Sep → Sep) : (v.modSep d k f).traces = v.traces := rfl
@[simp] theorem Dev.modSep_fw (v : Dev) (d k : Nat) (f : Sep → Sep) : (v.modSep d k f).fw = v.fw := rfl
@[simp] theorem Dev.modSep_crock (v : Dev) (d k : Nat) (f : Sep → Sep) : (v.modSep d k f).crock = v.crock := rfl
@[simp] theorem Dev.modSep_bu (v : Dev) (d k : Nat) (f : Sep → Sep) : (v.modSep d k f).bu = v.bu := rfl
@[simp] theorem Dev.modSep_pw (v : Dev) (d k : Nat) (f : Sep → Sep) : (v.modSep d k f).pw = v.pw := rfl
@[simp] theorem Dev.modSep_pins (v : Dev) (d k : Nat) (f : Sep → Sep) : (v.modSep d k f).pins = v.pins := rfl
@[simp] theorem Dev.modSep_dieDown (v : Dev) (d k : Nat) (f : Sep → Sep) : (v.modSep d k f).dieDown = v.dieDown := rfl

@[simp] theorem Dev.modTick_tick (v : Dev) (f : TickState → TickState) : (v.modTick f).tick = f v.tick := rfl
@[simp] theorem Dev.modNet_net (v : Dev) (f : NetState → NetState) : (v.modNet f).net = f v.net := rfl
@[simp] theorem Dev.modFab_fab (v : Dev) (f : Fabric → Fabric) : (v.modFab f).fab = f v.fab := rfl
@[simp] theorem Dev.modPlace_place (v : Dev) (f : Placement → Placement) : (v.modPlace f).place = f v.place := rfl
@[simp] theorem Dev.modFlt_flt (v : Dev) (f : FaultState → FaultState) : (v.modFlt f).flt = f v.flt := rfl

/-! ## Reading a part after changing it -/

theorem Dev.port_modPort (v : Dev) (p q : Nat) (f : Port → Port) :
    (v.modPort p f).port q = if q = p then f (v.port p) else v.port q := SMap.get_set _ _ _ _ _
@[simp] theorem Dev.port_modPort_same (v : Dev) (p : Nat) (f : Port → Port) : (v.modPort p f).port p = f (v.port p) := by
  simp [Dev.port_modPort]

theorem Dev.coach_modCoach (v : Dev) (g h : Nat) (f : Coach → Coach) :
    (v.modCoach g f).coach h = if h = g then f (v.coach g) else v.coach h := SMap.get_set _ _ _ _ _
@[simp] theorem Dev.coach_modCoach_same (v : Dev) (g : Nat) (f : Coach → Coach) : (v.modCoach g f).coach g = f (v.coach g) := by
  simp [Dev.coach_modCoach]

theorem Dev.gen_modGen (v : Dev) (g h : Nat) (f : TickGen → TickGen) :
    (v.modGen g f).gen h = if h = g then f (v.gen g) else v.gen h := SMap.get_set _ _ _ _ _
@[simp] theorem Dev.gen_modGen_same (v : Dev) (g : Nat) (f : TickGen → TickGen) : (v.modGen g f).gen g = f (v.gen g) := by
  simp [Dev.gen_modGen]

theorem Dev.core_modCore (v : Dev) (p q : Nat) (f : Core → Core) :
    (v.modCore p f).core q = if q = p then f (v.core p) else v.core q := SMap.get_set _ _ _ _ _
@[simp] theorem Dev.core_modCore_same (v : Dev) (p : Nat) (f : Core → Core) : (v.modCore p f).core p = f (v.core p) := by
  simp [Dev.core_modCore]

theorem Dev.fu_modFu (v : Dev) (p q : Nat) (f : FrameUnit → FrameUnit) :
    (v.modFu p f).fu q = if q = p then f (v.fu p) else v.fu q := SMap.get_set _ _ _ _ _
@[simp] theorem Dev.fu_modFu_same (v : Dev) (p : Nat) (f : FrameUnit → FrameUnit) : (v.modFu p f).fu p = f (v.fu p) := by
  simp [Dev.fu_modFu]

@[simp] theorem Dev.churn_modChurn_same (v : Dev) (d c : Nat) (f : Churn → Churn) : (v.modChurn d c f).churn d c = f (v.churn d c) :=
  SMap.get_set_same _ _ _ _

@[simp] theorem Dev.sep_modSep_same (v : Dev) (d k : Nat) (f : Sep → Sep) : (v.modSep d k f).sep d k = f (v.sep d k) :=
  SMap.get_set_same _ _ _ _

end Sys2Proof.Machine
end

