-- ==== Sys2Proof/Laws/Regs.lean ====
section
/-! SUPPORT. Registers: what a write changes and that it changes nothing else; each shared register operation said once. -/
namespace Sys2Proof.Machine

open Sys2Proof

@[simp] theorem Dev.rd_wr_same (v : Dev) (r : Reg) (x : Word) : (v.wr r x).rd r = x := by simp [Dev.rd, Dev.wr]

theorem Dev.rd_wr_ne (v : Dev) {r q : Reg} (x : Word) (h : q.key ≠ r.key) : (v.wr r x).rd q = v.rd q := by
  exact SMap.get_set_ne _ _ _ _ h

/-! ## Fields and bits of the register written -/

theorem Dev.fb_setB_same (v : Dev) (r : Reg) (i : Nat) (b : Bool) (h : i < 32) : (v.setB r i b).fb r i = b := by
  simp [Dev.fb, Dev.setB, bit_setBit_same, h]

theorem Dev.fb_setB_other (v : Dev) (r : Reg) (i j : Nat) (b : Bool) (h : i < 32) (hd : j ≠ i) : (v.setB r i b).fb r j = v.fb r j := by
  simp [Dev.fb, Dev.setB, bit_setBit_other, h, hd]

theorem Dev.fd_setF_same (v : Dev) (r : Reg) (lo len x : Nat) (h : lo + len ≤ 32) : (v.setF r lo len x).fd r lo len = x % 2 ^ len := by
  simp [Dev.fd, Dev.setF, fld_setFld_same, h]

theorem Dev.rdN_wrN_same (v : Dev) (r : Reg) (n : Nat) : (v.wrN r n).rdN r = n % 2 ^ 32 := by
  simp [Dev.rdN, Dev.wrN, w32_toNat]

theorem Dev.rd_inc_same (v : Dev) (r : Reg) (k : Nat) : (v.inc r k).rd r = satAdd32 (v.rd r) k := by simp [Dev.inc]

/-! ## Other registers keep their values -/

theorem Dev.rd_setB_ne (v : Dev) {r q : Reg} (i : Nat) (b : Bool) (h : q.key ≠ r.key) : (v.setB r i b).rd q = v.rd q := Dev.rd_wr_ne v _ h
theorem Dev.rd_setF_ne (v : Dev) {r q : Reg} (lo len x : Nat) (h : q.key ≠ r.key) : (v.setF r lo len x).rd q = v.rd q := Dev.rd_wr_ne v _ h
theorem Dev.rd_wrN_ne (v : Dev) {r q : Reg} (n : Nat) (h : q.key ≠ r.key) : (v.wrN r n).rd q = v.rd q := Dev.rd_wr_ne v _ h
theorem Dev.rd_inc_ne (v : Dev) {r q : Reg} (k : Nat) (h : q.key ≠ r.key) : (v.inc r k).rd q = v.rd q := Dev.rd_wr_ne v _ h

theorem Dev.rd_clearRegs_mem (v : Dev) (l : List Reg) (r : Reg) (hr : r ∈ l) : (v.clearRegs l).rd r = 0 ∨ ∃ q ∈ l, q.key = r.key ∧ q ≠ r := by
  induction l generalizing v with
  | nil => simp at hr
  | cons a l ih =>
    by_cases hl : r ∈ l
    · rcases ih (v.wr a 0) hl with h | ⟨q, hq, h⟩
      · exact .inl h
      · exact .inr ⟨q, by simp [hq], h⟩
    · have ha : r = a := by simpa [hl] using hr
      subst ha
      by_cases hk : ∃ q ∈ l, q.key = r.key
      · obtain ⟨q, hq, hqk⟩ := hk
        exact .inr ⟨q, by simp [hq], hqk, fun e => hl (e ▸ hq)⟩
      · left
        have : ∀ (w : Dev) (l : List Reg), (¬∃ q ∈ l, q.key = r.key) → (l.foldl (fun v r => v.wr r 0) w).rd r = w.rd r := by
          intro w l
          induction l generalizing w with
          | nil => intro _; rfl
          | cons b l ih =>
            intro h
            rw [List.foldl_cons, ih _ (fun ⟨q, hq, e⟩ => h ⟨q, by simp [hq], e⟩)]
            exact Dev.rd_wr_ne w 0 (fun e => h ⟨b, by simp, e.symm⟩)
        show ((l.foldl (fun v r => v.wr r 0) (v.wr r 0))).rd r = 0
        rw [this _ _ hk, Dev.rd_wr_same]

/-- A register outside the list of cleared ones keeps its value. -/
theorem Dev.rd_clearRegs_ne (v : Dev) (l : List Reg) (q : Reg) (h : ∀ r ∈ l, q.key ≠ r.key) : (v.clearRegs l).rd q = v.rd q := by
  induction l generalizing v with
  | nil => rfl
  | cons a l ih =>
    show (Dev.clearRegs (v.wr a 0) l).rd q = v.rd q
    rw [ih _ (fun r hr => h r (by simp [hr]))]
    exact Dev.rd_wr_ne v 0 (h a (by simp))

/-- What clearing registers leaves alone: everything but the registers. -/
theorem Dev.clearRegs_frame (v : Dev) (l : List Reg) : ∃ m, v.clearRegs l = { v with regs := m } := by
  induction l generalizing v with
  | nil => exact ⟨v.regs, rfl⟩
  | cons a l ih => obtain ⟨m, h⟩ := ih (v.wr a 0); exact ⟨m, h⟩

/-! ## Parts of the package do not touch registers -/

@[simp] theorem Dev.rd_modPort (v : Dev) (p : Nat) (f : Port → Port) (r : Reg) : (v.modPort p f).rd r = v.rd r := rfl
@[simp] theorem Dev.rd_modCoach (v : Dev) (g : Nat) (f : Coach → Coach) (r : Reg) : (v.modCoach g f).rd r = v.rd r := rfl
@[simp] theorem Dev.rd_modGen (v : Dev) (g : Nat) (f : TickGen → TickGen) (r : Reg) : (v.modGen g f).rd r = v.rd r := rfl
@[simp] theorem Dev.rd_modCore (v : Dev) (p : Nat) (f : Core → Core) (r : Reg) : (v.modCore p f).rd r = v.rd r := rfl
@[simp] theorem Dev.rd_modTick (v : Dev) (f : TickState → TickState) (r : Reg) : (v.modTick f).rd r = v.rd r := rfl
@[simp] theorem Dev.rd_modNet (v : Dev) (f : NetState → NetState) (r : Reg) : (v.modNet f).rd r = v.rd r := rfl
@[simp] theorem Dev.rd_modFab (v : Dev) (f : Fabric → Fabric) (r : Reg) : (v.modFab f).rd r = v.rd r := rfl
@[simp] theorem Dev.rd_modPlace (v : Dev) (f : Placement → Placement) (r : Reg) : (v.modPlace f).rd r = v.rd r := rfl
@[simp] theorem Dev.rd_modFlt (v : Dev) (f : FaultState → FaultState) (r : Reg) : (v.modFlt f).rd r = v.rd r := rfl
@[simp] theorem Dev.rd_modFu (v : Dev) (p : Nat) (f : FrameUnit → FrameUnit) (r : Reg) : (v.modFu p f).rd r = v.rd r := rfl
@[simp] theorem Dev.rd_modChurn (v : Dev) (d c : Nat) (f : Churn → Churn) (r : Reg) : (v.modChurn d c f).rd r = v.rd r := rfl
@[simp] theorem Dev.rd_modSep (v : Dev) (d k : Nat) (f : Sep → Sep) (r : Reg) : (v.modSep d k f).rd r = v.rd r := rfl
@[simp] theorem Dev.port_wr (v : Dev) (r : Reg) (x : Word) (q : Nat) : (v.wr r x).port q = v.port q := rfl
@[simp] theorem Dev.coach_wr (v : Dev) (r : Reg) (x : Word) (q : Nat) : (v.wr r x).coach q = v.coach q := rfl
@[simp] theorem Dev.gen_wr (v : Dev) (r : Reg) (x : Word) (q : Nat) : (v.wr r x).gen q = v.gen q := rfl
@[simp] theorem Dev.core_wr (v : Dev) (r : Reg) (x : Word) (q : Nat) : (v.wr r x).core q = v.core q := rfl
@[simp] theorem Dev.fu_wr (v : Dev) (r : Reg) (x : Word) (q : Nat) : (v.wr r x).fu q = v.fu q := rfl
@[simp] theorem Dev.churn_wr (v : Dev) (r : Reg) (x : Word) (e q : Nat) : (v.wr r x).churn e q = v.churn e q := rfl
@[simp] theorem Dev.sep_wr (v : Dev) (r : Reg) (x : Word) (e q : Nat) : (v.wr r x).sep e q = v.sep e q := rfl
@[simp] theorem Dev.frame_wr (v : Dev) (r : Reg) (x : Word) (q : Nat) : (v.wr r x).frame q = v.frame q := rfl
@[simp] theorem Dev.table_wr (v : Dev) (r : Reg) (x : Word) (e q : Nat) : (v.wr r x).table e q = v.table e q := rfl
@[simp] theorem Dev.ld_wr (v : Dev) (r : Reg) (x : Word) (q : Nat) : (v.wr r x).ld q = v.ld q := rfl

/-! ## The register operations are writes -/

theorem Dev.setB_eq (v : Dev) (r : Reg) (i : Nat) (b : Bool) : v.setB r i b = v.wr r (setBit (v.rd r) i b) := rfl
theorem Dev.setF_eq (v : Dev) (r : Reg) (lo len x : Nat) : v.setF r lo len x = v.wr r (setFld (v.rd r) lo len x) := rfl
theorem Dev.wrN_eq (v : Dev) (r : Reg) (n : Nat) : v.wrN r n = v.wr r (w32 n) := rfl
theorem Dev.inc_eq (v : Dev) (r : Reg) (k : Nat) : v.inc r k = v.wr r (satAdd32 (v.rd r) k) := rfl

/-- Waking a die changes its IDLE bit alone. -/
theorem Dev.awake_frame (v : Dev) (d : Nat) : ∃ m, v.awake d = { v with regs := m } := by
  unfold Dev.awake
  split <;> exact ⟨_, rfl⟩
theorem Dev.rd_awake_ne (v : Dev) (d : Nat) {q : Reg} (h : q.key ≠ (PM_STATUS d).key) : (v.awake d).rd q = v.rd q := by
  unfold Dev.awake
  split
  · exact Dev.rd_setB_ne v _ _ h
  · rfl

end Sys2Proof.Machine
end

