-- ==== Sys2Proof/Laws/Faults.lean ====
section
/-! SUPPORT. What raising an error and taking a reaction can change, said once: fault slots, counters, TG_STATUS and the tick of the coach;
a UC error at a core fences it as well. -/
namespace Sys2Proof.Machine

open Sys2Proof

theorem react_frame (env : Env) (g act : Nat) (v : Dev) : ∃ m t, react env g act v = { v with regs := m, tick := t } := by
  unfold react
  split
  · exact ⟨v.regs, v.tick, rfl⟩
  · dsimp only
    split <;> split <;> exact ⟨_, _, rfl⟩

theorem react_rd_ne (env : Env) (g act : Nat) (v : Dev) (q : Reg) (h : q.key ≠ (TG_STATUS env.master g).key) :
    (react env g act v).rd q = v.rd q := by
  unfold react
  split
  · rfl
  · dsimp only
    split <;> split <;> simp [Dev.rd_setB_ne _ _ _ h]

/-- An error other than UC changes fault slots, registers and tick generators only. -/
theorem raise_frame (env : Env) (e : Err) (v : Dev) (h : e.cls ≠ clsUC) :
    ∃ m t f, raise env e v = { v with regs := m, tick := t, flt := f } := by
  unfold raise
  split
  · simp only [h, false_and, if_false]
    cases hs : v.slot (slotKey e.die e.owner e.cls)
    all_goals
      dsimp only
      split
      · obtain ⟨m, t, hr⟩ := react_frame env e.owner (fcAction _ e.cls) _
        exact ⟨m, t, _, hr⟩
      · exact ⟨_, _, _, rfl⟩
  · exact ⟨_, _, _, rfl⟩

/-- Of the registers it changes its counter and the coach's TG_STATUS only. -/
theorem raise_rd_ne (env : Env) (e : Err) (v : Dev) (q : Reg) (h : e.cls ≠ clsUC)
    (h1 : q.key ≠ (FC_CNT e.die e.owner e.cls).key) (h2 : q.key ≠ (TG_STATUS env.master e.owner).key) :
    (raise env e v).rd q = v.rd q := by
  unfold raise
  split
  · simp only [h, false_and, if_false]
    cases hs : v.slot (slotKey e.die e.owner e.cls)
    all_goals
      dsimp only
      split
      · rw [react_rd_ne _ _ _ _ _ h2, Dev.rd_inc_ne _ _ h1]; rfl
      · rw [Dev.rd_inc_ne _ _ h1]; rfl
  · rfl

theorem raiseEach_frame (env : Env) (l : List Nat) (e : Err) (v : Dev) (h : e.cls ≠ clsUC) :
    ∃ m t f, raiseEach env l e v = { v with regs := m, tick := t, flt := f } := by
  unfold raiseEach
  generalize ownersOr l = l
  induction l generalizing v with
  | nil => exact ⟨_, _, _, rfl⟩
  | cons g l ih =>
    obtain ⟨m, t, f, hr⟩ := raise_frame env { e with owner := g } v h
    obtain ⟨m', t', f', hr'⟩ := ih (raise env { e with owner := g } v)
    exact ⟨m', t', f', by rw [List.foldl_cons, hr', hr]⟩

theorem raiseEach_rd_ne (env : Env) (l : List Nat) (e : Err) (v : Dev) (q : Reg) (h : e.cls ≠ clsUC)
    (h1 : ∀ g ∈ ownersOr l, q.key ≠ (FC_CNT e.die g e.cls).key) (h2 : ∀ g ∈ ownersOr l, q.key ≠ (TG_STATUS env.master g).key) :
    (raiseEach env l e v).rd q = v.rd q := by
  unfold raiseEach
  generalize ownersOr l = l at *
  induction l generalizing v with
  | nil => rfl
  | cons g l ih =>
    rw [List.foldl_cons, ih _ (fun x hx => h1 x (by simp [hx])) (fun x hx => h2 x (by simp [hx]))]
    exact raise_rd_ne env { e with owner := g } v q h (h1 g (by simp)) (h2 g (by simp))

/-- The slot after an error: the first is captured whole, a later one merged into it; either way one slot changes. -/
theorem raise_slot (env : Env) (e : Err) (v : Dev) (k : Nat) (h : e.cls ≠ clsUC) (hr : env.has e.die = true) (hc : e.cls < 7) (ho : e.owner < 5) :
    (raise env e v).slot k = if k = slotKey e.die e.owner e.cls then
        some (match v.slot k with
          | some r => merged r
          | none => captured env e)
      else v.slot k := by
  have hf : ∀ g act w, (react env g act w).slot k = w.slot k := by
    intro g act w
    obtain ⟨m, t, hw⟩ := react_frame env g act w
    rw [hw]; rfl
  have hset : ∀ (w : Dev) (r : Option FaultRec) (j : Nat), (w.setSlot j r).slot k = if k = j then r else w.slot k :=
    fun w r j => SMap.get_set none w.flt.slots j k r
  unfold raise
  simp only [hr, hc, ho, decide_true, Bool.and_self, if_true, h, false_and, if_false]
  cases hs : v.slot (slotKey e.die e.owner e.cls)
  all_goals
    dsimp only
    split
    all_goals
      try rw [hf]
      show (Dev.setSlot v _ _).slot k = _
      rw [hset]
      by_cases hk : k = slotKey e.die e.owner e.cls
      · subst hk; simp [hs]
      · simp [hk]

/-! ## A row that writes a register for a requester -/

/-- What such a row adds to the write: HP_WRITE_SEQ of the port that makes it, and nothing for any other party. -/
theorem seqCount_frame (env : Env) (who : Party) (d : Nat) (v : Dev) : ∃ m, seqCount env who d v = { v with regs := m } := by
  unfold seqCount
  split
  · split <;> exact ⟨_, rfl⟩
  · exact ⟨_, rfl⟩
theorem seqCount_rd_ne (env : Env) (p : Fin 4) (d : Nat) (v : Dev) {q : Reg}
    (h : q.key ≠ (HP_WRITE_SEQ (portDie p.val) (portUnit p.val)).key) : (seqCount env (.port p) d v).rd q = v.rd q := by
  simp only [seqCount]
  split
  · exact Dev.rd_wrN_ne v _ h
  · rfl
theorem seqCount_firmware (env : Env) (who : Party) (d : Nat) (v : Dev) (h : isFirmware who = true) : seqCount env who d v = v := by
  cases who <;> simp_all [seqCount, isFirmware]

@[simp] theorem State.onWrite_hw (s : State) (who : Party) (d : Nat) (f : Env → Dev → Dev) : (s.onWrite who d f).hw = s.hw := rfl
@[simp] theorem State.onWrite_clk (s : State) (who : Party) (d : Nat) (f : Env → Dev → Dev) : (s.onWrite who d f).clk = s.clk := rfl
@[simp] theorem State.onWrite_pending (s : State) (who : Party) (d : Nat) (f : Env → Dev → Dev) : (s.onWrite who d f).pending = s.pending := rfl
@[simp] theorem State.onWrite_dev (s : State) (who : Party) (d : Nat) (f : Env → Dev → Dev) :
    (s.onWrite who d f).dev = f s.env (seqCount s.env who d s.dev) := rfl

end Sys2Proof.Machine
end

