-- ==== Sys2Proof/Laws/Memory.lean ====
section
/-! SUPPORT. Memory: what a store changes, that it changes nothing else, and that every memory operation keeps the canonical form. -/
namespace Sys2Proof.Machine

open Sys2Proof

/-! ## Reading after storing -/

/-- A store of bytes: each stored address reads its byte, every other address reads as before. -/
theorem Dev.ld_st (v : Dev) (a : Nat) (bs : List Byte) (x : Nat) :
    (v.st a bs).ld x = if a ≤ x then (bs[x - a]?).getD (v.ld x) else v.ld x := by
  induction bs generalizing v a with
  | nil => simp [Dev.st]
  | cons b bs ih =>
    rw [Dev.st, ih]
    have hw : Dev.ld { v with mem := SMap.set 0 v.mem a b } x = if x = a then b else v.ld x := SMap.get_set 0 v.mem a x b
    rw [hw]
    rcases Nat.lt_trichotomy x a with h | h | h
    · rw [if_neg (by omega), if_neg (by omega), if_neg (by omega)]
    · subst h; rw [if_neg (by omega), if_pos rfl, if_pos (Nat.le_refl _)]; simp
    · rw [if_pos (by omega), if_neg (by omega), if_pos (by omega)]
      have : x - a = (x - (a + 1)) + 1 := by omega
      rw [this]; rfl

/-- Outside the stored bytes every address reads as before. -/
theorem Dev.ld_st_out (v : Dev) (a : Nat) (bs : List Byte) (x : Nat) (h : x < a ∨ a + bs.length ≤ x) : (v.st a bs).ld x = v.ld x := by
  rw [Dev.ld_st]
  split
  · rw [List.getElem?_eq_none (by omega)]; rfl
  · rfl

/-- Inside them each reads its byte. -/
theorem Dev.ld_st_in (v : Dev) (a : Nat) (bs : List Byte) (i : Nat) (h : i < bs.length) : (v.st a bs).ld (a + i) = bs[i] := by
  rw [Dev.ld_st, if_pos (by omega), Nat.add_sub_cancel_left, List.getElem?_eq_getElem h]; rfl

/-- Clearing a range: it reads 0 inside, as before outside. -/
theorem Dev.ld_clearMem (v : Dev) (a n x : Nat) : (v.clearMem a n).ld x = if a ≤ x ∧ x < a + n then 0 else v.ld x := by
  have key : ∀ m : SMap Byte, SMap.get 0 (m.filter (fun e => decide (e.1 < a) || decide (a + n ≤ e.1))) x
      = if a ≤ x ∧ x < a + n then 0 else SMap.get 0 m x := by
    intro m
    induction m with
    | nil => simp [SMap.get]
    | cons e m ih =>
      obtain ⟨k, b⟩ := e
      by_cases hk : k < a ∨ a + n ≤ k
      · rw [List.filter_cons_of_pos (by simpa using hk), SMap.get, SMap.get, ih]
        by_cases hx : k = x
        · subst hx; rw [if_pos rfl, if_pos rfl, if_neg (by omega)]
        · simp [hx]
      · rw [List.filter_cons_of_neg (by simpa using hk), ih, SMap.get]
        split
        · rfl
        · next h => rw [if_neg (by omega)]
  exact key v.mem

/-! ## The canonical form -/

theorem Memory.wf_set (m : SMap Byte) (a : Nat) (b : Byte) (h : Memory.wf m) : Memory.wf (SMap.set 0 m a b) :=
  ⟨SMap.sorted_set 0 m a b h.1, SMap.noDefault_set 0 m a b h.2⟩

theorem Memory.wf_filter (m : SMap Byte) (p : Nat × Byte → Bool) (h : Memory.wf m) : Memory.wf (m.filter p) :=
  ⟨SMap.sorted_filter p m h.1, SMap.noDefault_filter _ p m h.2⟩

theorem Dev.st_wf (v : Dev) (a : Nat) (bs : List Byte) (h : Memory.wf v.mem) : Memory.wf (v.st a bs).mem := by
  induction bs generalizing v a with
  | nil => exact h
  | cons b bs ih => exact ih _ _ (Memory.wf_set v.mem a b h)

theorem Dev.stN_wf (v : Dev) (a n x : Nat) (h : Memory.wf v.mem) : Memory.wf (v.stN a n x).mem := v.st_wf a _ h

theorem Dev.clearMem_wf (v : Dev) (a n : Nat) (h : Memory.wf v.mem) : Memory.wf (v.clearMem a n).mem := Memory.wf_filter v.mem _ h

/-- A change of a die's bank sets moves bytes and keeps the form, where the change itself leaves memory alone. -/
theorem changeSets_wf (d : Nat) (f : Dev → Dev) (v : Dev) (hf : (f v).mem = v.mem) (h : Memory.wf v.mem) :
    Memory.wf (changeSets d f v).mem := by
  have fold : ∀ (l : SMap Byte) (g : Nat → Nat) (m : SMap Byte), Memory.wf m →
      Memory.wf (l.foldl (fun m e => SMap.set 0 m (g e.1) e.2) m) := by
    intro l g
    induction l with
    | nil => exact fun m hm => hm
    | cons e l ih => exact fun m hm => ih _ (Memory.wf_set m _ _ hm)
  show Memory.wf (List.foldl _ _ _)
  apply fold
  rw [hf]
  exact Memory.wf_filter v.mem _ h

theorem setVatSet_wf (d k : Nat) (x : Word) (v : Dev) (h : Memory.wf v.mem) : Memory.wf (setVatSet d k x v).mem := by
  unfold setVatSet
  simp only
  split
  · exact h
  · exact changeSets_wf d _ v rfl h

theorem clearBank_wf (d bank : Nat) (v : Dev) (h : Memory.wf v.mem) : Memory.wf (clearBank d bank v).mem :=
  Memory.wf_filter v.mem _ h

/-- Reset memory lists nothing and is canonical. -/
theorem State.reset_mem_wf : Memory.wf State.reset.dev.mem := ⟨rfl, rfl⟩

/-- A store changes nothing but memory. -/
theorem Dev.st_frame (v : Dev) (a : Nat) (bs : List Byte) : ∃ m, v.st a bs = { v with mem := m } := by
  induction bs generalizing v a with
  | nil => exact ⟨v.mem, rfl⟩
  | cons b bs ih => obtain ⟨m, h⟩ := ih { v with mem := SMap.set 0 v.mem a b } (a + 1); exact ⟨m, h⟩

@[simp] theorem Dev.rd_st (v : Dev) (a : Nat) (bs : List Byte) (r : Reg) : (v.st a bs).rd r = v.rd r := by
  obtain ⟨m, h⟩ := v.st_frame a bs; rw [h]; rfl

@[simp] theorem Dev.port_st (v : Dev) (a : Nat) (bs : List Byte) (p : Nat) : (v.st a bs).port p = v.port p := by
  obtain ⟨m, h⟩ := v.st_frame a bs; rw [h]; rfl

end Sys2Proof.Machine
end

