-- ==== Sys2Proof/Tests/Slice0.lean ====
section
/-! SUPPORT. Tests of the model: the well-formedness smoke test, one witness for the hypotheses of each statement, and a few effects that
the spec gives in figures. Every expected value comes from the rule that the docstring names. -/
namespace Sys2Proof.Tests

open Sys2Proof Sys2Proof.Machine Sys2Proof.Safety

set_option maxRecDepth 100000
set_option Elab.async false

/-! ## Small states -/

def dev (f : Dev → Dev) (s : State) : State := { s with dev := f s.dev }

/-- The state with registers at these values. -/
def poke (l : List (Reg × Nat)) (s : State) : State := dev (fun v => l.foldl (fun v x => v.wrN x.1 x.2) v) s

/-- Every time-base copy of a VN2-8 at a time. -/
def at' (t : Nat) (s : State) : State := { s with clk := ⟨(List.range 8).map (fun d => (d, BitVec.ofNat 64 t)), []⟩ }

/-- The answer is this next state. -/
def gives (o : Host.Outcome State Fault Refusal) (f : State → Bool) : Bool :=
  match o with
  | .next t => f t
  | _ => false

/-- The answer is the fault illFormed. -/
def stops (o : Host.Outcome State Fault Refusal) : Bool :=
  match o with
  | .fault .illFormed => true
  | _ => false

/-- The package at 20 s, with PERST_N high, every port open, and port 0's rings in force. -/
def running : State :=
  dev (fun v =>
    let v := { v with bu := { v.bu with perst := true, tested := true } }
    let v := (List.range 4).foldl (fun v p => v.setB (hpStatus p) 0 true) v
    { v with ports := [(0, { Port.init with bases := [0x1000000, 0x1001000, 0x1002000], logs := [4, 4, 4], ifState := 1,
                                            lp := { Port.init.lp with available := true } })] })
    (at' 20000000000 State.reset)

/-- The bytes of a command: opcode, coach and parameters at their offsets, each with its length. -/
def cmd (op coach : Nat) (l : List (Nat × Nat × Nat)) : Cmd :=
  ⟨7, ((List.range 64).map (fun i => if i = 0 then 2 else if i = 1 then op else if i = 2 then coach else
    match l.find? (fun x => decide (x.1 ≤ i) && decide (i < x.1 + x.2.1)) with
    | some x => x.2.2 / 256 ^ (i - x.1) % 256
    | none => 0)).map (BitVec.ofNat 8)⟩

/-- The command heads its lane at port 0. -/
def given (c : Cmd) (s : State) : State := dev (fun v => v.setLane 0 (laneOf c.bytes) [⟨7, c.bytes, 0⟩]) s

/-- Coach 0, opened on port 0, in a state, with the core numbers 0 to 63. -/
def coached (st : CoachState) (s : State) : State :=
  dev (fun v => v.modCoach 0 (fun c => { c with state := st, rankLimit := 63, rankCount := 8, swapped := true })) s

/-- Tile 0, slot 0 of a die. -/
def core0 : Phys := ⟨0, 0, 0⟩

/-- The dies of a VN2-8. -/
def dies : List Nat := [0, 1, 2, 3, 4, 5, 6, 7]

/-! ## Well-formedness -/

/-- A burst of 32 bytes with one byte of data and no mask. -/
def badBurst : Burst := { row := 0, bank := 0, col := 0, bl32 := false, data := [0], masked := [] }
def goodBurst : Burst := { badBurst with data := List.replicate 32 0xA5, masked := List.replicate 32 false }

theorem test_bad_sram_burst_is_ill_formed : (Instr.hostSramWrite 0 badBurst).wellFormed = false ∧ stops (exec (.hostSramWrite 0 badBurst) running) = true := by decide +kernel
theorem test_bad_reg_burst_is_ill_formed : (Instr.hostRegBurst 0 badBurst).wellFormed = false ∧ stops (exec (.hostRegBurst 0 badBurst) running) = true := by decide +kernel
theorem test_good_burst_is_well_formed : (Instr.hostSramWrite 0 goodBurst).wellFormed = true ∧ gives (exec (.hostSramWrite 0 goodBurst) running) (fun t => readByte t (sramMem 0 31) == 0xA5) = true := by decide +kernel
theorem test_no_word_spells_a_command : decodeTableWord 32 0 = none := by decide

/-! ## Witnesses: the command interface and the time base -/

theorem witness_StepTakesTheFrontCommand : ({ running with pending := [.bypass, .idcode] } : State).pending = [.bypass, .idcode] ∧ running.pending = [] := by decide +kernel

theorem witness_EveryWellFormedCommandCompletes : (Instr.hostSramWrite 0 goodBurst).wellFormed = true ∧ (Instr.hostSramWrite 0 badBurst).wellFormed = false := by decide

theorem witness_CommandsLeaveTheQueue : gives (exec .bypass running) (fun _ => true) = true := by decide +kernel

theorem witness_OnlyTimedRowsTouchTime : gives (exec .bypass running) (fun t => t.clk == running.clk) = true ∧ keepsTime .bypass = true := by decide +kernel

theorem witness_TimeInvariantKept : TimeInv running ∧ gives (step running) (fun _ => true) = true := by
  simp only [TimeInv]; decide +kernel

/-- The master's copy and one that withholds an increment; a row that is due, and one that sets every copy to 0. -/
theorem witness_MasterTimeBaseIsNeverSet :
    TimeInv running ∧ running.pending = [] ∧ running.env.follower 1 = true ∧ zeroesTime running .bypass = false
      ∧ zeroesTime running .packageColdReset = true := by
  simp only [TimeInv]; decide +kernel

/-- A follower that is behind, one that is ahead, and the master. -/
def skewed : State := { poke [(TB_CTRL 1, 2), (TB_CTRL 2, 2)] running with clk := ⟨[(0, 100), (1, 99), (2, 101), (3, 100)], []⟩ }

theorem witness_FollowersSlewByOne :
    skewed.env.follower 1 = true ∧ maySlew 1 skewed.env skewed.dev = true ∧ skewed.env.offset 1 < 0
      ∧ skewed.env.follower 2 = true ∧ maySlew 2 skewed.env skewed.dev = true ∧ 0 < skewed.env.offset 2
      ∧ skewed.env.follower 3 = true ∧ maySlew 3 skewed.env skewed.dev = false ∧ skewed.env.follower 0 = false
      ∧ (let far : State := { skewed with clk := ⟨[(0, 100), (1, 103)], []⟩ }
        far.env.follower 1 = true ∧ 2 < far.env.offset 1 ∧ far.env.follower 2 = true ∧ far.env.offset 2 < -2) := by decide +kernel

/-- R32: one increment added, one withheld, and none a second time within 1,024 ns. -/
theorem test_sync_word_slews : gives (exec (.syncWord 1) skewed) (fun t => t.clk.now 1 == 100) = true ∧ gives (exec (.syncWord 2) skewed) (fun t => t.clk.withhold == [2]) = true
    ∧ gives (exec (.syncWord 1) skewed) (fun t => maySlew 1 { t.env with clk := ⟨[(0, 1200), (1, 1122)], []⟩ } t.dev == false) = true := by decide +kernel

/-- Capture channel 3 of die 0 holds a value taken in this cycle over an older one. -/
def captured : State :=
  dev (fun v => { v with tick := { v.tick with cap := [(3, 20000000000)], capPast := [(3, some ⟨20000000000, 77, false⟩)] } }) (poke [(CAP_STATUS 0 3, 3)] running)

theorem witness_LoReadsLatchTheHighHalf :
    (SMap.get none captured.dev.tick.capPast (0 * 8 + 3) = some ⟨20000000000, 77, false⟩ ∧ captured.env.nowOf 0 = 20000000000
      ∧ bit (reg captured (CAP_STATUS 0 3)) 0 = true ∧ SMap.get none captured.dev.tick.capPast (0 * 8 + 2) = none)
      ∧ running.env.has 7 = true ∧ reaches running (.port 0) ∧ debugOff (poke [] running).dev (.port 0) = false
      ∧ latchKey (.port 1) (TB_NOW_LO 7) ≠ latchKey (.port 0) (TB_NOW_LO 7)
      ∧ debugOff (dev (fun v => { v with pins := { v.pins with ir := 0x20 } }) running).dev .debug = false
      ∧ debugShut running.env (dev (fun v => { v with pins := { v.pins with ir := 0x20 } }) running).dev .debug = true := by
  simp only [reaches]; decide +kernel

/-- R65: a read in the cycle of a capture returns the older value and keeps FULL; the coincidence is no OVERRUN. -/
theorem test_same_cycle_capture_read : gives (exec (.capValueLoRead (.port 0) 0 3) captured)
    (fun t => SMap.get 0 t.dev.rdata 0 == 77 && fld (reg t (CAP_STATUS 0 3)) 0 2 == 1) = true := by decide +kernel

/-- R35: bits [31:0] answer, bits [63:32] wait in the holding register. -/
theorem test_time_base_read : gives (exec (.tbNowLoRead (.port 0) 7) (at' 0x123456789 running))
    (fun t => SMap.get 0 t.dev.rdata 0 == 0x23456789 && t.dev.getLatch (.port 0) (TB_NOW_LO 7) == 1) = true := by decide +kernel

/-! ## Witnesses: channels and generators -/

/-- Channel 9 of die 1: enabled and due; channel 10 late, channel 11 disabled, channel 12 frozen by its processor, channel 13 ahead. -/
def matching : State :=
  dev (fun v => ({ v with tick := { v.tick with halted := [9] } }.modCmp 1 9 (fun h => { h with next := 20000000000 })).modCmp 1 10
      (fun h => { h with next := 5, lateAt := some 19999999990 }) |>.modCmp 1 13 (fun h => { h with next := 20000000001 }))
    (poke [(CMP_CTRL 1 9, 0x43 + 8), (CMP_PERIOD 1 9, 500), (CMP_CTRL 1 10, 1), (CMP_CTRL 1 12, 0xD), (CMP_CTRL 1 13, 1)] running)

theorem witness_CompareMatchFires :
    matching.env.has 1 = true ∧ Clocked matching 1 4
      ∧ (bit (reg matching (CMP_CTRL 1 9)) 0 = true ∧ cmpServes matching.env matching.dev 1 9 = false ∧ cmpFrozen matching.dev 1 9 = false
        ∧ (matching.dev.cmpCh 1 9).next ≤ matching.env.nowOf 1 ∧ bit (reg matching (CMP_CTRL 1 9)) 1 = true)
      ∧ (bit (reg matching (CMP_CTRL 1 10)) 0 = true ∧ cmpServes matching.env matching.dev 1 10 = false ∧ cmpFrozen matching.dev 1 10 = false
        ∧ (matching.dev.cmpCh 1 10).lateAt = some 19999999990 ∧ 19999999990 + 1 ≤ matching.env.nowOf 1)
      ∧ bit (reg matching (CMP_CTRL 1 11)) 0 = false ∧ cmpFrozen matching.dev 1 12 = true
      ∧ (matching.dev.cmpCh 1 13).lateAt = none ∧ matching.env.nowOf 1 < (matching.dev.cmpCh 1 13).next := by
  simp only [Clocked]; decide +kernel

/-- R60, R61: the next match of a periodic channel is a period after the match; a late one-shot channel matches at the increment after its
write, clears EN and sets LATE. -/
theorem test_compare_match : gives (exec (.cmpMatch 1 9) matching) (fun t => (t.dev.cmpCh 1 9).next == 20000000500 && bit (reg t (CMP_CTRL 1 9)) 0) = true
    ∧ gives (exec (.cmpMatch 1 10) matching) (fun t => bit (reg t (CMP_CTRL 1 10)) 17 && !bit (reg t (CMP_CTRL 1 10)) 0 && (t.dev.cmpCh 1 10).last == some 19999999991) = true := by decide +kernel

/-- Channels of coach 0 on die 1: 9 and 11 armed and periodic, 9 due, 11 last matched now; 10 disabled; 12 is firmware's. -/
def owned : State :=
  dev (fun v => v.modCmp 1 11 (fun h => { h with last := some 20000000000, next := 20000000500 }))
    (poke [(CMP_CTRL 1 9, 3), (CMP_CTRL 1 10, 0), (CMP_CTRL 1 11, 3), (CMP_CTRL 1 12, 0x40000000), (CMP_PERIOD 1 9, 500), (CMP_PERIOD 1 11, 500)]
      (coached .opened running))

/-- Coach 0's generator runs from the internal source. -/
def ticking : State := poke [(TG_CTRL 0 0, 1)] (coached .running running)

theorem witness_CompareWritesTakeEffect :
    (∀ c ∈ [9, 10, 11], owned.env.has 1 = true ∧ mayWriteOwned owned.dev (owned.dev.fd (CMP_CTRL 1 c) 28 3) (.port 0) = true
      ∧ cmpServes owned.env owned.dev 1 c = false)
    ∧ isFirmware (.port 0) = false
    ∧ (bit (reg owned (CMP_CTRL 1 9)) 0 = true ∧ bit (reg owned (CMP_CTRL 1 9)) 1 = true ∧ cmpDue owned.env 1 9 owned.dev = some 0)
    ∧ (bit (reg owned (CMP_CTRL 1 11)) 0 = true ∧ bit (reg owned (CMP_CTRL 1 11)) 1 = true ∧ cmpDue owned.env 1 11 owned.dev = none
      ∧ (owned.dev.cmpCh 1 11).last = some 20000000000)
    ∧ (bit (reg owned (CMP_CTRL 1 10)) 0 = false ∧ cmpDue owned.env 1 10 owned.dev = none)
    ∧ (isFirmware (.coachman 1) = true ∧ cmpServes owned.env owned.dev 1 9 = false ∧ fld (0 : Word) 28 3 ≠ 4 ∧ fld (0x40000000 : Word) 28 3 = 4)
    ∧ mayWriteOwned owned.dev (owned.dev.fd (CMP_CTRL 1 9) 28 3) (.port 1) = false ∧ isFirmware (.port 1) = false
    ∧ (let s := poke [(CMP_CTRL 0 0, 0)] ticking
      mayWriteOwned s.dev (s.dev.fd (CMP_CTRL 0 0) 28 3) (.port 0) = true ∧ cmpServes s.env s.dev 0 0 = true ∧ s.env.has 0 = true
        ∧ isFirmware (.coachman 0) = true ∧ fld (0x40000000 : Word) 28 3 ≠ fld (reg s (CMP_CTRL 0 0)) 28 3) := by
  decide +kernel

/-- R61: a write of the period in the cycle of a due match takes the match under the old one, then rebases. -/
theorem test_period_write_at_match :
    gives (exec (.cmpPeriodWrite (.port 0) 1 9 700) (dev (fun v => v.modCmp 1 9 (fun h => { h with next := 20000000000 })) owned))
      (fun t => bit (reg t (CMP_CTRL 1 9)) 16 && (t.dev.cmpCh 1 9).next == 20000000700) = true := by decide +kernel

/-- Capture channel 0 of the master takes rising edges; a processor halted; die 1 without a sync word;
a pulse that is over. -/
def capturing : State :=
  dev (fun v => { v with tick := { v.tick with halted := [10], lastSync := [(1, 1)], pulse := [(2, some 5)] } }) (poke [(CAP_CTRL 0 0, 1)] running)

theorem witness_CaptureAndHalts :
    (capturing.env.has 0 = true ∧ Clocked capturing 0 4 ∧ captureTakes capturing.env capturing.dev 0 0 0 true 0 = true ∧ captureTakes capturing.env capturing.dev 0 0 0 false 0 = false)
    ∧ (1 ≤ (1 : Fin 8).val ∧ (5 : Fin 8).val ≤ 5 ∧ capturing.dev.tick.halted.contains (1 * 8 + 5) = false ∧ capturing.dev.tick.halted.contains (1 * 8 + 2) = true)
    ∧ (capturing.env.follower 1 = true ∧ SMap.get 0 capturing.dev.tick.lastSync 1 ≠ 0 ∧ SMap.get 0 capturing.dev.tick.lastSync 1 + 16384 ≤ capturing.env.nowOf 1)
    ∧ (SMap.get none capturing.dev.tick.pulse 2 = some 5 ∧ 5 ≤ capturing.env.now) := by
  simp only [Clocked]; decide +kernel

/-- R64: a match is captured on the channels of its die that select it. -/
theorem test_match_is_captured : gives (exec (.cmpMatch 1 9) (poke [(CAP_CTRL 1 5, 0x90041)] matching))
    (fun t => SMap.get 0 t.dev.tick.cap (1 * 8 + 5) == 20000000000) = true := by decide +kernel

theorem witness_GeneratorWritesTakeEffect :
    (mayWriteCoach ticking.dev 0 (.port 0) = true ∧ ticking.dev.genRuns ticking.env 0 = true)
    ∧ (mayWriteCoach (coached .opened running).dev 0 (.port 0) = true ∧ (coached .opened running).dev.genRuns running.env 0 = false)
    ∧ mayWriteCoach ticking.dev 0 (.port 1) = false := by decide +kernel

/-- Coach 0's generator runs slaved to pin 2, with its last accepted edge at a time. -/
def slaved (e : Option Nat) (stall : Bool) (more : List (Reg × Nat)) : State :=
  dev (fun v => v.modGen 0 (fun h => { h with prevEdge := e, inForce := { TickSet.init with stall := stall, slaved := true } }))
    (poke ([(TG_CTRL 0 0, 0xB), (CAP_CTRL 0 2, 0x1001)] ++ more) (coached .running running))

/-- A freewheeling generator whose last distributed start is given. -/
def freewheeling (start : Nat) : State :=
  dev (fun v => v.modGen 0 (fun h => { h with next := [⟨5, start, TickSet.init, true⟩] })) (slaved (some 19998000000) false [(TG_STATUS 0 0, 32)])

/-- A first edge, ones that come P − W and P + W after the last, one that comes sooner, one that ends a freewheel or stall, and one that its
settings do not take. -/
theorem witness_SlavedEdges :
    (∀ s ∈ [slaved none false [], slaved (some (20000000000 - 968750)) false [], slaved (some (20000000000 - 1031250)) false [],
        slaved (some (20000000000 - 968749)) true [], freewheeling 19999001000, slaved (some 19998000000) true [(TG_STATUS 0 0, 16)]],
      (edgeTaken (s.dev.fd (CAP_CTRL 0 2) 1 2) true && decide (s.dev.fd (CAP_CTRL 0 2) 12 4 * 4 ≤ 4) && !s.dev.fb (PM_PAD_RELEASE 0) 20) = true
        ∧ s.dev.genRuns s.env 0 = true ∧ s.dev.fb (TG_CTRL 0 0) 1 = true ∧ s.dev.fd (TG_CTRL 0 0) 2 2 = 2 ∧ (s.dev.gen 0).stepping = false
        ∧ (s.dev.gen 0).pend = [] ∧ (∀ q, q < 4 → q ≠ 0 → s.dev.genRuns s.env q = false))
    ∧ (∀ s ∈ [slaved none false [], slaved (some (20000000000 - 968750)) false [], slaved (some (20000000000 - 968749)) true []],
      s.dev.fb (TG_STATUS 0 0) 4 = false ∧ s.dev.fb (TG_STATUS 0 0) 5 = false)
    ∧ (freewheeling 19999001000).dev.fb (TG_STATUS 0 0) 5 = true ∧ (slaved (some 19998000000) true [(TG_STATUS 0 0, 16)]).dev.fb (TG_STATUS 0 0) 4 = true
    ∧ ((slaved none false []).dev.gen 0).prevEdge = none
    ∧ ((slaved (some (20000000000 - 968750)) false []).dev.gen 0).prevEdge = some (20000000000 - 968750)
    ∧ TickSet.init.period - TickSet.init.window = 968750 ∧ TickSet.init.period + TickSet.init.window = 1031250
    ∧ decide ((slaved none false []).dev.fd (CAP_CTRL 0 2) 12 4 * 4 ≤ 3) = false
    ∧ missDue running.env 0 (slaved (some 19998000000) true []).dev = some 19998000000
    ∧ missDue running.env 0 (slaved (some 19998000000) false []).dev = some 19998000000 ∧ ((slaved (some 19998000000) false []).dev.gen 0).pend = []
    ∧ (∀ x ∈ [19999001000, 19999002000, 19999002001], let s := freewheeling x
      s.dev.genRuns s.env 0 = true ∧ s.dev.fb (TG_STATUS 0 0) 5 = true ∧ (s.dev.gen 0).stopReq = false
        ∧ (s.dev.gen 0).next.getLast?.map (fun n => n.start) = some x
        ∧ (x + (s.dev.gen 0).inForce.period ≤ s.env.now + (s.dev.gen 0).inForce.lead ↔ x ≠ 19999002001)) := by decide +kernel

/-- R42: the edge starts a tick LEAD later. -/
theorem test_edge_is_accepted : gives (exec (.tickInEdge 2 true 4) (slaved none false [])) (fun t => (t.dev.gen 0).next.map (fun n => n.start) == [20000002000]) = true := by decide +kernel

/-- R41, R44: an edge that ends a freewheel replaces the freewheel tick that has not started. -/
theorem test_edge_ends_freewheel : gives (exec (.tickInEdge 2 true 4) (freewheeling 20000001000))
    (fun t => (t.dev.gen 0).next.map (fun n => (n.start, n.free)) == [(20000002000, false)]) = true := by decide +kernel

/-- Tick 3 of coach 0, started some time ago and begun on every die; closed and past its pail instant on some. -/
def tick3 (ago : Nat) (closed pailed : List Nat) : CurTick :=
  ⟨3, 20000000000 - ago, TickSet.init, false, false, dies, closed, pailed, false, none, 0, false, 0, false⟩
def inTick (ago : Nat) (closed pailed : List Nat) (s : State) : State :=
  dev (fun v => v.modGen 0 (fun h => { h with cur := some (tick3 ago closed pailed) })) s

/-- A fire of tick 3 with events left, stalled since a time. -/
def fire3 (out : List OutEv) (stall : Option Nat) : Fire := ⟨3, 100, out, 0, stall, false, [], false, [], false⟩
def event1 : OutEv := ⟨1, 5, 6, 7, 0, 0⟩

/-- A core with a fire, a limit for its stalls, and its coach held or not. -/
def firing (out : List OutEv) (stall : Option Nat) (hold : Nat) : State :=
  poke [(EF_EMIT_LIMIT 0, 1000), (EF_CTRL 0, hold), (NC_CTRL 0, 0x401)] (dev (fun v => v.modCore 0 (fun k => { k with fire := some (fire3 out stall) })) ticking)

/-- Coach 0's cores 0 and 1 on die 0, the first still firing; its frame unit, a frame at work and a swap that is due or not. -/
def phased (fires : Bool) (swap : Nat) (s : State) : State :=
  dev (fun v => (((v.modCore 0 (fun k => { k with joined := true, fire := if fires then some (fire3 [event1] none) else none })).modCore 1
      (fun k => { k with joined := true })).modFu 0 (fun f => { f with holder := some 0 })).setFrame 0 (some ⟨2, 19999000000, [], [], [], []⟩) |>.modNet
      (fun n => { n with armed := [(0, some (some swap))] }))
    (poke [(NC_CTRL 0, 0x401), (NC_CTRL 1, 0x401)] (dev (fun v => { v with place := { v.place with place := [(0, 1), (1, 2)], number := [(0, 1), (1, 2)] } }) s))

/-- The dies that a CLOSE and a PAIL_INSTANT of coach 0 act on. -/
def closesOn (s : State) : Option (List Nat) :=
  (s.dev.gen 0).cur.map (fun c => (diesDue s.env s.dev (c.start + c.set.close) c.closedOn).filter (fun d => c.begun.contains d))
def pailsOn (s : State) : Option (List Nat) :=
  (s.dev.gen 0).cur.map (fun c => (diesDue s.env s.dev (c.start + c.set.pail) c.pailedOn).filter (fun d => c.closedOn.contains d))

theorem witness_TickPhasesInOrder :
    (closesOn (inTick 500000 [] [] (phased true 3 ticking)) = some dies ∧ closesOn (inTick 499999 [] [] ticking) = some []
      ∧ pailsOn (inTick 510000 dies [] (phased true 3 ticking)) = some dies ∧ pailsOn (inTick 509999 dies [] ticking) = some []
      ∧ pailsOn (inTick 510000 [0] [] ticking) = some [0])
    ∧ (let v := (phased true 3 ticking).dev
      (0, 0) ∈ v.coachCores 0 ∧ (1, 1) ∈ v.coachCores 0 ∧ (∀ p ∈ [0, 1], pDie p ∈ dies ∧ (v.core p).joined = true ∧ v.enabled p = true)
        ∧ (v.core 0).fire = some (fire3 [event1] none) ∧ (v.core 1).fire = none ∧ (∀ x ∈ v.coachCores 0, x.2 ≠ 2)
        ∧ overruns v 0 0 = [0] ∧ workOf running.env v 0 = some 2 ∧ swapDue v 0 3 = true ∧ swapDue (phased true 4 ticking).dev 0 3 = false
        ∧ unitOf v 0 = some 0 ∧ portDie 0 ∈ dies ∧ v.liveDies running.env = dies ∧ overruns (phased false 3 ticking).dev 0 0 = [])
    ∧ (∀ x ∈ [([event1], some 19999999000, 0), ([event1], none, 1), ([], none, 0)],
        ((firing x.1 x.2.1 x.2.2).dev.core core0.idx).fire = some (fire3 x.1 x.2.1) ∧ (firing x.1 x.2.1 x.2.2).dev.coreOwner core0.idx = 0)
    ∧ fireHeld running.env (firing [event1] none 1).dev core0.idx = true
    ∧ emitStalled running.env (firing [event1] (some 19999999000) 0).dev core0.idx (fire3 [event1] (some 19999999000)) = true
    ∧ emitStalled running.env (firing [event1] none 1).dev core0.idx (fire3 [event1] none) = false := by decide +kernel

/-- The fires of the core end, with pail records that wait for the tile's hub or with none; a fold that waits follows. -/
def recorded (out : List OutEv) (stall : Option Nat) : State :=
  dev (fun v => v.modCore 0 (fun k => { k with fire := some { fire3 out stall with recs := [⟨0, 0, 0, 1, 1, 0, 0, none⟩] } })) (firing out stall 0)

theorem witness_TickPhasesInOrder_clocks :
    (∀ p ∈ [0, 1], Clocked (inTick 500000 [] [] (phased true 3 ticking)) (pDie p) 1)
    ∧ (∀ x ∈ [([event1], some 19999999000, 0), ([event1], none, 1), ([], none, 0)], Clocked (firing x.1 x.2.1 x.2.2) (pDie core0.idx) 1)
    ∧ ((fire3 [] none).recs = [] ∧ (fire3 [event1] (some 19999999000)).recs = [])
    ∧ (∀ x ∈ [([], none), ([event1], some 19999999000)], let s := recorded x.1 x.2
      ∃ y, (s.dev.core core0.idx).fire = some y ∧ y.out = x.1 ∧ y.recs ≠ [] ∧ Clocked s (pDie core0.idx) 1
        ∧ (x.1 ≠ [] → emitStalled s.env s.dev core0.idx y = true))
    ∧ (firing [event1] (some 19999999000) 0).env.has (pDie core0.idx) = true := by
  simp only [Clocked]
  refine ⟨by decide +kernel, by decide +kernel, by decide +kernel, ?_, by decide +kernel⟩
  intro x hx
  simp only [List.mem_cons, List.not_mem_nil, or_false] at hx
  rcases hx with rfl | rfl <;> exact ⟨_, rfl, by decide +kernel⟩

/-- R48: the events of the fire are handed over and it ends. -/
theorem test_fire_ends : gives (exec (.fireEnd core0) (firing [event1] none 0)) (fun t => (t.dev.core 0).fire == none) = true := by decide +kernel

/-- Tick 4 of coach 0 is distributed for a time, on the internal source or a slaved one. -/
def upcoming (start : Nat) (slv free : Bool) : State :=
  dev (fun v => v.modGen 0 (fun h => { h with next := [⟨4, start, { TickSet.init with slaved := slv }, free⟩] })) ticking

/-- Tick 3 has begun on die 1 alone, whose copy is ahead. -/
def partlyBegun : State := dev (fun v => v.modGen 0 (fun h => { h with cur := some { tick3 1 [] [] with begun := [1] } })) ticking

theorem witness_TickStartsWhenDue :
    (∀ b ∈ [(false, false), (true, false), (true, true)], let s := upcoming 20000000000 b.1 b.2
      (s.dev.gen 0).next = [⟨4, 20000000000, { TickSet.init with slaved := b.1 }, b.2⟩] ∧ s.dev.genRuns s.env 0 = true ∧ (s.dev.gen 0).stopReq = false
        ∧ tickPassed s.env s.dev (s.dev.gen 0) = true ∧ (s.dev.gen 0).stepping = false
        ∧ diesDue s.env s.dev 20000000000 [] = dies ∧ s.env.master ∈ dies)
    ∧ ((partlyBegun.dev.gen 0).next = [] ∧ (partlyBegun.dev.gen 0).cur = some { tick3 1 [] [] with begun := [1] }
      ∧ diesDue partlyBegun.env partlyBegun.dev 19999999999 [1] ≠ [])
    ∧ ((ticking.dev.gen 0).next = [] ∧ (ticking.dev.gen 0).cur = none)
    ∧ (let s := upcoming 20000000001 false false
      (s.dev.gen 0).next = [⟨4, 20000000001, TickSet.init, false⟩] ∧ diesDue s.env s.dev 20000000001 [] = [] ∧ (s.dev.gen 0).cur = none) := by
  decide +kernel

/-! ## Witnesses: neuron cores -/

/-- The core at tile 0, slot 0 of die 0 belongs to coach 0 and holds core number 0. -/
def owns : State :=
  dev (fun v => { v with place := { v.place with place := [(0, 1)], number := [(0, 1)] } }) (poke [(NC_CTRL 0, 0x400)] (coached .opened running))

/-- Its layout: one neuron at 0x1000, four axons at 0x2000, rows at 0x3000, the delay ring at 0x200, and the format version of R71. -/
def laidOut : State :=
  dev (fun v => v.st (coreMem 0 0) [2])
    (poke [(NC_STATE_CFG 0, 0x10010), (NC_AXON_CFG 0, 0x40020), (NC_ROW_CFG 0, 0x10030), (NC_DRING_CFG 0, 0x40002)] owns)

theorem witness_CoreWritesTakeEffect :
    (writesCore laidOut (.engine 0) 0 core0.idx ∧ laidOut.dev.enabled core0.idx = false ∧ laidOut.dev.plEn core0.idx = false
      ∧ layoutOk laidOut.dev core0.idx = true ∧ mayRestart (.engine 0) = true)
    ∧ (writesCore owns (.coachman 0) 0 core0.idx ∧ owns.dev.enabled core0.idx = false ∧ layoutOk owns.dev core0.idx = false
      ∧ owns.env.has (pDie core0.idx) = true)
    ∧ (let s := poke [(NC_CTRL 0, 0x401)] laidOut
      writesCore s (.engine 0) 0 core0.idx ∧ s.dev.enabled core0.idx = true ∧ s.env.has (pDie core0.idx) = true)
    ∧ Party.port 0 = .port 0
    ∧ (isHost (.coachman 0) = false ∧ debugOff owns.dev (.coachman 0) = false ∧ owns.dev.reach owns.env 5 = none
      ∧ owns.env.has (partyDie owns.env (.coachman 0)) = true) := by
  simp only [writesCore, reaches]; decide +kernel

/-- R104: 8,388,607 is the greatest threshold; one more sets THR_BAD. -/
theorem test_threshold_bounds :
    gives (exec (.ncThreshWrite (.engine 0) 0 3 8388607) laidOut) (fun t => !bit (reg t (NC_STATUS 0)) 19) = true
    ∧ gives (exec (.ncThreshWrite (.engine 0) 0 3 8388608) laidOut) (fun t => bit (reg t (NC_STATUS 0)) 19) = true := by decide +kernel

/-- Axon 3 has a dense row of one weight, 7, onto neuron 0; an event with payload 5 for it has arrived in tick 5. -/
def hearing (cls : EvClass) (fire : Option Fire) : State :=
  dev (fun v => ((v.st (coreMem 0 0x2018) (leBytes 8 0x3001)).st (coreMem 0 0x3000) [7]).modCore 0
    (fun k => { k with arrivals := [⟨⟨3, 5, 0, 5⟩, cls⟩], openTick := 5, fire := fire })) laidOut

/-- The core with learning enabled: axon 3 is plastic with PRE_TRACE 40, its target table is at 0x5000, its plastic list at 0x5100 and its
delta at 0x5200; every event adds 9 to a trace, and A_PLUS, A_MINUS and the decays are given. -/
def plastic (cls : EvClass) : State :=
  dev (fun v => ((v.st (coreMem 0 0x2018) (leBytes 8 (0x3001 + 2 ^ 38 + 40 * 2 ^ 40))).st (coreMem 0 0x1000) (leBytes 8 (0x800000000 + 0xFFFF000000000000 + 100))).st
      (coreMem 0 0x5100) [3])
    (poke [(NC_PL_REGION 0, 0x40050), (NC_PL_LIST 0, 1), (NC_PL_CTRL 0, 1), (NC_PL_EPOCH 0, 5), (NC_PL_RULE 0, 0x80800302), (NC_PL_INC 0, 0x0909)]
      (hearing cls none))

theorem witness_ArrivalsAreIntegrated_learning :
    (∀ cls ∈ [EvClass.onTime, .late, .early], let s := plastic cls
      let w := s.dev.axonEntry core0.idx 3
      (s.dev.core core0.idx).arrivals = [⟨⟨3, 5, 0, 5⟩, cls⟩] ∧ Clocked s (pDie core0.idx) 1 ∧ cls ≠ .stale ∧ (s.dev.core core0.idx).fire = none
        ∧ 5 = accTick (s.dev.core core0.idx) ∧ 3 < s.dev.axons core0.idx ∧ axFmt w = 1 ∧ s.dev.rowInside core0.idx w = true
        ∧ s.dev.plEn core0.idx = true ∧ axPlastic w = true ∧ layoutOk s.dev core0.idx = true ∧ plasticOk s.dev core0.idx = true
        ∧ s.dev.plPaused core0.idx = false ∧ (s.dev.core core0.idx).disarmed = false
        ∧ (s.dev.synapses core0.idx w).filter (fun y => y.good && y.plastic) = [⟨0, 0, 7, true, true⟩])
    ∧ (∀ cls ∈ [EvClass.stale, .onTime, .late, .early], Clocked (hearing cls none) (pDie core0.idx) 1)
    ∧ Clocked (hearing .onTime (some { fire3 [] none with tick := 4 })) (pDie core0.idx) 1 := by
  simp only [Clocked]; decide +kernel

/-- R110, R112: PRE_TRACE gains INC_PRE, 9; with POST_TRACE 200 and A_MINUS 3 the delta falls by 600. -/
theorem test_depression : gives (exec (.eventArrival core0) (dev (fun v => v.st (coreMem 0 0x1000) (leBytes 8 (setFldN (v.stateWord 0 0) 40 8 200))) (plastic .onTime)))
    (fun t => axPre (t.dev.axonEntry 0 3) == 49 && t.dev.delta 0 0 == -600) = true := by decide +kernel

theorem witness_ArrivalsAreIntegrated :
    ((hearing .stale none).dev.core core0.idx).arrivals = [⟨⟨3, 5, 0, 5⟩, .stale⟩]
    ∧ (((hearing .onTime (some { fire3 [] none with tick := 4 })).dev.core core0.idx).arrivals = [⟨⟨3, 5, 0, 5⟩, .onTime⟩]
      ∧ ((hearing .onTime (some { fire3 [] none with tick := 4 })).dev.core core0.idx).fire ≠ none)
    ∧ (∀ cls ∈ [EvClass.onTime, .late, .early],
      let s := hearing cls none
      let w := s.dev.axonEntry core0.idx 3
      (s.dev.core core0.idx).arrivals = [⟨⟨3, 5, 0, 5⟩, cls⟩] ∧ cls ≠ .stale ∧ (s.dev.core core0.idx).fire = none
        ∧ 5 ≤ accTick (s.dev.core core0.idx) ∧ 5 = accTick (s.dev.core core0.idx) ∧ 3 < s.dev.axons core0.idx ∧ axFmt w = 1
        ∧ s.dev.rowInside core0.idx w = true ∧ s.dev.plEn core0.idx = false) := by decide +kernel

/-- R82: the accumulator gains weight × payload. -/
theorem test_weight_times_payload : gives (exec (.eventArrival core0) (hearing .onTime none)) (fun t => SMap.get 0 (t.dev.core 0).acc 0 == 35) = true := by decide +kernel

/-- A write held for the state word, a core in reset, the same core fenced, an apply with a row and one without. -/
def learning (rows : List Nat) : State := dev (fun v => v.modCore 0 (fun k => { k with held := [(0x1000, 77)], apply := some ⟨3, rows, [], 9⟩ })) laidOut
def resetting (fenced : Bool) : State :=
  dev (fun v => if fenced then { v with place := { v.place with fenced := [0] } } else v) (poke [(NC_STATUS 0, 0x20)] laidOut)

theorem witness_LearningAndHeldWrites :
    ((learning [3]).dev.core core0.idx).held = [] ++ [(0x1000, 77)] ∧ 0x1000 + 8 ≤ 0x40000
    ∧ (∀ e ∈ ((learning [3]).dev.core core0.idx).held, coreMem core0.idx 0x1008 < coreMem core0.idx e.1 ∨ coreMem core0.idx e.1 + 8 ≤ coreMem core0.idx 0x1008)
    ∧ (bit (reg (resetting false) (NC_STATUS core0.idx)) 5 = true ∧ (resetting false).dev.isFenced core0.idx = false
      ∧ (resetting false).dev.runs ((resetting false).dev.coreOwner core0.idx) 0x12 = none)
    ∧ ((resetting true).dev.isFenced core0.idx = true ∧ (resetting true).dev.runs ((resetting true).dev.coreOwner core0.idx) 0x12 = none)
    ∧ ((learning [3]).dev.core core0.idx).apply = some ⟨3, 3 :: [], [], 9⟩ ∧ ((learning []).dev.core core0.idx).apply = some ⟨3, [], [], 9⟩
    ∧ (0 < axLen ((learning [3]).dev.axonEntry core0.idx 3) ∧ deltaShared (learning [3]).dev core0.idx (axDelta ((learning [3]).dev.axonEntry core0.idx 3) + 0) [] = false)
    := by decide +kernel

/-- Neuron 0 is enabled with v = 100 and threshold entry 0 at a value. -/
def folding (theta : Nat) : Folding :=
  ⟨(dev (fun v => v.st (coreMem 0 0x1000) (leBytes 8 (0x800000000 + 0xFFFF000000000000 + 100))) (poke [(NC_THRESH 0 0, theta)] laidOut)).dev, [], [], [], []⟩

/-- The apply of the plastic core comes to the row of axon 3. -/
def writingBack : State := dev (fun v => v.modCore 0 (fun k => { k with apply := some ⟨4096, [3], [(0, 7)], 9⟩ })) (plastic .onTime)

theorem witness_LearningAndHeldWrites_row :
    (∀ rows ∈ [[3], []], Clocked (learning rows) (pDie core0.idx) 1) ∧ (∀ b ∈ [true, false], Clocked (resetting b) (pDie core0.idx) 1)
    ∧ (let s := writingBack
      let w := s.dev.axonEntry core0.idx 3
      Clocked s (pDie core0.idx) 1 ∧ (s.dev.core core0.idx).apply = some ⟨4096, 3 :: [], [(0, 7)], 9⟩ ∧ layoutOk s.dev core0.idx = true
        ∧ plasticOk s.dev core0.idx = true ∧ 3 < s.dev.axons core0.idx ∧ axPlastic w = true ∧ axFmt w = 1 ∧ s.dev.rowInside core0.idx w = true
        ∧ s.dev.synapses core0.idx w = [⟨0, 0, 7, true, true⟩]) := by
  simp only [Clocked]; decide +kernel

theorem witness_NeuronFoldFollowsR89_learning :
    let v := (plastic .onTime).dev
    (v.plEn 0 = true ∧ layoutOk v 0 = true ∧ plasticOk v 0 = true ∧ v.plAxons 0 = [3] ∧ v.rowInside 0 (v.axonEntry 0 3) = true
      ∧ v.plasticSyns 0 (v.axonEntry 0 3) = [⟨0, 0, 7, true, true⟩])
    ∧ (let w := v.stateWord 0 0
      swEn w = true ∧ swRefr w = 0 ∧ SMap.get 0 (v.core 0).cnt 0 ≤ 65536 ∧ swMemb w = false ∧ swPail w = false
        ∧ (v.grp 0 (swGroup w)).prog = 0 ∧ v.stateOff 0 0 + 8 ≤ 0x40000) := by decide +kernel

theorem witness_NeuronFoldFollowsR89 :
    ∀ theta ∈ [100, 101], 
      let f := folding theta
      let w := f.dev.stateWord 0 0
      swEn w = true ∧ swRefr w = 0 ∧ f.dev.plEn 0 = false ∧ SMap.get 0 (f.dev.core 0).cnt 0 ≤ 65536 ∧ swMemb w = false ∧ swPail w = false
        ∧ (f.dev.grp 0 (swGroup w)).prog = 0 ∧ f.dev.stateOff 0 0 + 8 ≤ 0x40000 ∧ (f.dev.grp 0 (swGroup w)).graded = false
        ∧ toSigned 24 (f.dev.fd (NC_THRESH 0 (swThr w)) 0 24) = theta
        ∧ sat24 (swV w - asr (swV w * (f.dev.grp 0 (swGroup w)).leak) 16
            + asr (SMap.get 0 (f.dev.core 0).acc 0 * (f.dev.grp 0 (swGroup w)).gain) 8 + (f.dev.grp 0 (swGroup w)).bias) = 100 := by decide +kernel

/-- R89, R91: v = 100 without leak or input fires at θ = 100 and not at 101. -/
theorem test_threshold_fires : (foldNeuron laidOut.env 0 3 0 (folding 100) 0).fired = [0] ∧ (foldNeuron laidOut.env 0 3 0 (folding 101) 0).fired = [] := by decide +kernel

/-! ## Witnesses: the timetable network, frame units and vats -/

/-- An entry from vat word 0 to vat word 9 of die 1, its table, and a frame that has begun. -/
def entry9 : TEntry :=
  { src := 0, srcPort := 0, snk := 0, snkPort := 1, guard := false, signal := false, start := 4, lenM1 := 1, firstRound := 0, lastRound := 0,
    srcAddr := 0, srcStep := 1, srcRstep := 0, snkAddr := 9, snkStep := 1, snkRstep := 0, tag := 0, waitFlag := 0, sigIndex := 0,
    sigBarrier := false, sigDie := 0 }
def table9 : DieTable := ⟨64, 0, 0, 5, [], [entry9]⟩
def frame9 : Frame := ⟨3, 19999000000, [], [], [], []⟩
def framed : State :=
  dev (fun v => { v with net := { v.net with frames := [(0, some frame9)], active := [(4, some table9)] } }) (poke [(SN_OWN_VWJ 1, 0)] (inTick 600000 dies dies ticking))

theorem witness_TimetableWordMovesThroughVat :
    (framed.dev.frame 0 = some frame9 ∧ framed.dev.table 1 0 = some table9 ∧ table9.entries[0]? = some entry9)
    ∧ (entry9.firstRound ≤ 0 ∧ 0 ≤ entry9.lastRound ∧ 0 ≤ entry9.lenM1 ∧ SMap.get 0 frame9.done (instKey 1 0 0) = 0
      ∧ slotDue framed.env framed.dev 1 frame9 (slotOf table9 entry9 0 0) = true ∧ frameOn framed.dev 0 1 frame9 = true)
    ∧ (entry9.src < 8 ∧ entry9.snk < 4 ∧ entry9.guard = false ∧ entry9.signal = false ∧ sinkOwned framed.dev 1 entry9.snk 0 = true
      ∧ frame9.guarded = [] ∧ framed.dev.net.joinIn = [] ∧ framed.dev.net.recentWr = [] ∧ framed.dev.net.recentRd = []
      ∧ framed.dev.net.recentTake = [])
    ∧ SMap.get 0 frame9.done (instKey 1 0 0) ≠ 1 := by decide +kernel

/-- Die 1's bank ports, port units, churns, joins and the fourth coupling's first quarter are coach 0's, with one entry in its table. -/
def moving (e : TEntry) (l : List (Reg × Nat)) : State :=
  dev (fun v => (v.modFu 2 (fun x => { x with holder := some 0 })).modNet (fun n => { n with active := [(4, some { table9 with entries := [e] })] }))
    (poke ([(VAT_SET 1 0, 0x80000080), (CHN_CTRL 1 0, 0x400), (SN_OWN_CPL 1 3, 0xFF8)] ++ l) framed)

/-- What a word of entry `e` needs besides its ends: it is due, no other access is recorded, and its die's clock runs. -/
def dueNow (s : State) (e : TEntry) (w : Nat) : Bool :=
  (s.dev.frame 0 == some frame9) && (s.dev.table 1 0 == some { table9 with entries := [e] })
    && decide (e.firstRound ≤ 0 ∧ 0 ≤ e.lastRound ∧ w ≤ e.lenM1 ∧ SMap.get 0 frame9.done (instKey 1 0 0) = w)
    && slotDue s.env s.dev 1 frame9 (slotOf table9 e 0 w) && frameOn s.dev 0 1 frame9 && frame9.guarded == [] && s.dev.net.joinIn == []
    && s.dev.net.recentWr == [] && s.dev.net.recentRd == [] && s.dev.net.recentTake == [] && !s.dev.still 1 0

def toSink (code addr : Nat) : TEntry := { entry9 with snk := code, snkAddr := addr }
def fromSource (code : Nat) : TEntry := { entry9 with src := code }

/-- A word is available in the fourth ingress, in the join's output, or at the churn's port. -/
def supplied (code : Nat) (coach : Nat) : State :=
  dev (fun v => (v.modNet (fun n => { n with
      ingress := [(channel 1 3 0, [(0, ⟨77, true, 0, coach⟩)])], joinOut := [(joinKey 1 0 0, some ⟨78, true, 0, coach⟩)] })).modChurn 1 0
      (fun h => { h with oport := [⟨0, 4, 79⟩] })) (moving (fromSource code) [])

theorem witness_TimetableWordMovesThroughVat_ends :
    (∀ code ∈ [8, 16, 20, 31, 32], let s := moving (toSink code 9) []
      dueNow s (toSink code 9) 0 = true ∧ sinkOwned s.dev 1 code 0 = true ∧ (toSink code 9).guard = false ∧ (toSink code 9).signal = false
        ∧ (toSink code 9).src < 8 ∧ portServes s.dev 1 0 (srcAddrOf (toSink code 9) 0 0) 0 = true)
    ∧ (let s := moving (toSink 8 9) []; frDrops s.dev 2 3 (frRebase s.dev 2 3 9) = false)
    ∧ (let s := moving (toSink 8 0) [(frCtrl 2, 1), (FR_ACT_SIZE 1 0, 2)]
      dueNow s (toSink 8 0) 0 = true ∧ sinkOwned s.dev 1 8 0 = true ∧ portServes s.dev 1 0 0 0 = true ∧ frDrops s.dev 2 3 (frRebase s.dev 2 3 0) = true)
    ∧ (let s := moving (toSink 31 9) []; (s.dev.chanOut (channel 1 3 0)).length < 1024)
    ∧ (let s := dev (fun v => v.modNet (fun n => { n with egress := [(channel 1 3 0, List.replicate 1024 (0, ⟨1, true, 0, 0⟩))] })) (moving (toSink 31 9) [])
      dueNow s (toSink 31 9) 0 = true ∧ sinkOwned s.dev 1 31 0 = true ∧ portServes s.dev 1 0 0 0 = true ∧ 1024 ≤ (s.dev.chanOut (channel 1 3 0)).length) := by
  decide +kernel

theorem witness_TimetableWordMovesThroughVat_sources :
    (∀ code ∈ [8, 16, 12, 27, 28], let s := supplied code 0
      dueNow s (fromSource code) 0 = true ∧ sinkOwned s.dev 1 0 0 = true ∧ portServes s.dev 1 0 (snkAddrOf (fromSource code) 0 0) 1 = true
        ∧ sourceFenced s.dev 1 code = false ∧ (fromSource code).guard = false ∧ (fromSource code).signal = false)
    ∧ portWord ((supplied 16 0).dev.churn 1 0).oport (slotOf table9 (fromSource 16) 0 0 - 4) = some 79 ∧ slotOf table9 (fromSource 16) 0 0 = 4
    ∧ (supplied 27 0).dev.chanIn (channel 1 3 0) = (0, ⟨77, true, 0, 0⟩) :: []
    ∧ SMap.get none (supplied 28 0).dev.net.joinOut (joinKey 1 0 (4 - 4)) = some ⟨78, true, 0, 0⟩
    ∧ (∀ code ∈ [27, 28], let s := moving (fromSource code) []
      dueNow s (fromSource code) 0 = true ∧ sinkOwned s.dev 1 0 0 = true ∧ portServes s.dev 1 0 (snkAddrOf (fromSource code) 0 0) 1 = true
        ∧ sourceFenced s.dev 1 code = false ∧ s.dev.chanIn (channel 1 3 0) = [] ∧ SMap.get none s.dev.net.joinOut (joinKey 1 0 0) = none) := by decide +kernel

/-- A vat-to-vat word, one with a guard whose flag is clear, one that is the last of its instance and signals, and states without a frame, a
table or an entry. -/
theorem witness_TimetableWordMovesThroughVat_vats :
    (∀ e ∈ [entry9, { entry9 with guard := true }, { entry9 with signal := true, lenM1 := 0 }], let s := moving e []
      dueNow s e 0 = true ∧ sinkOwned s.dev 1 e.snk 0 = true ∧ e.src < 8 ∧ portServes s.dev 1 0 (srcAddrOf e 0 0) e.srcPort = true ∧ e.snk < 4
        ∧ portServes s.dev 1 0 (snkAddrOf e 0 0) e.snkPort = true ∧ flagBy s.dev 1 e.waitFlag (takenAt s.dev 1 frame9 e.src (slotOf table9 e 0 0)) = false)
    ∧ frame9.invalid = []
    ∧ running.dev.frame 0 = none ∧ (dev (fun v => v.modNet (fun n => { n with active := [] })) framed).dev.table 1 0 = none
    ∧ (framed.dev.table 1 0 = some table9 ∧ table9.entries[1]? = none) := by decide +kernel

/-- A flag and three barrier signals whose time has come: one that reaches its target, one that does not, one without a target. -/
def signalled : State :=
  dev (fun v => { v with net := { v.net with signals := [⟨5, 0, 1, 40, false⟩, ⟨5, 0, 1, 3, true⟩, ⟨5, 0, 1, 4, true⟩, ⟨5, 0, 1, 5, true⟩] } })
    (poke [(SN_BAR 1 3, 0x20001), (SN_BAR 1 4, 0x30001)] framed)

/-- A word waits in the egress buffer of the fourth edge of die 0, a quarter of which coach 0 owns; tick 3 is 30 CHK cycles (at
100 MHz) before its pail instant, which die 2 has reached. -/
def crossing : State :=
  dev (fun v => { v with net := { v.net with egress := [(channel 0 3 0, [(4, ⟨77, true, 0, 0⟩)])] } })
    (poke [(SN_OWN_CPL 0 3, 0xFF8)] (inTick (510000 - 300) dies [2] framed))

theorem witness_FlagsBarriersAndFrames :
    (∀ k ∈ [0, 1, 2, 3], ∃ x, signalled.dev.net.signals[k]? = some x ∧ x.due ≤ signalled.dev.chkAt x.die (signalled.env.nowOf x.die) ∧ (x.barrier = true ∨ x.index < 4096))
    ∧ (fld (reg signalled (SN_BAR 1 3)) 0 16 + 1 = fld (reg signalled (SN_BAR 1 3)) 16 16)
    ∧ (fld (reg signalled (SN_BAR 1 4)) 0 16 + 1 < fld (reg signalled (SN_BAR 1 4)) 16 16)
    ∧ (fld (reg signalled (SN_BAR 1 5)) 16 16 ≤ fld (reg signalled (SN_BAR 1 5)) 0 16)
    ∧ (signalled.dev.table 1 (3 / 64)).isSome = true
    ∧ (crossing.dev.frame 0 = some frame9 ∧ crossing.dev.chanOut (channel 0 3 0) = (4, ⟨77, true, 0, 0⟩) :: []
      ∧ neighbour crossing.hw.part 0 3 = some 1 ∧ crossing.dev.net.downMods.contains (0 * 4 + 3) = false
      ∧ crossing.dev.net.pausedMods.contains (0 * 4 + 3) = false ∧ quarters crossing.dev 0 3 0 ≠ 0
      ∧ slotDue crossing.env crossing.dev 0 frame9 (releaseSlot crossing.dev 0 3 0 4 frame9) = true
      ∧ (crossing.dev.chanIn (channel 1 (opposite 3) 0)).length < 1024)
    ∧ ((crossing.dev.gen 0).cur = some (tick3 509700 dies [2])
      ∧ (∀ d ∈ dies, crossing.dev.chkAt d (20000000000 - 509700 + 510000) ≤ crossing.dev.chkAt d (crossing.env.nowOf d) + 32000))
    ∧ frameDone framed.env framed.dev 0 frame9 = false
    ∧ (frameDone running.env (dev (fun v => { v with net := { v.net with frames := [(0, some frame9)] } }) running).dev 0 frame9 = true) := by
  refine ⟨?_, by decide +kernel⟩
  intro k hk
  simp only [List.mem_cons, List.not_mem_nil, or_false] at hk
  rcases hk with rfl | rfl | rfl | rfl <;> exact ⟨_, rfl, by decide +kernel⟩

/-- R256: the barrier counts to its target. -/
theorem test_barrier_counts : gives (exec (.barrierSignal 1) signalled) (fun t => reg t (SN_BAR 1 3) == 0x20002) = true := by decide +kernel

/-- Coach 0 holds the frame unit of port 0: rings of one slot of two words, READY_FLAG 7, and tick 3 before or at its action instant. -/
def unitState (published doubt : Bool) (copies : List Copy) (react ago : Nat) : State :=
  dev (fun v => (v.modFu 0 (fun f => { f with holder := some 0, tick := 3, published := published, doubt := doubt, copies := copies })).modGen 0
      (fun h => { h with cur := h.cur.map (fun c => { c with react := react }) }))
    (poke [(frCtrl 0, 0x701), (FR_OBS_SIZE 0 0, 2), (FR_ACT_BASE 0 0, 2), (FR_ACT_SIZE 0 0, 2), (FR_SAFE_BASE 0 0, 4), (SN_FLAGS 0 0, 0x80), (TG_REACT 0 0, 4)]
      (inTick ago dies dies ticking))

theorem witness_ActionFramesPublished :
    (∀ x ∈ [(false, 0), (true, 0), (false, 1)], let s := unitState false x.1 [] x.2 600000
      (s.dev.fu 0).holder = some 0 ∧ beforeAction s.env s.dev 0 0 (s.dev.fu 0).tick = some { tick3 600000 dies dies with react := x.2 } ∧ frOn s.dev 0 = true
        ∧ (s.dev.fu 0).published = false ∧ (s.dev.fu 0).copying (s.dev.fu 0).tick = false ∧ readySet s.dev 0 = true ∧ (s.dev.fu 0).doubt = x.1
        ∧ s.dev.net.recentWr = [])
    ∧ (∀ x ∈ [none, some (0, 2)], let s := unitState false false [⟨3, false, false, x⟩] 0 600000
      (s.dev.fu 0).copies = ⟨3, false, false, x⟩ :: [] ∧ (s.dev.fu 0).holder = some 0
        ∧ actionClock s.env s.dev 0 < 20000000000 - 600000 + TickSet.init.action ∧ s.dev.net.recentWr = [])
    ∧ (let s := inTick 900000 dies dies ticking
      (tick3 900000 dies dies).pailed s.env s.dev = true ∧ (tick3 900000 dies dies).acted = false
        ∧ 20000000000 - 900000 + TickSet.init.action ≤ actionClock s.env s.dev 0 ∧ unitOf s.dev 0 = none
        ∧ (tick3 900000 dies []).pailed s.env s.dev = false)
    ∧ (let s := unitState false false [] 0 900000
      unitOf s.dev 0 = some 0 ∧ frOn s.dev 0 = true ∧ (s.dev.fu 0).tick = 3 ∧ (s.dev.fu 0).published = false
        ∧ 20000000000 - 900000 + TickSet.init.action ≤ actionClock s.env s.dev 0
        ∧ 1 ≤ fld (reg s (TG_REACT s.env.master 0)) 2 2) := by decide +kernel

/-- R54: a copy that ends at the action instant is a missed frame's, whichever row comes first. -/
theorem test_late_copy_is_missed : gives (exec (.substituteDone 0) (unitState false false [⟨3, false, false, none⟩] 0 900000))
    (fun t => t.dev.ldN (sramMem 0 257) 1 == 9 && reg t (TG_FRAME_MISS 0 0) == 1) = true := by decide +kernel

/-- R280: version 2, no flag, the tick. -/
theorem test_action_header : gives (exec (.actionPublish 0) (unitState false false [] 0 600000))
    (fun t => t.dev.ldBytes (sramMem 0 256) 8 == [2, 0, 0, 0, 3, 0, 0, 0]) = true := by decide +kernel

/-- The unit of port 0 disabled, with settings that pass the check of R285 and, without them, fail it. -/
def unitOff (l : List (Reg × Nat)) : State := dev (fun v => v.modFu 0 (fun f => { f with holder := some 0 })) (poke l (coached .opened running))
def goodUnit : State := unitOff [(FR_OBS_SIZE 0 0, 2), (FR_ACT_BASE 0 0, 2), (FR_ACT_SIZE 0 0, 2), (FR_SAFE_BASE 0 0, 4)]
def debugging : State := dev (fun v => { v with pins := { v.pins with ir := 0x20 } }) (poke [(SEC_DEBUG 0, 3)] running)

theorem witness_FrameUnitAndSafeWrites :
    (∀ s ∈ [goodUnit, unitOff []], isFirmware (.ostler 0 0) = true ∧ bit (reg s (frCtrl 0)) 0 = false ∧ bit (reg s (frCtrl 0)) 20 = false)
    ∧ frOk goodUnit.dev 0 = true ∧ frOk (unitOff []).dev 0 = false ∧ running.env.has (portDie 0) = true
    ∧ ((unitOff []).dev.fu 0).holder = some 0
    ∧ (isFirmware (.coachman 0) = true ∧ reaches debugging .debug ∧ inReset running.dev = false ∧ inReset debugging.dev = false
      ∧ inReset State.reset.dev = true)
    ∧ (let s := poke [(BU_STATUS 0, 0x100)] running
      inReset s.dev = false ∧ bit (reg s (BU_STATUS s.env.master)) 8 = true ∧ bit (reg running (BU_STATUS running.env.master)) 8 = false) := by
  simp only [reaches]; decide +kernel

/-- A region of die 1 lets firmware reach the first page of its vat; the second state's spare entries hold bank 5 and 6. -/
def vatted : State := poke [(SEC_RGN_A 1 0, 0), (SEC_RGN_B 1 0, 0x1048)] running
def spared (n : Nat) : State := poke [(VAT_SPARE 1, [0, 0x45, 0x4645].getD n 0)] (dev (fun v => { v with net := { v.net with rowsUsed := [(64 + 9, 10)] } }) running)

/-- Both ports of the bank that offset 0x80 lies in were used in this CHK cycle. -/
def busyVat : State :=
  let b := (bankOfWord vatted.dev 1 1).1
  dev (fun v => v.modNet (fun n => { n with vatServed := [((64 + b) * 2, v.cycle vatted.env 1 + 1), ((64 + b) * 2 + 1, v.cycle vatted.env 1 + 1)] })) vatted

theorem witness_VatAccessAndSets :
    (unschedShape 0x80 (some (List.replicate 8 1)) = true ∧ unschedShape 0x80 none = true ∧ debugOff vatted.dev (.coachman 1) = false
      ∧ vatted.env.has 1 = true ∧ partyReaches vatted.env vatted.dev 1 0 0x80 true (.coachman 1) = true
      ∧ partyReaches vatted.env vatted.dev 1 0 0x80 false (.coachman 1) = true ∧ partyReaches vatted.env vatted.dev 1 0 0x1000 true (.coachman 1) = false
      ∧ SMap.get [] vatted.dev.net.vatWait 1 = [] ∧ vatted.dev.net.recentWr = []
      ∧ ([1, 0].filter (portFree vatted.env vatted.dev 1 (bankOfWord vatted.dev 1 (0x80 / 128)).1)).length = 2
      ∧ ([1, 0].filter (portFree busyVat.env busyVat.dev 1 (bankOfWord busyVat.dev 1 (0x80 / 128)).1)).length = 0
      ∧ partyReaches busyVat.env busyVat.dev 1 0 0x80 true (.coachman 1) = true ∧ busyVat.dev.fd (VAT_BANK_SEL 1) 0 6 = (bankOfWord busyVat.dev 1 1).1
      ∧ unschedShape 0x10000000 none = true ∧ vatted.env.has (partyDie vatted.env (.coachman 1)) = true)
    ∧ (isFirmware (.coachman 1) = true ∧ vatSetOk running.env running.dev 1 0 0x80000084 = true ∧ vatSetOk running.env running.dev 1 0 0x80000081 = false
      ∧ MemOk running)
    ∧ (∀ n ∈ [0, 1, 2], setIdle (spared n).dev 1 9 = true)
    ∧ (SMap.get 0 (spared 0).dev.net.rowsUsed (1 * 64 + 9) + 6 = 16)
    ∧ (bit (reg (spared 0) (VAT_SPARE 1)) 6 = false ∧ 16 < SMap.get 0 (spared 0).dev.net.rowsUsed (1 * 64 + 9) + 7)
    ∧ (bit (reg (spared 1) (VAT_SPARE 1)) 6 = true ∧ bit (reg (spared 1) (VAT_SPARE 1)) 14 = false)
    ∧ (bit (reg (spared 2) (VAT_SPARE 1)) 6 = true ∧ bit (reg (spared 2) (VAT_SPARE 1)) 14 = true) := by
  simp only [MemOk]; decide +kernel

/-- Port 0's LOAD_VAT has so many bytes to copy from byte 0x80 of die 1's vat on. -/
def copy1 (n : Nat) : VatCopy := ⟨1, 0x80, n, some (List.replicate n 9), 0⟩
def load1 (n : Nat) : Running := ⟨6, 0, 0, 1, 7, 5, 0, [copy1 n], stOk, 0⟩
def copying (n : Nat) (s : State) : State := dev (fun v => v.modPort 0 (fun h => { h with running := [load1 n] })) s

theorem witness_VatAccessAndSets_copies :
    Clocked vatted 1 0 ∧ Clocked busyVat 1 0 ∧ (∀ p : Fin 4, Party.coachman 1 = .engine p → copyAt vatted.dev p.val 1 0x80 true = none)
    ∧ copyAt vatted.dev 0 1 0x80 true = none
    ∧ ((busyVat.dev.fd (VAT_BANK_SEL 1) 0 6 = (bankOfWord busyVat.dev 1 (0x80 / 128)).1))
    ∧ (copyAt (copying 16 busyVat).dev 0 1 0x80 ((copy1 16).data != none) = some (load1 16, copy1 16) ∧ Clocked (copying 16 busyVat) 1 0
      ∧ vatPort (copying 16 busyVat).env (.engine 0) 1 (bankOfWord (copying 16 busyVat).dev 1 (0x80 / 128)).1 (copying 16 busyVat).dev = none)
    ∧ (∀ n ∈ [160, 16], let s := copying n vatted
      copyAt s.dev 0 1 0x80 true = some (load1 n, copy1 n) ∧ Clocked s 1 0
        ∧ vatPort s.env (.engine 0) 1 (bankOfWord s.dev 1 (0x80 / 128)).1 s.dev = some 1 ∧ ringed s 0 ∧ (copy1 n).data = some (List.replicate n 9)
        ∧ (List.replicate n (9 : Byte)).length = (copy1 n).len ∧ s.dev.net.recentWr = [])
    ∧ copiesLeft [copy1 160] ≠ [] ∧ copiesLeft [copy1 16] = [] := by
  simp only [Clocked, ringed, NoneAfter]
  refine ⟨by decide +kernel, by decide +kernel, fun p h => by simp at h, ?_⟩
  decide +kernel

/-- R231: in a set of four banks word 5 is row 1, word 1 of it, and lies in bank 1 xor 1. -/
theorem test_bank_hash : bankOfWord (poke [(VAT_SET 1 0, 0x80000080)] running).dev 1 5 = (0, 1) := by decide +kernel

/-! ## Witnesses: the fabric -/

/-- A packet of one event for core number 5, of a coach. -/
def packet (coach dkind dest : Nat) : Packet :=
  { version := 2, typ := 0, epoch := false, vc := false, coach := coach, dkind := dkind, dest := dest, src := 9, srcBlock := false, tag := 5,
    lenM1 := 0, lastM1 := 0, info := 0, words := [0x050003], badFlits := [], chan := 0 }

/-- The core at tile 0, slot 0 of die 0 has closed a packet; core number 5 lies at tile 3, slot 1 of die 1; group 4 belongs to coach 0. -/
def sending (c : Closed) (held : Nat) : State :=
  dev (fun v => { v with
      fab := { v.fab with ifaces := [(0, ⟨none, [c], false⟩)], routes := [(5, 2112 + 100 + 1)], groups := [(4, some ⟨0, [5], [2212]⟩)] },
      coaches := [(0, { Coach.init with state := .opened, rankLimit := 63, rankCount := 8, ranks := [(2, 6)] })] })
    (poke [(EF_CTRL 0, held)] laidOut)

/-- Group 4 belongs to coach 1. -/
def foreign (s : State) : State := dev (fun v => v.modFab (fun b => { b with groups := [(4, some ⟨1, [5], [2212]⟩)] })) s

/-- A packet waits at the core's interface and one at that of a core without a coach, which is the next whose turn it is at the hub. -/
def blockedHub : State :=
  dev (fun v => v.modFab (fun b =>
      { b with ifaces := b.ifaces ++ [(1, ⟨none, [⟨packet 0 0 5, false, none⟩], false⟩)], hubs := [(0, 1)] })) (sending ⟨packet 0 0 5, false, none⟩ 0)

/-- One word for the program store of the core at tile 0, slot 0 of die 0. -/
def maint0 : Maint := ⟨0, 0, true, [7]⟩

theorem witness_PacketsLeaveTheirSource :
    (∀ c ∈ [(⟨packet 0 0 5, false, none⟩ : Closed), ⟨packet 0 0 2, true, none⟩, ⟨packet 0 1 4, false, none⟩, ⟨packet 0 0 6, false, none⟩],
      let s := sending c 0
      (s.dev.iface (srcKey (.core core0))).closed = c :: [] ∧ isHeld s.env s.dev 0 = false ∧ s.dev.dieDown.contains 0 = false ∧ c.chan = none
        ∧ ifaceOwner s.dev (srcKey (.core core0)) = 0 ∧ s.env.has (ifaceDie (srcKey (.core core0))) = true
        ∧ hubTurn s.env s.dev (srcKey (.core core0)) c.pkt.flits = true)
    ∧ (∀ s ∈ [sending ⟨packet 0 0 5, false, none⟩ 0, sending ⟨packet 0 0 5, false, none⟩ 1, foreign (sending ⟨packet 0 1 4, false, none⟩ 0), blockedHub],
      Clocked s (sourceDie (.core core0)) 2)
    ∧ isHeld running.env (sending ⟨packet 0 0 5, false, none⟩ 1).dev 0 = true
    ∧ (let s := sending ⟨packet 0 0 5, false, none⟩ 0
      (stamped s.env s.dev 0 (packet 0 0 5)).epoch = false ∧ routeOf s.dev false 5 = some 2212 ∧ 5 < s.env.cores ∧ routeOf s.dev false 6 = none
        ∧ 6 < s.env.cores ∧ 2 < (s.dev.coach 0).rankCount ∧ SMap.get 0 (s.dev.coach 0).ranks 2 = 5 + 1
        ∧ groupOf s.dev false 4 = some ⟨0, [5], [2212]⟩ ∧ groupOf (foreign s).dev false 4 = some ⟨1, [5], [2212]⟩)
    ∧ (hubTurn blockedHub.env blockedHub.dev 0 2 = false ∧ routeOf blockedHub.dev false 5 = some 2212)
    ∧ (ifaceOwner blockedHub.dev (srcKey (.core ⟨0, 0, 1⟩)) = 4 ∧ (blockedHub.dev.iface 1).closed = [⟨packet 0 0 5, false, none⟩]
      ∧ (blockedHub.dev.iface 1).noCoachRec = false)
    ∧ (running.env.has 0 = true ∧ Clocked running 0 2 ∧ Clocked blockedHub 0 2 ∧ 1 ≤ maint0.data.length ∧ maint0.data.length ≤ 128 ∧ maintDests running.env maint0.dest.val ≠ []
      ∧ hubTurn running.env running.dev (blockIface 0 20) (maintPacket 0 maint0).flits = true
      ∧ hubTurn blockedHub.env blockedHub.dev (blockIface 0 20) (maintPacket 0 maint0).flits = false) := by
  simp only [Clocked]; decide +kernel

/-- R141: the hub serves the other packet, so the core's stays. -/
theorem test_hub_takes_turns : gives (exec (.packetInject (.core core0)) blockedHub) (fun t => t.dev.fab.flights == []) = true := by decide +kernel

/-- Packets in flight. -/
def flying (fs : List Flight) (l : List (Reg × Nat)) : State := dev (fun v => { v with fab := { v.fab with flights := fs } }) (poke l running)
def flight0 (tile : Nat) (slot : Option Nat) (members : List Nat) (pkt : Packet) : Flight := ⟨0, pkt, 0, tile, slot, members, 5, false⟩

theorem witness_PacketsTravelHopByHop :
    (∀ fs ∈ [[flight0 3 none [101] (packet 0 0 5)], [flight0 7 none [2 * 2112] (packet 0 0 5)],
        [flight0 3 none [101, 0] (packet 0 0 5), { flight0 3 none [101, 0] (packet 0 0 5) with pid := 1, copy := true }]],
      Clocked (flying fs []) 0 2 ∧ ((flying fs []).dev.fab.flights.map (·.pid)).Nodup)
    ∧ (∀ x ∈ [((3, [101]), Hop.local 2), ((0, [101]), .mesh 1 1)],
      let f := flight0 x.1.1 none x.1.2 (packet 0 0 5)
      let s := flying [f] []
      s.dev.flight 0 = some f ∧ atFront s.dev f = true ∧ hopsOf s.env s.dev f = [x.2] ∧ granted s.env s.dev f (outDir x.2) = true)
    ∧ (let f := flight0 7 none [2 * 2112] (packet 0 0 5)
      (∀ w ∈ [2, 8], let s := flying [f] [(EF_CPL_STATUS 0 0, w)]
        s.dev.flight 0 = some f ∧ atFront s.dev f = true ∧ hopsOf s.env s.dev f = [.cross 0] ∧ granted s.env s.dev f (outDir (.cross 0)) = true
          ∧ bit (reg s (EF_CPL_STATUS 0 0)) 3 = decide (w = 8))
        ∧ neighbour .vn2_8 0 0 = some 2
        ∧ (∀ w ∈ [0, 4, 6], let s := flying [f] [(EF_CPL_STATUS 0 0, w)]
          fld (reg s (EF_CPL_STATUS 0 0)) 1 3 ∈ [0, 2, 3] ∧ hopsOf s.env s.dev f = [.cross 0] ∧ granted s.env s.dev f (outDir (.cross 0)) = false))
    ∧ (let f := flight0 3 none [101, 0] (packet 0 0 5)
      let other (copy : Bool) : Flight := { f with pid := 1, copy := copy }
      (∀ c ∈ [[], [other true]], (flying (f :: c) []).dev.flight 0 = some f ∧ atFront (flying (f :: c) []).dev f = true
        ∧ hopsOf (flying (f :: c) []).env (flying (f :: c) []).dev f = [.local 2, .mesh 2 3] ∧ f.copy = false
        ∧ (f :: c).any (fun x => x.die == f.die && x.tile == f.tile && x.copy && x.pkt.vc == f.pkt.vc) = !c.isEmpty)
        ∧ (flying [other false, f] []).dev.flight 0 = some f ∧ atFront (flying [other false, f] []).dev f = false)
    ∧ (let f := flight0 3 none [101] { packet 0 0 5 with dkind := 1 }
      let s := dev (fun v => { v with fab := { v.fab with groups := [(5, some ⟨0, [5, 6], [101, 0]⟩)] } }) (flying [f] [])
      s.dev.flight 0 = some f ∧ atFront s.dev f = true ∧ f.copy = false ∧ hopsOf s.env s.dev f = [.local 2]
        ∧ groupOf s.dev f.pkt.epoch f.pkt.dest = some ⟨0, [5, 6], [101, 0]⟩
        ∧ nextHop s.env s.dev f.die f.tile 101 ≠ nextHop s.env s.dev f.die f.tile 0) := by
  simp only [Clocked]; decide +kernel

/-- R140: a packet behind another in its buffer stays. -/
theorem test_order_is_kept :
    let f := flight0 3 none [101] (packet 0 0 5)
    gives (exec (.routerHop 0 .none 0) (flying [{ f with pid := 1 }, f] [])) (fun t => t.dev.flight 0 == some f)
      && gives (exec (.routerHop 1 .none 0) (flying [{ f with pid := 1 }, f] [])) (fun t => (t.dev.flight 1).map (·.slot) == some (some 2)) = true := by
  decide +kernel

/-- A packet that waits at the interface of core number 5, tile 3, slot 1 of die 0, with some events already in the core's buffer. -/
def arriving (pkt : Packet) (buffered : Nat) (fenced : Bool) : State :=
  dev (fun v => { v with
      fab := { v.fab with flights := [flight0 3 (some 1) [100] pkt] },
      cores := [(100, { Core.init with inbuf := List.replicate buffered ⟨⟨0, 1, 0, 5⟩, .early⟩ })],
      place := { v.place with fenced := if fenced then [100] else [], number := [(100, 6)] } })
    (poke [(NC_CTRL 100, 0x401), (NC_STATUS 100, 1)] running)

/-- A MAINT packet for the program store. -/
def maintFlight : Packet := { maintPacket 0 maint0 with dest := 0 }

theorem witness_PacketsAreEjected :
    (∀ x ∈ [(packet 0 0 5, 511), (packet 0 0 5, 512), (packet 1 0 5, 0), (maintFlight, 0)],
      let s := arriving x.1 x.2 false
      let f := flight0 3 (some 1) [100] x.1
      s.dev.flight 0 = some f ∧ f.slot = some 1 ∧ f.tile < 64 ∧ Clocked s f.die 2
        ∧ s.dev.fab.flights.find? (fun y => y.die == f.die && y.tile == f.tile && y.slot == some 1 && y.inp == f.inp) = some f
        ∧ f.pkt.version = 2 ∧ s.dev.isFenced (pMake 0 3 1) = false ∧ notReady s.dev (pMake 0 3 1) = false
        ∧ s.dev.dieDown.contains 0 = false ∧ s.dev.coreOwner (pMake 0 3 1) = 0 ∧ s.dev.numberOf (pMake 0 3 1) = some 5 ∧ s.env.has 0 = true
        ∧ bit (reg s (NC_STATUS (pMake 0 3 1))) 0 = true)
    ∧ ((packet 0 0 5).typ = 0 ∧ (packet 0 0 5).words ≠ [] ∧ (packet 0 0 5).badFlits = []
      ∧ (packet 0 0 5).words.length = 8 * (packet 0 0 5).lenM1 + (packet 0 0 5).lastM1 + 1)
    ∧ ((arriving (packet 0 0 5) 511 false).dev.core 100).inbuf.length + ((arriving (packet 0 0 5) 511 false).dev.core 100).arrivals.length + 1 ≤ 512
    ∧ 512 < ((arriving (packet 0 0 5) 512 false).dev.core 100).inbuf.length + ((arriving (packet 0 0 5) 512 false).dev.core 100).arrivals.length + 1
    ∧ (arriving (packet 1 0 5) 0 false).dev.coreOwner 100 ≠ (packet 1 0 5).coach
    ∧ (maintFlight.typ = 3 ∧ maintFlight.badFlits = [] ∧ fldN maintFlight.info 19 1 = 1)
    ∧ (∀ bad ∈ [[], [1]], let s := arriving { packet 0 0 5 with badFlits := bad } 0 true
      s.dev.isFenced 100 = true ∧ Clocked s 0 2 ∧ (packet 0 0 5).typ ≠ 3 ∧ (packet 0 0 5).version = 2 ∧ s.env.has 0 = true ∧ (packet 0 0 5).coach < 4
        ∧ s.dev.flight 0 = some (flight0 3 (some 1) [100] { packet 0 0 5 with badFlits := bad })) := by
  simp only [Clocked]; decide +kernel

/-- R51: the packet's event arrives on time or early by its tag. -/
theorem test_event_arrives : gives (exec (.packetEject ⟨0, .none⟩) (arriving (packet 0 0 5) 0 false))
    (fun t => (t.dev.core 100).arrivals == [⟨⟨3, 5, 0, 5⟩, .early⟩]) = true := by decide +kernel

/-- The module at the fourth edge of die 0 with four repairs of its event lanes and of its timetable lanes; coach 0 owns a quarter. -/
def repaired (n : Nat) : State :=
  dev (fun v => { v with net := { v.net with ttRepairs := [(3, n)], pausedMods := [3, 6] } }) (poke [(EF_CPL_STATUS 0 3, 2 + 16 * n), (SN_OWN_CPL 0 3, 0xFF8)] running)

theorem witness_CouplingModulesChangeState :
    running.env.has 0 = true ∧ Clocked running 0 2 ∧ neighbour running.hw.part 0 3 = some 1 ∧ opposite 3 = 2
      ∧ 0 < quarters (repaired 3).dev 0 3 0 ∧ fld (reg (repaired 3) (EF_CPL_STATUS 0 3)) 4 3 < 4 ∧ 4 ≤ fld (reg (repaired 4) (EF_CPL_STATUS 0 3)) 4 3
      ∧ SMap.get 0 (repaired 3).dev.net.ttRepairs (0 * 4 + 3) < 4 ∧ 4 ≤ SMap.get 0 (repaired 4).dev.net.ttRepairs (0 * 4 + 3)
      ∧ (repaired 3).dev.net.pausedMods.contains (0 * 4 + 3) = true ∧ (repaired 3).dev.net.pausedMods.contains (1 * 4 + 2) = true
      ∧ neighbour running.hw.part 0 1 = none := by
  simp only [Clocked]; decide +kernel

/-- The entry of die 0 for die 5 is staged westward, where no coupling leads. -/
def badRoutes : State := dev (fun v => v.modFab (fun b => { b with staged := [(5, 3)] })) running

theorem witness_FabricRegisterWritesTakeEffect :
    running.env.has 0 = true ∧ Party.coachman 0 ≠ .debug ∧ (∀ h, Party.coachman 0 ≠ .port h)
      ∧ ((∀ g, g < 4 → running.dev.isOpen g = true → isHeld running.env running.dev g = true)
        ∧ running.dev.fab.flights = [] ∧ drouteOk running.env (staged running.env running.dev) = true)
      ∧ drouteOk badRoutes.env (staged badRoutes.env badRoutes.dev) = false := by
  refine ⟨by decide +kernel, by decide, fun h => by simp, by decide +kernel, by decide +kernel⟩

/-! ## Witnesses: queues -/

/-- The laid-out core with its queue 2 at 0x4000: a FIFO of 512 bytes, closed or open, and the rest of its registers. -/
def queued (ctrl : Nat) (l : List (Reg × Nat)) : State := poke ([(QM_Q_REGION 0 2, 0x40), (QM_Q_CTRL 0 2, ctrl)] ++ l) laidOut

/-- Channel 1 is enabled and triggered; its message lies at 0x4100, in the window of ADDRESSED queue 2 or outside it. -/
def triggered (mode : Nat) : State :=
  dev (fun v => v.modCore 0 (fun k => { k with trigs := [(1, some ⟨3, [], false⟩)] })) (queued mode [(QM_C_CTRL 0 1, 1), (QM_C_SRC 0 1, 0x208)])

theorem witness_QueueRegisterWritesTakeEffect :
    writesCore (queued 0 []) (.engine 0) 0 core0.idx ∧ (queued 0 []).env.has (pDie core0.idx) = true
    ∧ ((queued 0 []).dev.qOpen core0.idx 2 = false ∧ queueOk (queued 0 []).dev core0.idx 2 = true)
    ∧ ((queued 0 [(QM_Q_REGION 0 2, 0x10)]).dev.qOpen core0.idx 2 = false ∧ queueOk (queued 0 [(QM_Q_REGION 0 2, 0x10)]).dev core0.idx 2 = false)
    ∧ (∀ ctrl ∈ [1, 3], (queued ctrl []).dev.qOpen core0.idx 2 = true ∧ (queued ctrl []).dev.fd (QM_Q_CTRL core0.idx 2) 3 2 ≠ 1
      ∧ (queued ctrl []).dev.qMode core0.idx 2 = ctrl / 2 ∧ writesCore (queued ctrl []) (.engine 0) 0 core0.idx)
    ∧ ((queued 1 []).dev.fb (QM_C_CTRL core0.idx 1) 0 = false ∧ chanOk (queued 1 []).dev core0.idx 1 = true
      ∧ chanOk (queued 1 [(QM_C_CTRL 0 1, 0x20)]).dev core0.idx 1 = false)
    ∧ ((queued 1 [(QM_C_CTRL 0 1, 1)]).dev.fb (QM_C_CTRL core0.idx 1) 0 = true ∧ (queued 1 [(QM_C_CTRL 0 1, 1)]).dev.fd (QM_C_CTRL core0.idx 1) 1 2 = 0
      ∧ chanBusy (queued 1 [(QM_C_CTRL 0 1, 1)]).dev core0.idx 1 = false ∧ chanBusy (triggered 1).dev core0.idx 1 = true)
    ∧ bit (reg (queued 0 []) (QM_CTRL core0.idx)) 0 ≠ bit (1 : Word) 0 := by
  simp only [writesCore, reaches]; decide +kernel

/-- R167: RD = 512 behind WR = 0 is more than the ring away from no byte: WR − RD exceeds it. -/
theorem test_rd_error : gives (exec (.qmRdWrite (.engine 0) 0 2 32) (queued 1 [])) (fun t => bit (reg t (QM_Q_CTRL 0 2)) 10) = true
    ∧ gives (exec (.qmRdWrite (.engine 0) 0 2 0) (queued 1 [])) (fun t => !bit (reg t (QM_Q_CTRL 0 2)) 10) = true := by decide +kernel

/-- Queue 2 is relayed by channel 1 and holds an entry. -/
def relaying : State := dev (fun v => v.stCore 0 0x4000 4 64) (queued 0x29 [(QM_C_CTRL 0 1, 7)])

/-- Its channel is triggered by an entry of a format version. -/
def relayTriggered (ver : Nat) : State :=
  dev (fun v => (v.stCore 0 0x4100 1 ver).modCore 0 (fun k => { k with trigs := [(1, some ⟨3, [], true⟩)] })) relaying

def send1 (retry : Option Nat) (first attempt : Nat) : Send :=
  { sendno := 6, typ := 1, dkind := 0, dest := 5, queue := 2, offset := 0, seqTag := 0, lenM1 := 0, data := List.replicate 32 0, first := first,
    attempt := attempt, attempts := 1, stallLimit := 1000, replyLimit := 200, retryAt := retry, waiting := false, heldAt := none, relay := none, relayQ := 0 }

/-- A reply for channel 1 with a code. -/
def reply1 (code : Nat) : Packet := { packet 0 0 5 with typ := 1, info := 6 * 0x1000000 + 1, words := [w32 (2 + 256 * code)] }
def sent (x : Send) (replies : List Packet) : State :=
  dev (fun v => v.modCore 0 (fun k => { k with sends := [(1, some x)], replies := replies })) laidOut

theorem witness_SendsStartRetryAndEnd :
    (∀ mode ∈ [3, 1], (triggered mode).dev.trig core0.idx 1 = some ⟨3, [], false⟩ ∧ (triggered mode).dev.fb (QM_C_CTRL core0.idx 1) 0 = true
      ∧ (triggered mode).dev.coreOwner core0.idx ≠ 4 ∧ (triggered mode).dev.fd (QM_C_CTRL core0.idx 1) 4 2 ≠ 1)
    ∧ (inWindow (triggered 3).dev core0.idx ((triggered 3).dev.fd (QM_C_SRC core0.idx 1) 0 13 * 32) 32 = true
      ∧ inWindow (triggered 1).dev core0.idx ((triggered 1).dev.fd (QM_C_SRC core0.idx 1) 0 13 * 32) 32 = false)
    ∧ (relaying.dev.fb (QM_C_CTRL core0.idx 1) 0 = true ∧ relaying.dev.fd (QM_C_CTRL core0.idx 1) 1 2 = 3 ∧ chanBusy relaying.dev core0.idx 1 = false
      ∧ relayQueue relaying.dev core0.idx 1 = some 2 ∧ qUsed relaying.dev core0.idx 2 ≠ 0)
    ∧ (∀ ver ∈ [2, 3], let s := relayTriggered ver
      s.dev.trig core0.idx 1 = some ⟨3, [], true⟩ ∧ s.dev.fb (QM_C_CTRL core0.idx 1) 0 = true ∧ relayQueue s.dev core0.idx 1 = some 2
        ∧ leAt (ringRead s.dev core0.idx 2 (s.dev.qRd core0.idx 2) 32) 0 1 = ver ∧ s.env.has (pDie core0.idx) = true)
    ∧ (∀ x ∈ [send1 (some 20000000000) 19999999000 0, send1 (some 20000000001) 19999999000 0, send1 none 0 19999999800,
        { send1 none 0 0 with relay := some 64, relayQ := 2 }],
      (sent x []).dev.send core0.idx 1 = some x ∧ x.heldAt = none)
    ∧ (20000000000 ≤ running.env.nowOf 0 ∧ 20000000000 ≤ 19999999000 + 1000)
    ∧ (19999999000 + 1000 < 20000000001 ∧ 19999999000 + 1000 ≤ running.env.nowOf 0)
    ∧ ((send1 none 0 19999999800).retryAt = none ∧ (send1 none 0 19999999800).waiting = false ∧ 19999999800 + 200 ≤ running.env.nowOf 0)
    ∧ (∀ code ∈ [stBusy, stOk], ((sent (send1 none 0 0) [reply1 code]).dev.core core0.idx).replies = reply1 code :: []
      ∧ fldN (reply1 code).info 0 4 = 1 ∧ (send1 none 0 0).sendno = fldN (reply1 code).info 24 16 ∧ fld ((reply1 code).words.getD 0 0) 8 8 = code)
    ∧ (dev (fun v => v.modCore 0 (fun k => { k with replies := [reply1 stOk] })) laidOut).dev.send core0.idx 1 = none
    ∧ (∀ s ∈ [triggered 3, triggered 1, relaying, relayTriggered 2, relayTriggered 3, sent (send1 none 0 0) [reply1 stOk]], Clocked s (pDie core0.idx) 1)
    ∧ (let x := { send1 none 19999999000 19999999800 with waiting := true }
      (sent x []).dev.send core0.idx 1 = some x ∧ x.heldAt = none ∧ x.retryAt = none ∧ x.waiting = true ∧ 0 < x.attempts
        ∧ x.first + x.stallLimit ≤ (sent x []).env.nowOf (pDie core0.idx) ∧ Clocked (sent x []) (pDie core0.idx) 1) := by
  simp only [Clocked]; decide +kernel

/-- R187: the first retry comes 256 ns after the reply. -/
theorem test_first_backoff : gives (exec (.replyArrival core0) (sent (send1 none 0 0) [reply1 stBusy]))
    (fun t => (t.dev.send 0 1).map (fun x => x.retryAt) == some (some 20000000256)) = true := by decide +kernel

/-- A message of 32 bytes for queue 2 has arrived; the ring is empty or full, or the queue closed. -/
def message : Packet := { packet 0 0 5 with typ := 1, info := 6 * 0x1000000 + 2, words := List.replicate 8 7 }
def delivered (ctrl wr : Nat) : State :=
  dev (fun v => (v.stCore 0 0x4000 4 wr).modCore 0 (fun k => { k with msgs := [message] })) (queued ctrl [(QM_INJ_STATUS 0, 0x100)])

/-- Queue 2 combines two elements a slot; slot 5 is complete and waits, or is old and incomplete, with room in the ring or none. -/
def combining (complete : Bool) (wr : Nat) : State :=
  dev (fun v => (v.stCore 0 0x4000 4 wr).modCore 0 (fun k =>
      { k with slots := [(2 * 64 + 5, some ⟨5, 1, 3, complete, false⟩)], pendEmit := if complete then [2 * 64 + 5] else [], openTick := 14 }))
    (queued 5 [(QM_Q_COMB 0 2, 2 + 0x1000000 + 10 * 0x2000000)])

theorem witness_MessagesReachTheirQueue :
    (∀ x ∈ [(1, 0), (1, 512), (0, 0)],
      let s := delivered x.1 x.2
      (s.dev.core core0.idx).msgs = message :: [] ∧ message.srcBlock = false ∧ message.dkind ≠ 1 ∧ message.typ = 1
        ∧ message.words.length = 8 * (message.lenM1 + 1) ∧ (msgOf message).queue = 2 ∧ s.dev.fb (NC_PL_CTRL core0.idx) 5 = false
        ∧ writesCore s (.engine 0) 0 core0.idx ∧ bit (reg s (QM_INJ_STATUS core0.idx)) 8 = true)
    ∧ ((delivered 1 0).dev.qOpen core0.idx 2 = true ∧ (delivered 1 0).dev.qMode core0.idx 2 = 0
      ∧ (delivered 1 0).dev.qBase core0.idx 2 + 256 + (delivered 1 0).dev.qRing core0.idx 2 ≤ 0x40000 ∧ 64 ≤ (delivered 1 0).dev.qRing core0.idx 2
      ∧ 64 ≤ qFree (delivered 1 0).dev core0.idx 2 ∧ fld (2 : Word) 0 4 = 2 ∧ bit (2 : Word) 24 = false ∧ 32 * (fld (2 : Word) 4 4 + 2) = 64)
    ∧ ((delivered 1 512).dev.qMode core0.idx 2 = 0 ∧ qFree (delivered 1 512).dev core0.idx 2 < 64)
    ∧ ((delivered 0 0).dev.qOpen core0.idx 2 = false ∧ running.env.hasCore core0.idx = true)
    ∧ (∀ wr ∈ [448, 480], ∀ b ∈ [true, false], (combining b wr).dev.comb core0.idx 2 5 = some ⟨5, 1, 3, b, false⟩
      ∧ (combining b wr).dev.qOpen core0.idx 2 = true ∧ (combining b wr).dev.fb (QM_Q_COMB core0.idx 2) 24 = true
      ∧ 3 + (combining b wr).dev.fd (QM_Q_COMB core0.idx 2) 25 7 < ((combining b wr).dev.core core0.idx).openTick
      ∧ ((combining b wr).dev.core core0.idx).pendEmit = (if b then [2 * 64 + 5] else []))
    ∧ (32 + combVlen (combining true 448).dev core0.idx 2 ≤ qFree (combining true 448).dev core0.idx 2
      ∧ qFree (combining true 480).dev core0.idx 2 < 32 + combVlen (combining true 480).dev core0.idx 2)
    ∧ (∀ s ∈ [delivered 1 0, delivered 1 512, delivered 0 0, combining true 448, combining true 480, combining false 448, combining false 480],
      Clocked s (pDie core0.idx) 1) := by
  simp only [writesCore, reaches, Clocked]; decide +kernel

/-- R177: the code of an injected message that a closed queue refuses. -/
theorem test_closed_queue : gives (exec (.qmInjGo (.engine 0) 0 2) (delivered 0 0)) (fun t => reg t (QM_INJ_STATUS 0) == w32 (stClosed + 256)) = true := by decide +kernel

/-! ## Witnesses: register writes -/

theorem witness_StallAndReplyLimitsFollowR190 :
    writesCore laidOut (.engine 0) 0 core0.idx ∧ fld (0 : Word) 0 24 = 0 ∧ fld (0x10000 : Word) 0 16 = 0 ∧ fld (0x10000 : Word) 0 24 ≠ 0 ∧ fld (1 : Word) 0 16 ≠ 0
      ∧ (triggered 3).dev.send core0.idx 1 = none
      ∧ gives (exec (.sendStart core0 1) (triggered 3)) (fun t => (t.dev.send core0.idx 1).map (fun x => (x.stallLimit, x.replyLimit)) == some (100000, 200000)) = true := by
  simp only [writesCore, reaches]; decide +kernel

theorem witness_LossTimeoutFollowsR320 :
    isFirmware (.coachman 0) = true ∧ fld (0x10000 : Word) 0 16 = 0 ∧ fld (0xFFFF : Word) 0 16 ≠ 0
      ∧ (let r := HP_LOSS_TIMEOUT (portDie 3) (portUnit 3)
        (1 : Fin 8).val = portDie 3 ∧ 4 * (Fin.ofNat 2097152 (r.off / 4)).val = r.off ∧ fld (reg running r) 0 16 ≠ 0)
      ∧ gives (exec (.limitWrite (.port 3) (.loss 3) 0) running) (fun _ => true) = true := by decide +kernel

/-- A write of 0 to port 3's register stands at the head of port 3's write queue. -/
theorem witness_LossTimeoutFollowsR320_queue :
    let r := HP_LOSS_TIMEOUT (portDie 3) (portUnit 3)
    let a := 0x2000000 + 0x800000 * portDie 3 + r.off
    let s := dev (fun v => v.modPort 3 (fun h => { h with wq := [(a, 0)], lp := { h.lp with available := true } })) running
    (s.dev.port 3).wq = (a, 0) :: [] ∧ windowDie a = portDie 3 ∧ windowOff a = r.off ∧ fld (reg s r) 0 16 ≠ 0
      ∧ gives (exec (.writeQueueApply 3) s) (fun t => fld (reg t r) 0 16 != 0 && bit (reg t (hpStatus 3)) 7) = true := by decide +kernel

/-- Churn 2 and separator 5 of die 1 are secure; churn 0, separator 0 and the port's block are not. -/
def securing : State := poke [(SEC_BLOCK0 1, 4), (SEC_BLOCK1 1, 32)] running

theorem witness_FabricLimitsAndCounterClears_secure :
    securing.env.has 1 = true ∧ isFirmware (.coachman 1) = true ∧ securing.env.has (portDie 3) = true
    ∧ (securing.dev.fb (SEC_BLOCK0 1) 0 || securing.dev.fb (SEC_BLOCK1 1) 0 || securing.dev.fb (SEC_BLOCK0 (portDie 3)) (8 + portUnit 3)) = false
    ∧ inSecureWorld securing.env securing.dev (.coachman 1) = false ∧ securing.dev.fb (SEC_BLOCK0 1) 2 = true ∧ securing.dev.fb (SEC_BLOCK1 1) 5 = true
    ∧ securing.dev.churnOwner 1 2 < 5 ∧ securing.dev.sepOwner 1 5 < 5 := by decide +kernel

theorem witness_FabricLimitsAndCounterClears :
    running.env.has 1 = true ∧ Party.coachman 0 ≠ .debug ∧ (∀ h, Party.coachman 0 ≠ .port h) ∧ fld (1 : Word) 0 16 ≠ 0 ∧ fld (0x10000 : Word) 0 16 = 0
      ∧ isFirmware (.coachman 0) = true := by
  refine ⟨by decide +kernel, by decide, fun h => by simp, by decide, by decide, by decide⟩

theorem witness_AnyRegisterWriteFollowsItsAccess :
    (writesCore laidOut (.engine 0) 0 core0.idx ∧ laidOut.env.has (pDie core0.idx) = true ∧ (regRow (coreReg core0.idx (4 * 4))).isSome = true
      ∧ laidOut.dev.enabled core0.idx = false ∧ (poke [(NC_CTRL 0, 0x401)] laidOut).dev.enabled core0.idx = true
      ∧ writesCore (poke [(NC_CTRL 0, 0x401)] laidOut) (.engine 0) 0 core0.idx)
    ∧ (isHost (.coachman 0) = false ∧ debugOff laidOut.dev (.coachman 0) = false ∧ laidOut.env.has (partyDie laidOut.env (.coachman 0)) = true
      ∧ laidOut.dev.reach laidOut.env 5 = none ∧ { laidOut.env with hw := ⟨.vn2_4, false, false, 0⟩ }.has 4 = false ∧ globalReg (4 * 0x1FFFFF) = false)
    ∧ (running.env.master = 0 ∧ running.env.has 0 = true ∧ globalReg (4 * 0x4002) = true)
    ∧ (running.dev.port 0).lp.available = true
    ∧ running.env.hasReg 0 (4 * 0x1FFFFF) = false
    ∧ (4 * 0x4002 = 0x10008 ∧ running.env.has 0 = true ∧ running.dev.dieDown.contains 0 = false ∧ debugOff running.dev (.port 0) = false
      ∧ buReady running.env (poke [(BU_STATUS 0, 0x100)] running).dev = true)
    ∧ (isHost (.coachman 0) = false ∧ 4 * 0x54000 / 0x10000 = 0x15 ∧ running.env.hasReg 0 (4 * 0x54000) = true ∧ running.env.master = 0)
    ∧ hostMay running.env 0 (4 * 0x54000) = false := by
  simp only [writesCore, reaches]; decide +kernel

/-! ## Witnesses: what a host reaches -/

/-- A burst at a row with whole words at bytes 4 to 7 only. -/
def wordBurst (row : Fin 65536) : Burst := { goodBurst with row := row, masked := (List.range 32).map (fun j => decide (j / 4 ≠ 1)) }

/-- The row of the register window that holds the time-base block of die 0. -/
def windowRow : Fin 65536 := 1026

theorem witness_AddressesDecodeAsR294 : goodBurst.bl32 = false ∧ ({ goodBurst with bl32 := true } : Burst).bl32 = true := by decide

def unopened : State := dev (fun v => { v with bu := { v.bu with tested := false } }) running

theorem witness_HostWritesReachPortSram :
    badBurst.wellFormed = false ∧ goodBurst.wellFormed = true ∧ State.reset.dev.takes 0 = false ∧ running.dev.takes 0 = true ∧ goodBurst.addr < 0x2000000
      ∧ sramOpen running.env running.dev 0 = true ∧ goodBurst.addr < statusPage
      ∧ (statusPage ≤ ({ goodBurst with row := 1023, bank := 15, col := 63 } : Burst).addr ∧ ({ goodBurst with row := 1023, bank := 15, col := 63 } : Burst).addr < 0x2000000)
      ∧ unopened.dev.takes 0 = true ∧ sramOpen unopened.env unopened.dev 0 = false ∧ MemOk running
      ∧ goodBurst.data[31]? = some 0xA5 ∧ goodBurst.masked[31]? = some false ∧ running.dev.net.recentWr = [] := by
  simp only [MemOk]; decide +kernel

/-- Every coupling works and every die knows its routes. -/
def linked : State :=
  (poke ((List.range 8).flatMap (fun d => (List.range 4).map (fun e => (EF_CPL_STATUS d e, if (neighbour .vn2_8 d e).isSome then 2 else 0)))) running)

theorem witness_ShadowAndStatusPage :
    running.dev.takes 0 = true ∧ (⟨0, 0, 0, false, [], []⟩ : Burst).addr < 0x2000000 ∧ sramOpen running.env running.dev 0 = true
      ∧ (let b : Burst := ⟨windowRow, 0, 0, false, [], []⟩
        0x2000000 ≤ b.addr ∧ 4 * 2 < b.size ∧ served running.env running.dev 0 (b.addr + 8) = true
          ∧ visible running.env running.dev 0 (windowDie (b.addr + 8)) (windowOff (b.addr + 8)) = true ∧ isHi (windowOff (b.addr + 8)) = false
          ∧ readLive (windowOff (b.addr + 8)) = false)
      ∧ linked.env.has 1 = true ∧ linked.dev.portOpen 0 = true ∧ freezes linked.env linked.dev 0 1 = false ∧ freezes running.env running.dev 0 1 = true
      ∧ running.dev.pw.phase ≠ .hold ∧ State.reset.dev.portOpen 0 = false ∧ running.dev.net.recentWr = [] := by decide +kernel

/-- A number of writes wait in port 0's queue, and no fetch or one of an address runs. -/
def waiting (n : Nat) (a : Nat) (fetch : Option Nat) : State :=
  dev (fun v => v.modPort 0 (fun h => { h with wq := List.replicate n (a, 1), fetch := fetch })) running

theorem witness_FullWriteQueueDropsWrites :
    (wordBurst windowRow).wellFormed = true ∧ (waiting 256 0 none).dev.takes 0 = true ∧ 0x2000000 ≤ (wordBurst windowRow).addr
      ∧ ((waiting 256 0 none).dev.port 0).wq.length = 256 ∧ 4 * 1 < (wordBurst windowRow).size
      ∧ served (waiting 256 0 none).env (waiting 256 0 none).dev 0 ((wordBurst windowRow).addr + 4) = true
      ∧ (∀ j, j < (wordBurst windowRow).size → ((wordBurst windowRow).masked[j]? = some false ↔ j / 4 = 1)) := by decide +kernel

/-- A burst of eight whole writes meets a queue with room for all of them, for three, and for none. -/
theorem witness_FullWriteQueueDropsWrites_several :
    ∀ n ∈ [0, 253, 256],
      let s := waiting n 0 none
      let b : Burst := { goodBurst with row := windowRow };
      b.wellFormed = true ∧ s.dev.takes 0 = true ∧ 0x2000000 ≤ b.addr ∧ (s.dev.port 0).wq.length = n ∧ burstReserved s.env s.dev 0 b.addr = false
        ∧ ((burstWords b).filter (fun w => w.2.2 == 0 && served s.env s.dev 0 w.1)).length > 3 := by decide +kernel

theorem witness_PostedWritesAndFetches_further :
    (let s := waiting 1 (0x2000000 + (TG_CTRL 0 0).off) none;
      s.env.has (portDie 0) = true ∧ (s.dev.port 0).lp.available = true)
    ∧ (let a := 0x27FFFFC
      let s := waiting 0 0 (some a);
      (s.dev.port 0).fetch = some a ∧ a % 4 = 0 ∧ 0x2000000 ≤ a ∧ a < 0x6000000 ∧ windowDie a < s.env.dies ∧ s.env.hasReg (windowDie a) (windowOff a) = false)
    ∧ (let s := waiting 0 0 (some 0x2010008);
      dieAnswers s.dev (windowDie 0x2010008) (windowOff 0x2010008) = true) := by decide +kernel

theorem witness_PostedWritesAndFetches :
    ((waiting 255 0 none).dev.takes 0 = true ∧ ((waiting 255 0 none).dev.port 0).wq.length < 256
      ∧ served (waiting 255 0 none).env (waiting 255 0 none).dev 0 ((wordBurst windowRow).addr + 4) = true)
    ∧ (let a := 0x2000000 + (TG_CTRL 0 0).off
      let s := waiting 1 a none
      (s.dev.port 0).wq = (a, 1) :: [] ∧ (s.dev.port 0).fetch = none ∧ s.env.hasReg (windowDie a) (windowOff a) = true
        ∧ visible s.env s.dev 0 (windowDie a) (windowOff a) = false)
    ∧ ((waiting 0 0 none).dev.port 0).wq = [] ∧ ((waiting 1 0 (some 4)).dev.port 0).fetch ≠ none
    ∧ (∀ a ∈ [0x2010002, 0x1FFFFFC, 0x6000000], ((waiting 0 0 (some a)).dev.port 0).fetch = some a ∧ (a % 4 ≠ 0 ∨ a < 0x2000000 ∨ 0x6000000 ≤ a))
    ∧ (let a := 0x2010008
      let s := waiting 0 0 (some a)
      (s.dev.port 0).fetch = some a ∧ a % 4 = 0 ∧ served s.env s.dev 0 a = true ∧ visible s.env s.dev 0 (windowDie a) (windowOff a) = true
        ∧ windowDie a < s.env.dies ∧ s.dev.dieDown.contains (windowDie a) = false) := by decide +kernel

/-- R302: SEQ counts and DONE clears when a fetch starts. -/
theorem test_fetch_starts : gives (exec (.hpFetchAddrWrite (.port 0) 0 0x2010008) running)
    (fun t => reg t (HP_FETCH_DONE 0 0) == 0x10000) = true := by decide +kernel

/-! ## Gather tables with at most their first entry valid -/

theorem reset_small : ∀ x ∈ regRows, x.core = false → x.reset < 2 ^ 31 := by decide +kernel

theorem regReset_small (r : Reg) (hc : r.core = false) : (regReset r).toNat < 2 ^ 31 := by
  unfold regReset
  cases h : regRow r with
  | none => simp
  | some x =>
    have hx : x.core = false := by
      have := List.find?_some h
      simp only [RegRow.covers, Bool.and_eq_true, beq_iff_eq] at this
      rw [this.1.1.1.1, hc]
    have := reset_small x (List.mem_of_find?_eq_some h) hx
    simp only [BitVec.toNat_ofNat]
    omega

/-- A register reads as one of the values written, else as its reset value: below 2^31 where all of these are. -/
theorem get_small (d : Word) (hd : d.toNat < 2 ^ 31) (k0 : Nat) (m : SMap Word) (h : ∀ e ∈ m, e.1 ≠ k0 → e.2.toNat < 2 ^ 31) (k : Nat) (hk : k ≠ k0) :
    (SMap.get d m k).toNat < 2 ^ 31 := by
  induction m with
  | nil => simpa [SMap.get] using hd
  | cons e m ih =>
    obtain ⟨a, x⟩ := e
    simp only [SMap.get]
    split
    · rename_i ha
      exact h (a, x) List.mem_cons_self (by simpa [ha] using hk)
    · exact ih (fun e he => h e (List.mem_cons_of_mem _ he))

theorem entry_invalid (v : Dev) (r : Nat → Reg) (i k0 : Nat) (h : ∀ e ∈ v.regs, e.1 ≠ k0 → e.2.toNat < 2 ^ 31) (hk : (r (2 * i + 1)).key ≠ k0)
    (hc : ∀ j, (r j).core = false) :
    geValid (entry8 v r i) = false := by
  have hi : v.rdN (r (2 * i + 1)) < 2 ^ 31 := get_small _ (regReset_small _ (hc _)) k0 v.regs h _ hk
  have lo : v.rdN (r (2 * i)) < 2 ^ 32 := (v.rd (r (2 * i))).isLt
  unfold geValid entry8 Dev.rd64 fldN
  have : (v.rdN (r (2 * i)) + 0x100000000 * v.rdN (r (2 * i + 1))) / 2 ^ 63 = 0 := Nat.div_eq_of_lt (by omega)
  rw [this]
  rfl

theorem entries_none (v : Dev) (r : Nat → Reg) (hc : ∀ j, (r j).core = false) (n : Nat) (h : v.regs.all (fun e => decide (e.2.toNat < 2 ^ 31)) = true) :
    ((List.range n).map (entry8 v r)).filter geValid = [] := by
  rw [List.filter_eq_nil_iff]
  intro w hw
  obtain ⟨i, -, rfl⟩ := List.mem_map.mp hw
  have h' : ∀ e ∈ v.regs, e.1 ≠ (r (2 * i + 1)).key + 1 → e.2.toNat < 2 ^ 31 := fun e he _ => by simpa using List.all_eq_true.mp h e he
  simp [entry_invalid v r i ((r (2 * i + 1)).key + 1) h' (by omega) hc]

theorem entries_one (v : Dev) (r : Nat → Reg) (hc : ∀ j, (r j).core = false) (n w : Nat) (hr : ∀ i j, (r i).key = (r j).key → i = j)
    (h : v.regs.all (fun e => decide (e.1 = (r 1).key) || decide (e.2.toNat < 2 ^ 31)) = true) (h0 : entry8 v r 0 = w) (hv : geValid w = true) :
    ((List.range (n + 1)).map (entry8 v r)).filter geValid = [w] := by
  have h' : ∀ e ∈ v.regs, e.1 ≠ (r 1).key → e.2.toNat < 2 ^ 31 := fun e he hne => by
    have := List.all_eq_true.mp h e he
    simpa [hne] using this
  rw [List.range_succ_eq_map, List.map_cons, h0, List.filter_cons_of_pos hv, List.map_map, List.cons_eq_cons]
  refine ⟨rfl, List.filter_eq_nil_iff.mpr fun x hx => ?_⟩
  obtain ⟨i, -, rfl⟩ := List.mem_map.mp hx
  have := entry_invalid v r (i + 1) (r 1).key h' (fun hk => by have := hr _ _ hk; omega) hc
  simpa using this

theorem gather_keys (d c i j : Nat) (h : (CHN_GATHER d c i).key = (CHN_GATHER d c j).key) : i = j := by
  simp only [CHN_GATHER, dieReg, Reg.key] at h
  omega

/-! ## Witnesses: port interfaces, churns, pails and separators -/

/-- Port 0 with its heartbeat watched for 20 s, its loss begun 20 s ago and not yet reported. -/
def losing : State := dev (fun v => v.modPort 0 (fun h => { h with loss := some 1 })) (poke [(HP_CTRL 0 0, 1), (HP_LOSS_TIMEOUT 0 0, 19999)] (coached .running running))

/-- Two bursts wait in the FIFO of port 0's interface. -/
def holding : State := dev (fun v => v.modPort 0 (fun h => { h with lp := { h.lp with fifo := [[1], [2]] } })) running

/-- R291: the FIFO gives its bursts back in their order. -/
theorem test_fifo_order : gives (exec (.shadowRead 0 0 0 0 .fifo) holding) (fun t => (t.dev.port 0).rdata == [1] && (t.dev.port 0).lp.fifo == [[2]]) = true := by decide +kernel

theorem witness_PortInterfaceStates :
    (running.dev.bu.perst = true ∧ running.dev.pw.thermtrip = false ∧ running.dev.pw.phase ≠ .hold ∧ running.dev.padsLatched 0 = false)
    ∧ running.dev.takes 0 = true ∧ (running.dev.port 0).loss = none ∧ (running.dev.port 0).lp.fifo.length < 8
    ∧ (holding.dev.takes 0 = true ∧ (holding.dev.port 0).lp.fifo = [1] :: [[2]])
    ∧ (losing.dev.fb (HP_CTRL (portDie 0) (portUnit 0)) 0 = true ∧ (losing.dev.port 0).hbRef + lossNs losing.dev 0 ≤ losing.env.nowOf 0)
    ∧ ((losing.dev.port 0).loss = some 1 ∧ (losing.dev.port 0).lossDone = false ∧ 1 + lossNs losing.dev 0 ≤ losing.env.nowOf 0
      ∧ losing.dev.isOpen 0 = true ∧ (losing.dev.coach 0).port = 0) := by decide +kernel

/-- One vector into accumulator row 3 of bank 0, from the data port. -/
def pass1 : Pass :=
  { mode := 0, wfmt := false, afmt := false, seed := 0, final := true, stats := false, zpIn := 0, outfmt := 0, odest := false, rnd := false, evpay := false,
    msrc := false, outlEn := false, vcount := 1, arow := 3, abank := 0, rqBase := 0, zpOut := 0, evThresh := 0, evDelay := 0, axonBase := 0, emitBase := 0,
    mword := 0, mstride := 0, outlMask := 0 }
def word1 (x : Nat) : TWord := ⟨x, true, 0, 0⟩

/-- Churn 0 of die 0 belongs to coach 0 and is at its first pass; its ports and shadow buffer hold some words, and a frame runs or none. -/
def churning (w shadow : Nat) (data : List TWord) (frames : SMap (Option Frame)) (l : List (Reg × Nat)) : State :=
  dev (fun v =>
      { v.modChurn 0 0 (fun h =>
          { h with list := [pass1], frameOf := some 3, wport := List.replicate w (word1 2), shadow := List.replicate shadow 2, dport := data })
        with net := { v.net with frames := frames, active := [(4, some table9)] } })
    (poke ([(CHN_CTRL 0 0, 0x400)] ++ l) (coached .running running))
def stage1 : OutStage := ⟨pass1, 0, 3, 0, [], 0⟩
def draining (running' : Bool) : State :=
  dev (fun v => v.modChurn 0 0 (fun h => { h with due := [stage1], running := if running' then [stage1] else [] })) (churning 0 0 [] [] [])

/-- A pass that can start, one whose block has not come, one whose words are still to come, and one in a frame that lies ahead. -/
theorem witness_ChurnsRunTheirPasses :
    (((churning 128 0 [] [] []).dev.churn 0 0).next = some pass1 ∧ ((churning 128 0 [] [] []).dev.churn 0 0).shadow = []
      ∧ 128 ≤ ((churning 128 0 [] [] []).dev.churn 0 0).wport.length)
    ∧ (let s := churning 0 128 [word1 0x0304] [(0, some frame9)] []
      passDue s.env s.dev 0 0 = some (frame9, pass1) ∧ (s.dev.churn 0 0).shadow.length = 128
        ∧ bit (reg s (CHN_STATUS 0 0)) (1 + pass1.abank) = false ∧ pass1.pailOk s.dev 0 0 = true ∧ pass1.seed = 0 ∧ pass1.mode = 0
        ∧ pass1.vectorsIn ≤ (s.dev.churn 0 0).dport.length)
    ∧ (let s := churning 0 0 [] [(0, some frame9)] []
      passDue s.env s.dev 0 0 = some (frame9, pass1) ∧ passReady s.dev 0 0 pass1 = false ∧ s.env.has 0 = true)
    ∧ (let s := churning 0 128 [] [(0, some frame9)] []
      passDue s.env s.dev 0 0 = some (frame9, pass1) ∧ passReady s.dev 0 0 pass1 = true
        ∧ (s.dev.churn 0 0).dport.length < pass1.seedsIn + pass1.vectorsIn ∧ wordsDone s.env s.dev (s.dev.churnOwner 0 0) frame9 = false)
    ∧ (let f : Frame := { frame9 with start := 20000000001 }
      let s := churning 0 128 [] [(0, some f)] []
      s.dev.frame (s.dev.churnOwner 0 0) = some f ∧ slotDue s.env s.dev 0 f (passSlot s.dev 0 0 (s.dev.churn 0 0).pos) = false)
    ∧ bit (reg (churning 0 128 [] [(0, some frame9)] [(CHN_STATUS 0 0, 8)]) (CHN_STATUS 0 0)) 3 = true
    ∧ (churning 0 128 [] [] []).dev.frame 0 = none ∧ (running.dev.churn 0 0).frameOf = none ∧ (running.dev.churn 0 0).next = none
    ∧ ((draining false).dev.churn 0 0).due = stage1 :: [] ∧ stage1.pass.odest = false ∧ stage1.pass.abank < 2
    ∧ ((draining true).dev.churn 0 0).running.any (fun o => o.pass.abank == 0) = true
    ∧ ((draining false).dev.churn 0 0).running.any (fun o => o.pass.abank == 0) = false := by decide +kernel

/-- The churn with another pass, its block there, and so many words at the data port. -/
def passing (p : Pass) (n : Nat) (fr : Frame) : State :=
  dev (fun v => v.modChurn 0 0 (fun h => { h with list := [p] })) (churning 0 128 (List.replicate n (word1 0x0304)) [(0, some fr)] [(PAIL_CTRL 0 0, 2)])

/-- Seeds of each kind, event data from words and from the pail in both modes, with the words that each takes; and a frame whose words have
all been delivered. -/
theorem witness_ChurnsRunTheirPasses_seeds :
    (∀ x ∈ [({ pass1 with seed := 1 }, 1), ({ pass1 with seed := 2 }, 5), ({ pass1 with mode := 1 }, 1), ({ pass1 with mode := 1, msrc := true }, 0),
        ({ pass1 with mode := 2, msrc := true }, 0)], let s := passing x.1 x.2 frame9
      passDue s.env s.dev 0 0 = some (frame9, x.1) ∧ (s.dev.churn 0 0).shadow.length = 128 ∧ bit (reg s (CHN_STATUS 0 0)) (1 + x.1.abank) = false
        ∧ x.1.pailOk s.dev 0 0 = true ∧ x.1.seedsIn + x.1.vectorsIn ≤ (s.dev.churn 0 0).dport.length ∧ Clocked s 0 0)
    ∧ (let f : Frame := { frame9 with done := [(instKey 1 0 0, 2)] }
      let s := passing pass1 0 f
      passDue s.env s.dev 0 0 = some (f, pass1) ∧ passReady s.dev 0 0 pass1 = true ∧ wordsDone s.env s.dev (s.dev.churnOwner 0 0) f = true ∧ Clocked s 0 0) := by
  simp only [Clocked]; decide +kernel

/-- A stage whose end comes with no event left, after the cycles counted or others, and one whose event the interface does not take. -/
theorem witness_ChurnsRunTheirPasses_ends :
    (Clocked (churning 128 0 [] [] []) 0 0 ∧ Clocked (draining false) 0 0)
    ∧ (let s := draining true
      Clocked s 0 0 ∧ (s.dev.churn 0 0).eout = [] ∧ (s.dev.churn 0 0).running.any (fun o => o.pass.abank == 0) = true
        ∧ SMap.get 0 (s.dev.churn 0 0).waited 0 = 0 ∧ SMap.get 0 (s.dev.churn 0 0).waited 0 ≠ 7)
    ∧ (let s := dev (fun v => (v.modChurn 0 0 (fun h => { h with eout := [(0, event1)], waitAt := some 5 })).modFab (fun b =>
          { b with ifaces := [(blockIface 0 0, ⟨none, [⟨packet 0 0 5, false, none⟩], false⟩)] })) (draining true)
      Clocked s 0 0 ∧ (s.dev.churn 0 0).eout = (0, event1) :: [] ∧ (s.dev.churn 0 0).waitAt = some 5
        ∧ takesEvent s.dev (blockIface 0 0) event1 = false) := by
  simp only [Clocked]; decide +kernel

theorem witness_RoundingIsToNearestEven : 0 < 1 ∧ 2 * (3 - roundEven 3 1 * ((2 ^ 1 : Nat) : Int)).natAbs = 2 ^ 1 ∧ 0 < 1 ∧ 1 < 2 ^ 32 := by decide

/-- R218: 1.5 and 2.5 round to 2. -/
theorem test_ties_to_even : roundEven 3 1 = 2 ∧ roundEven 5 1 = 2 := by decide

/-- A gather entry for neurons 0 to 3 of core number 5, from position 40. -/
def gather5 : Nat := 5 + 3 * 2 ^ 28 + 40 * 2 ^ 38 + 2 ^ 63

/-- Pail 0 of die 0, of coach 0, enabled; core number 5 lies on the die; a record waits on its pail bus. -/
def pailed (coach : Nat) (l : List (Reg × Nat)) : State :=
  dev (fun v => { v with bus := [⟨0, 101, 5, 2, 1, 0, coach, none⟩], place := { v.place with place := [(5, 101)], number := [(100, 6)] } })
    (poke ([(PAIL_CTRL 0 0, 1), (CHN_GATHER 0 0 0, 5 + 3 * 2 ^ 28), (CHN_GATHER 0 0 1, 0x80000A00)] ++ l) (churning 0 0 [] [] []))

theorem pailed_entries (coach : Nat) (l : List (Reg × Nat)) (h : (pailed coach l).dev.regs.all (fun e => decide (e.1 = (CHN_GATHER 0 0 1).key) || decide (e.2.toNat < 2 ^ 31)) = true)
    (h0 : entry8 (pailed coach l).dev (CHN_GATHER 0 0) 0 = gather5) : pailEntries (pailed coach l).dev 0 0 = [gather5] :=
  entries_one _ _ (fun _ => rfl) 2047 gather5 (gather_keys 0 0) h h0 (by decide)

theorem running_entries : pailEntries (churning 0 0 [] [] []).dev 0 0 = [] := entries_none _ _ (fun _ => rfl) 2048 (by decide +kernel)

/-- A window that ended and waits for nothing. -/
def windowed : State := dev (fun v => v.modChurn 0 0 (fun h => { h with winEnded := some 1, mseSum := [(16, 77)], mseCnt := [(16, 5)] })) running

theorem witness_PailsStatisticsAndSeeds :
    ((∀ g ∈ [0, 1], let s := pailed g [];
        s.dev.bus.find? (fun r => r.die == 0) = some ⟨0, 101, 5, 2, 1, 0, g, none⟩ ∧ (List.range 4).any (fun c => pailFull s.dev 0 c) = false
          ∧ pailOn s.dev 0 0 = true ∧ s.dev.churnOwner 0 0 = 0 ∧ bit (reg s (PAIL_STATUS 0 0)) 2 = false ∧ (s.dev.churn 0 0).collTick = 0)
      ∧ pailMatches (pailed 0 []).env (pailed 0 []).dev 0 0 ⟨0, 101, 5, 2, 1, 0, 0, none⟩ = [gather5])
    ∧ bit (reg (pailed 0 [(PAIL_STATUS 0 0, 4)]) (PAIL_STATUS 0 0)) 2 = true
    ∧ ((windowed.dev.churn 0 0).winEnded = some 1 ∧ (windowed.dev.churn 0 0).winFrame ≠ 1
      ∧ ((windowed.dev.churn 0 0).due ++ (windowed.dev.churn 0 0).running).any (fun o => o.win == 1) = false
      ∧ SMap.get 0 (windowed.dev.churn 0 0).mseSum (1 * 16 + 0) < 2 ^ 64 ∧ SMap.get 0 (windowed.dev.churn 0 0).mseCnt (1 * 16 + 0) < 2 ^ 32)
    ∧ (running.env.has 0 = true ∧ Party.engine 0 = .engine 0 ∧ (churning 0 0 [] [] []).dev.churnOwner 0 0 < 4
      ∧ ((churning 0 0 [] [] []).dev.coach ((churning 0 0 [] [] []).dev.churnOwner 0 0)).port = 0
      ∧ pailOn (churning 0 0 [] [] []).dev 0 0 = false
      ∧ gatherOk (pailEntries (churning 0 0 [] [] []).dev 0 0) (pailPositions (churning 0 0 [] [] []).dev 0 0) = true)
    ∧ (fld (7 : Word) 0 16 ≠ 0 ∧ fld (0x10000 : Word) 0 16 = 0) := by
  refine ⟨⟨by decide +kernel, ?_⟩, by decide +kernel, by decide +kernel, ?_, by decide⟩
  · rw [pailMatches, pailed_entries 0 [] (by decide +kernel) (by decide +kernel)]
    decide +kernel
  · rw [running_entries]
    decide +kernel

/-- The hub of the record's tile is full, and core 100 of it waits with a record in its fire. -/
def hubFull (coach : Nat) : State :=
  dev (fun v => ({ v with bus := ⟨0, 101, 5, 2, 1, 0, coach, none⟩ :: List.replicate 63 ⟨0, 101, 5, 3, 1, 0, coach, none⟩ }).modCore 100 (fun k =>
      { k with fire := some { fire3 [] none with recs := [⟨0, 100, 5, 9, 1, 0, coach, none⟩] } }))
    (pailed coach [])

theorem witness_PailsStatisticsAndSeeds_hub :
    (∀ g ∈ [0, 1], let s := hubFull g
      s.dev.bus.find? (fun r => r.die == 0) = some ⟨0, 101, 5, 2, 1, 0, g, none⟩ ∧ Clocked s 0 0
        ∧ (List.range 4).any (fun c => pailFull s.dev 0 c) = false ∧ pailOn s.dev 0 0 = true ∧ s.dev.churnOwner 0 0 < 4
        ∧ (s.dev.core (101 / 33 * 33 + 1)).fire = some { fire3 [] none with recs := [⟨0, 100, 5, 9, 1, 0, g, none⟩] } ∧ hubCount s.dev (101 / 33) = 64
        ∧ (s.dev.core (101 / 33 * 33 + 0)).fire = none)
    ∧ (∀ g ∈ [0, 1], Clocked (pailed g []) 0 0 ∧ (pailed g []).dev.cores = [])
    ∧ (Clocked windowed 0 0 ∧ Clocked (pailed 0 [(PAIL_STATUS 0 0, 4)]) 0 0)
    ∧ bit (reg (churning 0 0 [] [] []) (SEC_BLOCK0 0)) 0 = false := by
  simp only [Clocked]; decide +kernel

/-- A gather entry with a reserved bit fails the check of R211. -/
theorem witness_PailsStatisticsAndSeeds_bad_entry : gatherOk [gather5 + 2 ^ 57] 4096 = false := by decide +kernel

/-- Separator 0 of die 0 belongs to coach 0: an encoder of one element. -/
def separating (on : Bool) (inq : List (Nat × Nat × TWord)) (shape : Nat) : State :=
  dev (fun v => v.modSep 0 0 (fun h => { h with inq := inq, tick := 3 }))
    (poke [(SP_CTRL 0 0, if on then 0x401 else 0x400), (SP_SHAPE 0 0, shape)] (coached .running running))

theorem separating_entries : spEntries (separating false [] 0x100).dev 0 0 = [] := entries_none _ _ (fun _ => rfl) 512 (by decide +kernel)

theorem witness_SeparatorsConvertWords :
    (let s := separating true [(3, 0, word1 9)] 0x100;
      (s.dev.sep 0 0).inq = (3, 0, word1 9) :: [] ∧ spOn s.dev 0 0 = true ∧ (word1 9).valid = true ∧ (s.dev.sep 0 0).tick = 3
        ∧ (0, 9) ∈ wordElems s.dev 0 0 0 9 ∧ 0 ∉ (s.dev.sep 0 0).taken ∧ spDecode s.dev 0 0 = false)
    ∧ ((separating false [(3, 0, word1 9)] 0x100).dev.sep 0 0).inq = (3, 0, word1 9) :: [] ∧ spOn (separating false [(3, 0, word1 9)] 0x100).dev 0 0 = false
    ∧ ((separating true [] 0x100).dev.sep 0 0).inq = []
    ∧ (∀ shape ∈ [0x100, 0], let s := separating false [] shape;
      bit (reg s (SP_CTRL 0 0)) 0 = false ∧ bit (reg s (SP_CTRL 0 0)) 7 = false ∧ s.dev.sepOwner 0 0 < 4 ∧ (s.dev.coach (s.dev.sepOwner 0 0)).port = 0)
    ∧ spOk (separating false [] 0x100).dev 0 0 = true ∧ spOk (separating false [] 0).dev 0 0 = false := by
  refine ⟨by decide +kernel, by decide +kernel, by decide +kernel, by decide +kernel, by decide +kernel, ?_, ?_⟩
  · rw [spOk, separating_entries]
    decide +kernel
  · rw [spOk, show spEntries (separating false [] 0).dev 0 0 = [] from entries_none _ _ (fun _ => rfl) 512 (by decide +kernel)]
    decide +kernel

/-- Separator 0 encodes or decodes one element in a mode, with and without payload, by a threshold of 4; its generator's element state is 0. -/
def converting (ctrl mode pay : Nat) : State :=
  dev (fun v => v.modSep 0 0 (fun h => { h with inq := [(3, 0, word1 9)], tick := 3 }))
    (poke [(SP_CTRL 0 0, ctrl), (SP_SHAPE 0 0, 0x100), (SP_CHAN 0 0 0, mode + 8 * pay), (SP_CHAN 0 0 1, 0x40001)] (coached .running running))

theorem witness_SeparatorsConvertWords_modes :
    (∀ x ∈ [(0x401, 0, 0), (0x401, 0, 1), (0x401, 1, 0), (0x401, 2, 0), (0x401, 3, 0), (0x401, 3, 1), (0x403, 4, 0), (0x403, 5, 0), (0x403, 6, 0), (0x403, 7, 0)],
      let s := converting x.1 x.2.1 x.2.2
      (s.dev.sep 0 0).inq = (3, 0, word1 9) :: [] ∧ (s.dev.sep 0 0).eout = [] ∧ Clocked s 0 0 ∧ spOn s.dev 0 0 = true ∧ (s.dev.sep 0 0).tick = 3
        ∧ (0, 9) ∈ wordElems s.dev 0 0 0 9 ∧ 0 ∉ (s.dev.sep 0 0).taken ∧ spDecode s.dev 0 0 = (x.1 == 0x403)
        ∧ (s.dev.elemChan 0 0 0).mode = x.2.1 ∧ (s.dev.elemChan 0 0 0).pay = (x.2.2 == 1) ∧ 0 < (s.dev.elemChan 0 0 0).dthr
        ∧ SMap.get 0 (s.dev.sep 0 0).st 0 = 0)
    ∧ Clocked (separating false [(3, 0, word1 9)] 0x100) 0 0 ∧ ((separating false [(3, 0, word1 9)] 0x100).dev.sep 0 0).eout = []
    ∧ (let s := dev (fun v => (v.modSep 0 0 (fun h => { h with eout := [event1] })).modFab (fun b =>
          { b with ifaces := [(blockIface 0 4, ⟨none, [⟨packet 0 0 5, false, none⟩], false⟩)] })) (separating true [(3, 0, word1 9)] 0x100)
      (s.dev.sep 0 0).eout = event1 :: [] ∧ Clocked s 0 0 ∧ takesEvent s.dev (blockIface 0 (4 + 0)) event1 = false)
    ∧ ((separating true [] 0x100).dev.sep 0 0).inq = [] ∧ ((separating true [] 0x100).dev.sep 0 0).eout = []
    ∧ bit (reg (separating false [] 0x100) (SEC_BLOCK1 0)) 0 = false := by
  simp only [Clocked]; decide +kernel

/-! ## Witnesses: commands -/

/-- Bytes of port 0's SRAM. -/
def put (off : Nat) (bs : List Byte) (s : State) : State := dev (fun v => v.st (sramMem 0 off) bs) s

/-- A buffer as a command names it: 0x4000 and a length. -/
def buf (n : Nat) : Nat := 0x4000 + n * 2 ^ 32

/-- Core number 5 of coach 0 lies on the laid-out core; core number 6 of its range has no core. -/
def placed (st : CoachState) (s : State) : State :=
  dev (fun v => { v with place := { v.place with place := [(5, 1)], number := [(0, 6)] } })
    (poke [(NC_STATE_CFG 0, 0x10010), (NC_AXON_CFG 0, 0x40020), (NC_ROW_CFG 0, 0x10030), (NC_DRING_CFG 0, 0x40002), (NC_CTRL 0, 0x400)] (coached st s))

/-- A command given to port 0, with a buffer at 0x4000, for coach 0 opened there. -/
def asked (c : Cmd) (bs : List Byte) (s : State) : State := given c (put 0x4000 bs (placed .opened s))

def openCmd : Cmd := cmd 1 0 [(8, 4, 5), (12, 4, 6), (16, 4, 2), (20, 8, buf 96)]
def openState : State := given openCmd (put 0x4000 ([2, 1] ++ List.replicate 62 0 ++ [0, 1]) running)

theorem witness_CommandsRunInTheirLanes :
    startable running.env running.dev 0 openCmd 1 = false
    ∧ (startable openState.env openState.dev 0 openCmd 1 = true ∧ ringed openState 0 ∧ ready openState 0 openCmd 1)
    ∧ (let c := cmd 2 1 []; startable running.env (given c running).dev 0 c 2 = true ∧ stateCheck running.env (given c running).dev 0 c.bytes = some (stClosed, 0)) := by
  simp only [ready, ringed, NoneAfter]; decide +kernel

/-- A map from a claim, or from exchanges, to what holds of the result. -/
def holds {ε : Type} (x : Except ε Dev) (f : Dev → Bool) : Bool :=
  match x with
  | .ok w => f w
  | .error _ => false

def closeCmd : Cmd := cmd 2 0 []
def ranksCmd (n : Nat) : Cmd := cmd 3 0 [(8, 4, 6), (12, 4, n), (16, 8, buf 8)]
def placeCmd (n : Nat) : Cmd := cmd 4 0 [(8, 4, n), (12, 8, buf 8)]

theorem witness_CoachCommandsTakeEffect_open :
    ready openState 0 openCmd 1
    ∧ (let v := openState.dev
      let b := bufAt openCmd.bytes 20
      let get : Getter := fun o k => bufN v 0 b o k
      5 < running.env.cores ∧ 6 < running.env.cores ∧ bufOk v 0 b false = true ∧ 64 ≤ b.len ∧ recordError running.env 0 b.len get = none ∧ rangeTaken v 5 6 = false
        ∧ holds (claimRecord running.env 0 0 get (begun openState 0 openCmd)) (fun w =>
          let t := openCoach running.env 0 0 openCmd.bytes w
          (List.range 8).all (fun d => !overChurns t (t.fd (PM_STATUS 0) 12 3) d && !overCores t (t.fd (PM_STATUS 0) 12 3) d)) = true) := by
  simp only [ready, ringed, NoneAfter]; decide +kernel

/-- A close whose drain has lasted for the limit, and one that has not. -/
def closing (ago : Nat) : State := dev (fun v => v.modCoach 0 (fun c => { c with state := .closing, closeAt := some (20000000000 - ago) })) (coached .opened running)

theorem witness_CoachCommandsTakeEffect_close :
    ready (given closeCmd (placed .opened running)) 0 closeCmd 2 ∧ (placed .opened running).dev.genRuns running.env 0 = false
      ∧ ready (given closeCmd (poke [(TG_CTRL 0 0, 1)] (placed .running running))) 0 closeCmd 2
      ∧ (poke [(TG_CTRL 0 0, 1)] (placed .running running)).dev.genRuns running.env 0 = true
      ∧ ((closing (1000 * (reg running (EF_DRAIN_LIMIT 0)).toNat)).dev.coach 0).closeAt = some (20000000000 - 1000 * (reg running (EF_DRAIN_LIMIT 0)).toNat)
      ∧ 20000000000 - 1000 * (reg running (EF_DRAIN_LIMIT 0)).toNat + 1000 * (reg running (EF_DRAIN_LIMIT 0)).toNat ≤ running.env.now
      ∧ running.env.now < 20000000000 - 1 + 1000 * (reg running (EF_DRAIN_LIMIT 0)).toNat := by
  simp only [ready, ringed, NoneAfter]; decide +kernel

/-- The CLOSE_COACH that waits for the drain. -/
def closes0 : Running := ⟨2, 0, 0, 1, 7, 5, 0, [], 0, 0⟩

theorem witness_CoachCommandsTakeEffect_drained :
    let s := dev (fun v => v.modPort 0 (fun h => { h with running := [closes0] })) (closing (1000 * (reg running (EF_DRAIN_LIMIT 0)).toNat))
    (s.dev.coach 0).closeAt = some (20000000000 - 1000 * (reg running (EF_DRAIN_LIMIT 0)).toNat) ∧ s.dev.runningOp (s.dev.coach 0).port 2 0 = some closes0
      ∧ ringed s (s.dev.coach 0).port
      ∧ 20000000000 - 1000 * (reg running (EF_DRAIN_LIMIT 0)).toNat + 1000 * (reg s (EF_DRAIN_LIMIT 0)).toNat ≤ s.env.now := by
  simp only [ringed, NoneAfter]; decide +kernel

def ranksState (n : Nat) : State := asked (ranksCmd n) (leBytes 4 5 ++ leBytes 4 63) running

theorem witness_CoachCommandsTakeEffect_ranks :
    ∀ n ∈ [0, 2], ready (ranksState n) 0 (ranksCmd n) 3 ∧ leAt (ranksCmd n).bytes 12 4 = n
      ∧ leAt (ranksCmd n).bytes 8 4 + n ≤ ((ranksState n).dev.coach 0).rankCount
      ∧ bufOk (ranksState n).dev 0 (bufAt (ranksCmd n).bytes 16) false = true ∧ 4 * n ≤ (bufAt (ranksCmd n).bytes 16).len
      ∧ (∀ i, i < n → bufN (ranksState n).dev 0 (bufAt (ranksCmd n).bytes 16) (4 * i) 4 < 0x40000
        ∧ (ranksState n).dev.inRange 0 (bufN (ranksState n).dev 0 (bufAt (ranksCmd n).bytes 16) (4 * i) 4) = true) := by
  simp only [ready, ringed, NoneAfter]; decide +kernel

/-- The entry puts core number 6 on tile 0, slot 1. -/
def placeState (n : Nat) : State := asked (placeCmd n) (leBytes 8 (6 + 1 * 2 ^ 18)) running

theorem witness_CoachCommandsTakeEffect_placement :
    ∀ n ∈ [0, 1], ready (placeState n) 0 (placeCmd n) 4 ∧ leAt (placeCmd n).bytes 8 4 = n
      ∧ bufOk (placeState n).dev 0 (bufAt (placeCmd n).bytes 12) false = true ∧ 8 * n ≤ (bufAt (placeCmd n).bytes 12).len
      ∧ (∀ i, i < n → placeError running.env (placeState n).dev 0 0 (bufAt (placeCmd n).bytes 12) i = none)
      ∧ holds (match exchangeAll running.env 0 0 (bufAt (placeCmd n).bytes 12) (begun (placeState n) 0 (placeCmd n)) (List.range n) (begun (placeState n) 0 (placeCmd n)) with
          | .ok w => .ok w
          | .error e => .error e) (fun _ => true) = true
      ∧ (placeEntry (placeState n).dev 0 (bufAt (placeCmd n).bytes 12) 0).1 = 6
      ∧ physOf running.env (placeEntry (placeState n).dev 0 (bufAt (placeCmd n).bytes 12) 0).2.1 = some 1
      ∧ (placeState n).dev.numberOf 1 ≠ some 6 := by
  simp only [ready, ringed, NoneAfter]; decide +kernel

def timerCmd (act d k x : Nat) : Cmd := cmd 0x1B 0 [(8, 1, act), (9, 1, d), (10, 1, k), (12, 4, x)]
def timerState (act d k x : Nat) (l : List (Reg × Nat)) : State := given (timerCmd act d k x) (poke l (placed .opened running))

theorem witness_CoachCommandsTakeEffect_timer :
    (∀ x ∈ [(0, 1, 9), (2, 1, 7), (5, 0, 3)], ready (timerState x.1 x.2.1 x.2.2 0 [(CMP_CTRL 1 9, 0x70000000), (CAP_CTRL 1 7, 0x70000000), (TO_OWNER 0, 0x7777)]) 0 (timerCmd x.1 x.2.1 x.2.2 0) 0x1B)
    ∧ (∀ x ∈ [(1, 1, 9), (3, 1, 7), (4, 0, 3), (6, 0, 3)], ready (timerState x.1 x.2.1 x.2.2 3 [(CMP_CTRL 1 9, 0), (CAP_CTRL 1 7, 0), (TO_OWNER 0, 0x0777), (CMP_CTRL 0 0, 0)]) 0 (timerCmd x.1 x.2.1 x.2.2 3) 0x1B)
    ∧ (let s := timerState 0 1 9 0 [(CMP_CTRL 1 9, 0x70000000), (CAP_CTRL 1 7, 0x70000000), (TO_OWNER 0, 0x7777)]
      fld (reg s (CMP_CTRL 1 9)) 28 3 = 7 ∧ fld (reg s (CAP_CTRL 1 7)) 28 3 = 7 ∧ fld (reg s (TO_OWNER 0)) (4 * 3) 3 = 7)
    ∧ (let s := timerState 1 1 9 3 [(CMP_CTRL 1 9, 0), (CAP_CTRL 1 7, 0), (TO_OWNER 0, 0x0777), (CMP_CTRL 0 0, 0)]
      fld (reg s (CMP_CTRL 1 9)) 28 3 = 0 ∧ fld (reg s (CAP_CTRL 1 7)) 28 3 = 0 ∧ fld (reg s (TO_OWNER 0)) (4 * 3) 3 = 0
        ∧ fld (3 : Word) 4 2 = 0 ∧ fld (reg s (CMP_CTRL 0 (fld (3 : Word) 8 6))) 28 3 = 0) := by
  simp only [ready, ringed, NoneAfter]; decide +kernel

def queryCmd (what i : Nat) : Cmd := cmd 0x1A 0 [(8, 1, what), (9, 1, i), (16, 8, buf 64)]

theorem witness_CoachCommandsTakeEffect_query :
    leAt (queryCmd 4 0).bytes 8 1 = 4
    ∧ (∀ x ∈ [(0, 0), (1, 7), (2, 3), (3, 0)], ready (given (queryCmd x.1 x.2) running) 0 (queryCmd x.1 x.2) 0x1A
      ∧ leAt (queryCmd x.1 x.2).bytes 8 1 = x.1 ∧ leAt (queryCmd x.1 x.2).bytes 9 1 = x.2
      ∧ bufOk (given (queryCmd x.1 x.2) running).dev 0 (bufAt (queryCmd x.1 x.2).bytes 16) true = true) := by
  simp only [ready, ringed, NoneAfter]; decide +kernel

/-! ## Witnesses: loading and reading state -/

/-- A core record for core number 5: data of four bytes for local memory at 0x3000 (R346); its CRC is that of the bytes 1, 2, 3, 4. -/
def record (core : Nat) : List Byte :=
  [2, 0, 0, 0] ++ leBytes 4 core ++ leBytes 4 0x3000 ++ leBytes 4 4 ++ leBytes 4 0xB63CFBCD ++ leBytes 44 0 ++ [1, 2, 3, 4]
def loadCmd : Cmd := cmd 5 0 [(8, 4, 1), (12, 8, buf 68)]
def loadState : State := asked loadCmd (record 5) running

/-- The check value of CRC-32. -/
theorem test_crc32 : crc32 [0x31, 0x32, 0x33, 0x34, 0x35, 0x36, 0x37, 0x38, 0x39] = 0xCBF43926 := by decide +kernel

theorem witness_LoadAndStateCommandsTakeEffect_cores :
    ready loadState 0 loadCmd 5
    ∧ (let v := loadState.dev
      let b := bufAt loadCmd.bytes 12
      leAt loadCmd.bytes 8 4 = 1 ∧ bufOk v 0 b false = true ∧ recordForm v 0 b 0 = none ∧ recordCore v 0 0 b 0 = some 5 ∧ 5 < running.env.cores
        ∧ v.inRange 0 5 = true ∧ v.reach running.env 5 = some 0 ∧ v.enabled 0 = false ∧ fldN (bufN v 0 b 1 1) 1 2 = 0 ∧ bufN v 0 b 20 2 = 0
        ∧ crc32 (v.ldBytes (sramMem 0 (b.off + 64)) (bufN v 0 b 12 4)) = bufN v 0 b 16 4 ∧ (v.core 0).fire = none) := by
  simp only [ready, ringed, NoneAfter]; decide +kernel

/-- A region lets coach 0 reach the first page of die 1's vat. -/
def vatCmd : Cmd := cmd 6 0 [(8, 1, 1), (12, 4, 8), (16, 8, buf 16)]
def vatState : State := asked vatCmd [9, 8, 7] (poke [(SEC_RGN_B 1 0, 0x1108)] running)

theorem witness_LoadAndStateCommandsTakeEffect_vat :
    ready vatState 0 vatCmd 6
    ∧ (let v := vatState.dev
      v.net.recentWr = [] ∧ bufOk v 0 (bufAt vatCmd.bytes 16) false = true ∧ (bufAt vatCmd.bytes 16).len = 16 ∧ leAt vatCmd.bytes 8 1 = 1 ∧ leAt vatCmd.bytes 12 4 = 8
        ∧ rangeSecure v 1 0 8 16 = false ∧ rangeReaches v 1 0 0 8 16 true = true) := by
  simp only [ready, ringed, NoneAfter]; decide +kernel

/-- LOAD_VAT leaves the command to its copies. -/
theorem witness_CommandsRunInTheirLanes_copying :
    ready vatState 0 vatCmd 6 ∧ (match (loadVatCmd vatState.env 0 vatCmd.bytes (begun vatState 0 vatCmd)).1 with | .copying _ _ _ => true | _ => false) = true := by
  simp only [ready, ringed, NoneAfter]; decide +kernel

/-- A core record whose four bytes are a new RD of the open queue 2, whose region lies at 0x4000. -/
def rdRecord (x : Nat) : List Byte :=
  [2, 0, 0, 0] ++ leBytes 4 5 ++ leBytes 4 0x4008 ++ leBytes 4 4 ++ leBytes 4 (crc32 (leBytes 4 x)) ++ leBytes 44 0 ++ leBytes 4 x
def rdState (x : Nat) : State := poke [(QM_Q_REGION 0 2, 0x40), (QM_Q_CTRL 0 2, 1)] (asked loadCmd (rdRecord x) running)

theorem witness_LoadAndStateCommandsTakeEffect_consumer :
    ∀ x ∈ [0, 32, 1], let s := rdState x
      let b := bufAt loadCmd.bytes 12
      ready s 0 loadCmd 5 ∧ recordForm s.dev 0 b 0 = none ∧ recordCore s.dev 0 0 b 0 = some 5 ∧ s.dev.reach s.env 5 = some 0
        ∧ fldN (bufN s.dev 0 b 1 1) 1 2 = 0 ∧ bufN s.dev 0 b 20 2 = 0 ∧ bufN s.dev 0 b 8 4 = s.dev.qBase 0 2 + 8
        ∧ crc32 (s.dev.ldBytes (sramMem 0 (b.off + 64)) (bufN s.dev 0 b 12 4)) = bufN s.dev 0 b 16 4
        ∧ (s.dev.ldBytes (sramMem 0 (b.off + 64)) (bufN s.dev 0 b 12 4)).length = 4 ∧ s.dev.qOpen 0 2 = true
        ∧ s.dev.fd (QM_Q_CTRL 0 2) 3 2 = 0 ∧ s.dev.qMode 0 2 ≠ 1 ∧ (∀ j, j < 16 → j ≠ 2 → s.dev.qOpen 0 j = false) := by
  simp only [ready, ringed, NoneAfter]; decide +kernel

/-- An image of one die table of die 1 without entries. -/
def tableData : List Byte := [2, 0, 1, 0] ++ leBytes 2 64 ++ leBytes 2 0 ++ leBytes 2 0 ++ leBytes 2 0 ++ leBytes 4 9 ++ leBytes 304 0
def imageBody : List Byte := [2, 1, 1, 0, 0, 0, 0, 0] ++ leBytes 4 0 ++ leBytes 4 320 ++ leBytes 16 0 ++ tableData
def image : List Byte := [2, 2, 0, 0] ++ leBytes 4 9 ++ leBytes 4 416 ++ leBytes 4 1 ++ leBytes 4 (crc32 imageBody) ++ leBytes 44 0 ++ imageBody
def tableCmd : Cmd := cmd 7 0 [(8, 8, buf 416)]
def tableState : State := asked tableCmd image running

theorem witness_LoadAndStateCommandsTakeEffect_timetable :
    ready tableState 0 tableCmd 7
    ∧ (let b := bufAt tableCmd.bytes 8
      SMap.get none tableState.dev.net.armed 0 = none ∧ bufOk tableState.dev 0 b false = true ∧ b.len ≠ 0
        ∧ (match parseImage (bufBytes tableState.dev 0 b) with
          | none => false
          | some l => l.all (sectOk running.env (begun tableState 0 tableCmd) 0) && noRepeats l && (loadCheck running.env (begun tableState 0 tableCmd) (engine 0) 0 l == none)
              && (applySections running.env (engine 0) l (fillInactive 0 l (clearInactive running.env 0 (begun tableState 0 tableCmd)))).1 == none) = true) := by
  simp only [ready, ringed, NoneAfter]; decide +kernel

def readCmd (space k o : Nat) : Cmd := cmd 0x0E 0 [(8, 1, space), (12, 4, k), (16, 4, o), (20, 8, buf 64)]
def readState' (space k o : Nat) : State := given (readCmd space k o) (placed .opened (poke [(SEC_RGN_B 1 0, 0x1108)] running))

theorem witness_LoadAndStateCommandsTakeEffect_read :
    (∀ x ∈ [(2, 1, 0), (0, 5, 0x3FFC0), (1, 5, 0xFC0), (0, 6, 0x3FFC0)], ready (readState' x.1 x.2.1 x.2.2) 0 (readCmd x.1 x.2.1 x.2.2) 0x0E
      ∧ leAt (readCmd x.1 x.2.1 x.2.2).bytes 8 1 = x.1 ∧ leAt (readCmd x.1 x.2.1 x.2.2).bytes 12 4 = x.2.1 ∧ leAt (readCmd x.1 x.2.1 x.2.2).bytes 16 4 = x.2.2
      ∧ bufOk (readState' x.1 x.2.1 x.2.2).dev 0 (bufAt (readCmd x.1 x.2.1 x.2.2).bytes 20) true = true ∧ (bufAt (readCmd x.1 x.2.1 x.2.2).bytes 20).len = 64)
    ∧ (let v := (readState' 2 1 0).dev
      rangeSecure v 1 0 0 64 = false ∧ rangeReaches v 1 0 0 0 64 false = true ∧ v.net.recentWr = [] ∧ v.inRange 0 5 = true ∧ v.reach running.env 5 = some 0
        ∧ v.inRange 0 6 = true ∧ v.reach running.env 6 = none) := by
  simp only [ready, ringed, NoneAfter]; decide +kernel

def snapCmd (dest : Nat) : Cmd := cmd 0x0F 0 [(8, 1, dest), (9, 1, 7), (16, 4, 0), (24, 8, buf 64)]
def snapState (dest : Nat) : State := given (snapCmd dest) (poke [(CR_STATUS 0, 5)] (coached .opened running))

theorem witness_LoadAndStateCommandsTakeEffect_snapshot :
    (∀ k ∈ [0, 1], ready (snapState k) 0 (snapCmd k) 0x0F ∧ leAt (snapCmd k).bytes 8 1 = k ∧ leAt (snapCmd k).bytes 9 1 = 7
      ∧ applying (snapState k).dev 0 = false ∧ bufOk (snapState k).dev 0 (bufAt (snapCmd k).bytes 24) true = true ∧ (bufAt (snapCmd k).bytes 24).len ≠ 0)
    ∧ applying (dev (fun v => v.modCore 0 (fun k => { k with apply := some ⟨0, [], [], 0⟩ })) (placed .opened running)).dev 0 = true
    ∧ crockUsable running.env (snapState 1).dev = true ∧ bit (reg (snapState 1) (CR_STATUS 0)) 3 = false
    ∧ (snapStream running.env (begun (snapState 1) 0 (snapCmd 1)) 0).length ≤ slotBytes := by
  simp only [ready, ringed, NoneAfter]; decide +kernel

theorem length_insertLeast (x : Nat × Nat) (l : List (Nat × Nat)) : (insertLeast x l).length = l.length + 1 := by
  induction l with
  | nil => rfl
  | cons y l ih =>
    rw [insertLeast]
    split
    · rfl
    · simp [ih]

theorem length_leastErased (v : Dev) (n : Nat) (h : v.crock.ckpt = []) (hn : n ≤ 6656) : (leastErased v n).length = n := by
  have len (l : List (Nat × Nat)) : (l.foldr insertLeast []).length = l.length := by
    induction l with
    | nil => rfl
    | cons x l ih => rw [List.foldr_cons, length_insertLeast, ih, List.length_cons]
  have all : (List.range 6656).filter (fun _ => true) = List.range 6656 := List.filter_eq_self.2 (fun _ _ => rfl)
  simp [leastErased, h, len, all, Nat.min_eq_left hn]

theorem witness_LoadAndStateCommandsTakeEffect_sectors :
    ready (snapState 1) 0 (snapCmd 1) 0x0F ∧ leAt (snapCmd 1).bytes 8 1 = 1 ∧ leAt (snapCmd 1).bytes 9 1 = 7
    ∧ (let n := ((snapStream running.env (begun (snapState 1) 0 (snapCmd 1)) 0).length + 0xFFFF) / 0x10000
      0 < n ∧ (leastErased (dropCkpt running.env 7 (snapState 1).dev) n).length = n) := by
  refine ⟨by simp only [ready, ringed, NoneAfter]; decide +kernel, by decide +kernel, by decide +kernel, by decide +kernel, ?_⟩
  exact length_leastErased _ _ (by decide +kernel) (by decide +kernel)

def restoreCmd' : Cmd := cmd 0x10 0 [(8, 1, 0), (9, 1, 0), (16, 4, 0), (24, 8, buf 64)]
def restoreState : State := asked restoreCmd' [2] running

theorem witness_LoadAndStateCommandsTakeEffect_restore :
    ready restoreState 0 restoreCmd' 0x10
    ∧ (let b := bufAt restoreCmd'.bytes 24
      let img := bufBytes restoreState.dev 0 b
      bufOk restoreState.dev 0 b false = true ∧ 64 ≤ b.len ∧ leAt img 0 1 = 2
        ∧ (restoreFrom running.env 0 img (img.length / 32 + 1) 64 (bumpGen 0 (begun restoreState 0 restoreCmd'))).1 = none) := by
  simp only [ready, ringed, NoneAfter]; decide +kernel

/-- A stream with one section of 16 bytes for byte 8 of die 1's vat, of a KIND code. -/
def vatStream (kind : Byte) : List Byte :=
  2 :: List.replicate 63 0 ++ [2, kind, 0, 0] ++ leBytes 4 1 ++ leBytes 4 8 ++ leBytes 4 16 ++ leBytes 4 (crc32 (List.replicate 16 0)) ++ leBytes 12 0
    ++ List.replicate 16 0

/-- Where the KIND codes tell a vat section from the others, such a stream stands for one copy. -/
theorem witness_LoadAndStateCommandsTakeEffect_restore_vat (kind : Byte) (h : kindOf kind = some 6) :
    (vatStream kind).length = 112 ∧ restoreCopies (vatStream kind) 112 (112 / 32 + 1) 64 = [⟨1, 8, 16, some (List.replicate 16 0), 0⟩]
      ∧ applySnap vatState.env 0 6 1 8 (List.replicate 16 0) vatState.dev = some vatState.dev := by
  have hl : (vatStream kind).length = 112 := rfl
  refine ⟨hl, ?_, ?_⟩
  · have h1 : leAt (vatStream kind) 76 4 = 16 := rfl
    have h3 : leAt (vatStream kind) 68 4 = 1 := rfl
    have h4 : leAt (vatStream kind) 72 4 = 8 := rfl
    have h5 : ((vatStream kind).drop 96).take 16 = List.replicate 16 0 := rfl
    simp [restoreCopies, hl, h1, h3, h4, h5]
    exact h
  · have : (if vatState.env.has 1 && decide (8 + (List.replicate 16 (0 : Byte)).length ≤ 0x10000000)
        && rangeReaches vatState.dev 1 0 0 8 (List.replicate 16 (0 : Byte)).length true then true else false) = true := by decide +kernel
    unfold applySnap
    simp_all

def fenceCmd (n : Nat) : Cmd := cmd 0x11 0 [(8, 4, n)]
def fenceState (n : Nat) : State := given (fenceCmd n) (placed .opened running)

theorem witness_LoadAndStateCommandsTakeEffect_fence :
    (∀ n ∈ [5, 6], ready (fenceState n) 0 (fenceCmd n) 0x11 ∧ leAt (fenceCmd n).bytes 8 4 = n ∧ n < running.env.cores ∧ (fenceState n).dev.inRange 0 n = true)
    ∧ (fenceState 5).dev.placeOf 5 = some 0 ∧ (fenceState 5).dev.isFenced 0 = false ∧ (fenceState 6).dev.placeOf 6 = none := by
  simp only [ready, ringed, NoneAfter]; decide +kernel

/-- Core number 5 stood on the core at tile 0, slot 0, which is fenced; the tile's spare is slot 32. -/
def spareCmd : Cmd := cmd 0x12 0 [(8, 4, 5), (12, 8, buf 68)]
def spareState : State :=
  dev (fun v => { v with place := { v.place with fenced := [0], spare := [(0, 33)], last := [(5, 1)] } }) (asked spareCmd (record 5) running)

/-- The same coach with the command running, the spare in reset; the spare is fenced or not. -/
def bringing (fenced : Bool) : State :=
  dev (fun v => { v.modPort 0 (fun h => { h with running := [⟨0x12, 0, 0, 1, 7, 5, 32, [], 0, 0⟩] }) with
      place := { v.place with fenced := if fenced then [0, 32] else [0], place := [(5, 33)], number := [(32, 6)] } })
    (poke [(NC_CTRL 32, 0x400), (NC_STATUS 32, 0x20)] (coached .opened running))

theorem witness_LoadAndStateCommandsTakeEffect_spare :
    ready spareState 0 spareCmd 0x12
    ∧ (let v := spareState.dev
      let b := bufAt spareCmd.bytes 12
      v.inRange 0 5 = true ∧ bufOk v 0 b false = true ∧ b.len ≠ 0 ∧ recordForm v 0 b 0 = none ∧ recordCore v 0 0 b 0 = some 5 ∧ v.reach running.env 5 = none
        ∧ spareFor v 5 = some 32 ∧ fldN (bufN v 0 b 1 1) 1 2 = 0 ∧ bufN v 0 b 20 2 = 0
        ∧ crc32 (v.ldBytes (sramMem 0 (b.off + 64)) (bufN v 0 b 12 4)) = bufN v 0 b 16 4)
    ∧ (∀ f ∈ [true, false], (bringing f).dev.coreOwner (Phys.idx ⟨0, 0, 32⟩) = 0 ∧ (bringing f).dev.runs 0 0x12 = some ⟨0x12, 0, 0, 1, 7, 5, 32, [], 0, 0⟩
      ∧ Clocked (bringing f) 0 1 ∧ ringed (bringing f) ((bringing f).dev.coach 0).port ∧ bit (reg (bringing f) (NC_STATUS (Phys.idx ⟨0, 0, 32⟩))) 5 = true) := by
  simp only [ready, ringed, NoneAfter, Clocked]; decide +kernel

def injectCmd : Cmd := cmd 0x1C 0 [(8, 4, 5), (12, 4, 2), (16, 8, buf 32)]
def injectState : State := asked injectCmd [] running

theorem witness_LoadAndStateCommandsTakeEffect_inject :
    ready injectState 0 injectCmd 0x1C
    ∧ (let b := bufAt injectCmd.bytes 16
      let x := w32 (leAt injectCmd.bytes 12 4)
      bit x 31 = false ∧ fld x 25 6 = 0 ∧ bufOk injectState.dev 0 b false = true ∧ b.len ≤ 512 ∧ 32 * (fld x 4 4 + 1) ≤ b.len
        ∧ injectState.dev.inRange 0 5 = true ∧ injectState.dev.reach running.env 5 = some 0) := by
  simp only [ready, ringed, NoneAfter]; decide +kernel

/-! ## Witnesses: running a coach -/

def routesCmd (n : Nat) : Cmd := cmd 8 0 [(8, 4, n), (12, 8, buf 64)]
/-- Group 4 with core number 5 as its one member. -/
def routesState (n : Nat) : State := asked (routesCmd n) (leBytes 4 (4 + 0x10000) ++ leBytes 4 5) running

def okGroups (x : Except Nat (List GReq)) (f : List GReq → Bool) : Bool :=
  match x with
  | .ok l => f l
  | .error _ => false

theorem witness_RunCommandsTakeEffect_routes :
    ∀ n ∈ [0, 1], ready (routesState n) 0 (routesCmd n) 8 ∧ bufOk (routesState n).dev 0 (bufAt (routesCmd n).bytes 12) false = true
      ∧ leAt (routesCmd n).bytes 8 4 = n ∧ Machine.draining running.env (routesState n).dev 0 = false
      ∧ okGroups (parseGroups (routesState n).dev 0 (bufAt (routesCmd n).bytes 12) n 0) (fun l =>
        decide (l.length = n) && l.all (fun q => badMember (routesState n).dev 0 0 (bufAt (routesCmd n).bytes 12) q == none)
          && decide ((l.map (·.count)).foldl (· + ·) 0 + othersMembers (routesState n).dev 0 (!curEpoch running.env (routesState n).dev 0) ≤ 65536)
          && l.all (fun q => match groupOwner (routesState n).dev q.group with | some o => o == 0 | none => true)) = true := by
  simp only [ready, ringed, NoneAfter]; decide +kernel

/-- A DRAIN that releases the hold, and one that sets it. -/
def drainCmd (flags : Nat) : Cmd := cmd 0x0A 0 [(8, 1, flags), (12, 4, 500)]
def bare (op : Nat) : Cmd := cmd op 0 []
def runState (st : CoachState) (op : Nat) : State := given (bare op) (coached st running)

theorem witness_RunCommandsTakeEffect_start :
    (ready (runState .opened 9) 0 (bare 9) 9 ∧ Machine.draining running.env (runState .opened 9).dev 0 = false)
    ∧ (∀ f ∈ [0, 1], ready (given (drainCmd f) (coached .opened running)) 0 (drainCmd f) 0x0A ∧ fldN (leAt (drainCmd f).bytes 8 1) 0 1 = f)
    ∧ (∀ st ∈ [CoachState.opened, .stopped], ready (runState st 0x0B) 0 (bare 0x0B) 0x0B ∧ ((runState st 0x0B).dev.coach 0).swapped = true
        ∧ (genSettings (runState st 0x0B).dev 0 0).valid = true)
    ∧ (∀ st ∈ [CoachState.stopped, .running], ready (runState st 0x0C) 0 (bare 0x0C) 0x0C ∧ coachState (runState st 0x0C).dev 0 = st)
    ∧ (∀ st ∈ [CoachState.opened, .stopped], ready (runState st 0x0D) 0 (bare 0x0D) 0x0D ∧ (genSettings (runState st 0x0D).dev 0 0).valid = true) := by
  simp only [ready, ringed, NoneAfter]; decide +kernel

/-- Coach 0 with a command running since some time ago, and packets in flight. -/
def awaiting (op ago aux : Nat) (fl : List Flight) (l : List (Reg × Nat)) : State :=
  dev (fun v => { v.modPort 0 (fun h => { h with running := [⟨op, 0, 0, 1, 7, 20000000000 - ago, aux, [], 0, 0⟩] }) with fab := { v.fab with flights := fl } })
    (poke l (coached .opened running))
def oldPacket : Flight := flight0 3 none [101] { packet 0 0 5 with epoch := true }

theorem witness_RunCommandsTakeEffect_swap :
    (∀ fl ∈ [[], [oldPacket]], ∀ ago ∈ [4000000000, 5], let s := awaiting 9 ago 3 fl [(EF_EPOCH 0, 0x10)]
      Machine.draining s.env s.dev 0 = true ∧ inFlight s.dev 0 (!curEpoch s.env s.dev 0) = fl.length
        ∧ s.dev.runs 0 9 = some ⟨9, 0, 0, 1, 7, 20000000000 - ago, 3, [], 0, 0⟩ ∧ ringed s (s.dev.coach 0).port)
    ∧ (20000000000 - 4000000000 + 1000 * (reg running (EF_DRAIN_LIMIT 0)).toNat ≤ running.env.nowOf 0)
    ∧ (running.env.nowOf 0 < 20000000000 - 5 + 1000 * (reg running (EF_DRAIN_LIMIT 0)).toNat)
    ∧ (∀ fl ∈ [[], [oldPacket]], let s := awaiting 0x0A 600000 500 fl [(EF_CTRL 0, 1)]
      s.dev.runs 0 0x0A = some ⟨0x0A, 0, 0, 1, 7, 20000000000 - 600000, 500, [], 0, 0⟩ ∧ ringed s (s.dev.coach 0).port
        ∧ coachQuiet s.dev 0 = (fl == []) ∧ isHeld s.env s.dev 0 = true ∧ (s.dev.coach 0).closeAt = none ∧ 20000000000 - 600000 + 1000 * 500 ≤ s.env.nowOf 0) := by
  simp only [ringed, NoneAfter]; decide +kernel

/-- A generator asked to stop, at its boundary; a coach that closes; and a single step whose tick and frame are over. -/
def stopping (st : CoachState) : State :=
  dev (fun v => ((v.modGen 0 (fun h => { h with stopReq := true })).modCoach 0 (fun c => { c with state := st })).modPort 0
    (fun h => { h with running := [⟨0x0C, 0, 0, 1, 7, 0, 0, [], 0, 0⟩] })) ticking
def stepped : State :=
  dev (fun v => (v.modGen 0 (fun h => { h with stepping := true, cur := h.cur.map (fun x => { x with acted := true }) })).modPort 0
    (fun h => { h with running := [⟨0x0D, 0, 0, 1, 7, 0, 0, [], 0, 0⟩] })) (inTick 990000 dies dies ticking)

theorem witness_RunCommandsTakeEffect_stop :
    (∀ st ∈ [CoachState.running, .closing], let s := stopping st
      s.dev.genRuns s.env 0 = true ∧ (s.dev.gen 0).stopReq = true ∧ (s.dev.gen 0).stepping = false ∧ atBoundary s.env s.dev 0 = true
        ∧ workOver s.env s.dev 0 = true ∧ (s.dev.coach 0).state = st ∧ s.dev.runs 0 0x0C = some ⟨0x0C, 0, 0, 1, 7, 0, 0, [], 0, 0⟩ ∧ ringed s (s.dev.coach 0).port)
    ∧ (ticking.dev.gen 0).stopReq = false
    ∧ (let s := stepped
      (s.dev.gen 0).cur = some { tick3 990000 dies dies with acted := true } ∧ s.dev.genRuns s.env 0 = true
        ∧ (s.dev.gen 0).stepping = true ∧ s.dev.frame 0 = none ∧ s.dev.runs 0 0x0D = some ⟨0x0D, 0, 0, 1, 7, 0, 0, [], 0, 0⟩ ∧ ringed s (s.dev.coach 0).port)
    ∧ (ticking.dev.gen 0).stepping = false := by
  simp only [ringed, NoneAfter]; decide +kernel

/-! ## Witnesses: the rings -/

/-- A host page: version, the host's range of interface versions, OPEN_SEQ, three rings of 2^`logs` slots, and CMD_PROD, CPL_CONS, LOG_CONS. -/
def page (ver lo hi seq prod cpl log : Nat) (s : State) : State :=
  put 0x1FFE000 ([2, BitVec.ofNat 8 ver, BitVec.ofNat 8 lo, BitVec.ofNat 8 hi] ++ leBytes 4 seq ++ leBytes 4 0x1000000 ++ leBytes 4 0x1001000 ++ leBytes 4 0x1002000 ++ [4, 4, 4])
    (put 0x1FFE040 (leBytes 4 prod) (put 0x1FFE080 (leBytes 4 cpl) (put 0x1FFE0C0 (leBytes 4 log) s)))

/-- The first burst of the host page: it writes 5 over OPEN_SEQ where `masked` allows it. -/
def openBurst (masked : Bool) : Burst := { goodBurst with
  row := 1023, bank := 12, col := 0, data := List.replicate 4 2 ++ [5] ++ List.replicate 27 0,
  masked := (List.range 32).map (fun j => decide (j ≠ 4) || masked) }

theorem witness_HostWritesReachPortSram_open :
    ∀ m ∈ [true, false], let s := put 0x1FFE040 (leBytes 4 7) running
      (openBurst m).wellFormed = true ∧ s.dev.takes 0 = true ∧ sramOpen s.env s.dev 0 = true ∧ (openBurst m).addr = hostPage
        ∧ openPending s.dev 0 = false ∧ hostN s.dev 0 64 4 = 7
        ∧ gives (exec (.hostSramWrite 0 (openBurst m)) s)
            (fun t => openPending t.dev 0 == !m && (t.dev.port 0).openProd == if m then 0 else 7) = true := by decide +kernel

theorem witness_RingsAreKept_open :
    (∀ x ∈ [(0, 1, 1, 9), (1, 1, 1, 9), (0, 7, 9, 9)], let s := page x.1 x.2.1 x.2.2.1 x.2.2.2 3 0 0 running
      dispatching s.dev 0 = true ∧ openPending s.dev 0 = true ∧ (s.dev.port 0).running = [])
    ∧ (let s := page 0 1 1 9 3 0 0 running; hostPageOk s.dev 0 = true ∧ negotiate s.dev 0 = some 1)
    ∧ hostPageOk (page 1 1 1 9 3 0 0 running).dev 0 = false
    ∧ (let s := page 0 7 9 9 3 0 0 running; hostPageOk s.dev 0 = true ∧ negotiate s.dev 0 = none)
    ∧ openPending (page 0 1 1 0 3 0 0 running).dev 0 = false := by decide +kernel

/-- The first command of the ring, of form or with a version that the device does not know; CMD_PROD at 0, 1 and beyond the ring. -/
def ringState (ver prod : Nat) : State := put 0x1000000 ([BitVec.ofNat 8 ver, 9] ++ List.replicate 62 0) (page 0 1 1 0 prod 0 0 running)

theorem witness_RingsAreKept_take :
    (∀ x ∈ [(2, 1), (3, 1), (2, 0), (2, 17), (2, 16)], let s := ringState x.1 x.2
      dispatching s.dev 0 = true ∧ openPending s.dev 0 = false ∧ (s.dev.port 0).serves = true ∧ ringed s 0
        ∧ (hostN s.dev 0 64 4 + 0x100000000 - (s.dev.port 0).cmdCons) % 0x100000000 = x.2 ∧ (s.dev.port 0).slots 0 = 16
        ∧ outstanding (s.dev.port 0) < cplFree (s.dev.port 0)
        ∧ formCheck (s.dev.ldBytes (sramMem 0 ((s.dev.port 0).base 0 + (s.dev.port 0).cmdCons % (s.dev.port 0).slots 0 * 64)) 64)
            = (if x.1 = 2 then none else some (stRefusedVersion, 0))) := by
  simp only [ringed, NoneAfter]; decide +kernel

/-- A command that firmware carries out waits in the device lane of port 0 since some time ago. -/
def waitingFor (ago : Nat) : State := dev (fun v => v.setLane 0 4 [⟨7, (cmd 0x18 0xFF []).bytes, 20000000000 - ago⟩]) running

theorem witness_RingsAreKept_timeout :
    ∀ ago ∈ [2000000000, 1999999999], let s := waitingFor ago
      (s.dev.port 0).lanes.find? (fun e => e.2.any (fun t => t.seq == 7)) = some (4, [⟨7, (cmd 0x18 0xFF []).bytes, 20000000000 - ago⟩])
        ∧ byFirmware (cmd 0x18 0xFF []).bytes = true ∧ ringed s 0 ∧ decide (20000000000 - ago + 2000000000 ≤ s.env.nowOf 0) = decide (ago = 2000000000) := by
  simp only [ringed, NoneAfter]; decide +kernel

/-- The host's consumer index at the producer index, and behind it by the ring's size and one more. -/
theorem witness_RingsAreKept_consume :
    ∀ x ∈ [(20, true), (4, true), (3, false)], let s := dev (fun v => v.modPort 0 (fun h => { h with cplProd := 20, logProd := 20 })) (page 0 1 1 0 0 x.1 x.1 running)
      dispatching s.dev 0 = true ∧ (s.dev.port 0).bases ≠ []
        ∧ decide (((s.dev.port 0).cplProd + 0x100000000 - hostN s.dev 0 128 4) % 0x100000000 ≤ (s.dev.port 0).slots 1) = x.2
        ∧ decide (((s.dev.port 0).logProd + 0x100000000 - hostN s.dev 0 192 4) % 0x100000000 ≤ (s.dev.port 0).slots 2) = x.2 := by decide +kernel

/-- A record on its way to port 0's log ring, whose ring has room or is full; and the log's ostler in a restart. -/
def logging (prod : Nat) (l : List (Reg × Nat)) : State :=
  dev (fun v => { v.modPort 0 (fun h => { h with logProd := prod }) with fw := { v.fw with queued := [(0, [⟨1, 1, 5, leBytes 48 0, 0⟩])] } }) (poke l running)

theorem witness_RingsAreKept_log :
    (∀ n ∈ [15, 16], let s := logging n []
      SMap.get [] s.dev.fw.queued 0 = [⟨1, 1, 5, leBytes 48 0, 0⟩] ∧ s.dev.ostlerUp 0 0 = true ∧ s.dev.fw.compDown.contains (0 * 2 + 1) = false
        ∧ (s.dev.port 0).bases ≠ [] ∧ ((s.dev.port 0).logProd + 0x100000000 - (s.dev.port 0).logCons) % 0x100000000 = n ∧ (s.dev.port 0).slots 2 = 16)
    ∧ (logging 0 [(FW_STATUS 0, 0x4)]).dev.ostlerUp 0 0 = false := by decide +kernel
/-! ## Witnesses: firmware -/

def martyCmd (op scope mode : Nat) : Cmd := cmd op 0 [(8, 1, scope), (9, 1, mode)]

theorem witness_FirmwareCommandsAndUpdates_tests :
    (∀ op ∈ [0x13, 0x14], ∀ x ∈ [(0, CoachState.opened), (1, .none)], let s := given (martyCmd op x.1 x.1) (coached x.2 running);
      ready s 0 (martyCmd op x.1 x.1) op ∧ s.dev.ostlerUp 0 3 = true ∧ leAt (martyCmd op x.1 x.1).bytes 8 1 = x.1 ∧ leAt (martyCmd op x.1 x.1).bytes 9 1 = x.1
        ∧ (x.1 = 1 → ∀ h, h < 4 → s.dev.isOpen h = false))
    ∧ (poke [(FW_STATUS 0, 0x155)] running).dev.ostlerUp 0 3 = false := by
  simp only [ready, ringed, NoneAfter]; decide +kernel

def logCmd : Cmd := cmd 0x15 0 [(8, 4, 1), (12, 4, 2), (16, 8, buf 128)]
def stageCmd (last : Nat) : Cmd := cmd 0x16 0 [(8, 4, 128), (12, 8, buf 64), (20, 1, last)]
def activateCmd (f : Nat) : Cmd := cmd 0x17 0 [(8, 1, f)]
def attestCmd : Cmd := cmd 0x1A 0 [(8, 1, 4), (16, 8, buf 512)]
/-- The image in force and the one that slot B holds. -/
def img : Image := ⟨1, 2, 1, 1, 0, 64⟩
/-- Slot A is ACTIVE and the inactive slot B in a state. -/
def updating (b : Nat) (l : List (Reg × Nat)) : State :=
  dev (fun v => { v with crock := { v.crock with slotA := 3, slotB := b, imageB := some img }, fw := { v.fw with image := some img } }) (poke ((CR_STATUS 0, 5) :: l) running)

theorem witness_FirmwareCommandsAndUpdates_commands :
    (let s := given logCmd (dev (fun v => { v with fw := { v.fw with log := [⟨1, 1, 5, leBytes 48 0, 4⟩, ⟨2, 1, 5, leBytes 48 0, 0⟩] } }) running);
      ready s 0 logCmd 0x15 ∧ leAt logCmd.bytes 12 4 = 2 ∧ bufOk s.dev 0 (bufAt logCmd.bytes 16) true = true ∧ 64 * 2 ≤ (bufAt logCmd.bytes 16).len
        ∧ (∀ r ∈ s.dev.fw.log, r.body.length = 48))
    ∧ (∀ last ∈ [0, 1], let s := given (stageCmd last) (updating 1 []);
      ready s 0 (stageCmd last) 0x16 ∧ leAt (stageCmd last).bytes 20 1 = last ∧ fldN (leAt (stageCmd last).bytes 8 4) 24 8 = 0
        ∧ fldN (leAt (stageCmd last).bytes 8 4) 0 24 = 128 ∧ bufOk s.dev 0 (bufAt (stageCmd last).bytes 12) false = true ∧ (bufAt (stageCmd last).bytes 12).len = 64
        ∧ s.dev.fw.act = none ∧ deferred s.env s.dev = false ∧ crockWritable s.env s.dev = true ∧ s.dev.dieDown.contains 0 = false)
    ∧ (∀ l ∈ [[], [(PM_STATUS 0, 8)]], let s := given (activateCmd 0) (updating 2 l);
      ready s 0 (activateCmd 0) 0x17 ∧ s.dev.fw.act = none ∧ leAt (activateCmd 0).bytes 8 1 ≠ 1 ∧ deferred s.env s.dev = false ∧ crockWritable s.env s.dev = true
        ∧ slotState s.dev (inactive s.dev) = 2 ∧ emergency s.env s.dev = (l != []))
    := by
  simp only [ready, ringed, NoneAfter]; decide +kernel

theorem witness_FirmwareCommandsAndUpdates_reports :
    (let s := given (activateCmd 1) (updating 2 [(FW_UPDATE 0, 0x80)]);
      ready s 0 (activateCmd 1) 0x17 ∧ leAt (activateCmd 1).bytes 8 1 = 1 ∧ deferred s.env s.dev = true)
    ∧ (let s := given attestCmd (poke [(SEC_STATUS 0, 1)] running);
      ready s 0 attestCmd 0x1A ∧ leAt attestCmd.bytes 8 1 = 4 ∧ bufOk s.dev 0 (bufAt attestCmd.bytes 16) true = true ∧ 384 ≤ (bufAt attestCmd.bytes 16).len
        ∧ bit (reg s (SEC_STATUS 0)) 0 = true)
    ∧ leAt (queryCmd 0 0).bytes 8 1 ≠ 4 := by
  simp only [ready, ringed, NoneAfter]; decide +kernel

/-- Slot B on trial since its last restart ended, with dies still to restart or none, for port 0's FW_ACTIVATE. -/
def trying (ago : Nat) (due : List Nat) : State :=
  dev (fun v => { v.modPort 0 (fun h => { h with running := [⟨0x17, 4, 0xFF, 1, 7, 5, 0, [], 0, 0⟩] }) with
    fw := { v.fw with act := some ⟨1, some (20000000000 - ago), some 0, due, img, false, [], false⟩ } })
    (updating 4 [(BU_DIE_STATE 0, 0x11111111)])

theorem witness_FirmwareCommandsAndUpdates_activation :
    (∀ x ∈ [(1000000000, []), (1000000001, []), (5, [3])], let s := trying x.1 x.2;
      s.dev.fw.act = some ⟨1, some (20000000000 - x.1), some 0, x.2, img, false, [], false⟩ ∧ allStarted s.env s.dev = true ∧ s.dev.runningOp 0 0x17 4 = some ⟨0x17, 4, 0xFF, 1, 7, 5, 0, [], 0, 0⟩
        ∧ ringed s 0)
    ∧ (let s := updating 2 [(FW_UPDATE 0, 0x80)];
      deferred s.env s.dev = true ∧ emergency s.env s.dev = false ∧ s.dev.fw.quiet + 100000000 ≤ s.env.now ∧ s.dev.fwUp s.env = true ∧ slotState s.dev (inactive s.dev) = 2)
    ∧ deferred running.env running.dev = false := by
  simp only [ringed, NoneAfter]; decide +kernel

/-- The same trial, failed: the image in force before goes back on the dies that are due. -/
def tryingBack (ago : Nat) (due : List Nat) : State :=
  dev (fun v => { v with fw := { v.fw with act := v.fw.act.map (fun a => { a with back := true }) } }) (trying ago due)

/-- A device-wide destructive march that finds nothing, firmware in the middle of a stage, and a crock that does not take the confirmation. -/
theorem witness_FirmwareCommandsAndUpdates_further :
    (let c := martyCmd 0x13 1 1
      let s := given c running;
      ready s 0 c 0x13 ∧ s.dev.ostlerUp 0 3 = true ∧ leAt c.bytes 8 1 = 1 ∧ leAt c.bytes 9 1 = 1 ∧ (∀ h, h < 4 → s.dev.isOpen h = false))
    ∧ fwRuns running.env (given (stageCmd 0) (updating 1 [])).dev 0 = true
    ∧ (let s := trying 5 [];
      (s.dev.fw.act.map (·.back)) = some false ∧ crockWritable s.env s.dev = true)
    ∧ crockWritable running.env (poke [(CR_STATUS 0, 13)] (trying 5 [])).dev = false
    ∧ ((tryingBack 5 []).dev.fw.act.map (·.back)) = some true
    ∧ (let up (s : State) := s.env.dieList.filter (fun d => dieUp s.env s.dev d && !s.dev.dieDown.contains d);
      up (trying 1000000001 []) = 0 :: [1, 2, 3, 4, 5, 6, 7] ∧ up (poke [(BU_DIE_STATE 0, 0)] (trying 1000000001 [])) = []) := by
  simp only [ready, ringed, NoneAfter]; decide +kernel

/-- Firmware of die 1: an ostler or the coachman in a state, components that are down, earlier restarts. -/
def tending (st : Nat) (down : List Nat) (earlier : List Nat) : State :=
  dev (fun v => { v with fw := { v.fw with image := some img, compDown := down, restarts := [(1 * 5 + 2, earlier), (64 + 1, earlier)] } }) (poke [(FW_STATUS 1, st)] running)

theorem witness_FirmwareRestarts :
    (running.env.has 1 = true ∧ running.dev.dieDown.contains 1 = false)
    ∧ (∀ n ∈ [2, 3], let s := tending 0 [] (List.replicate n 19000000000);
      cmState s.dev 1 = 0 ∧ ostlerState s.dev 1 1 = 0 ∧ (recentRestarts s.env s.dev 1 (1 * 5 + 1 + 1)).length = n)
    ∧ (let s := tending 0x10 [] []; cmState s.dev 1 = 0 ∧ ostlerState s.dev 1 1 = 1 ∧ ostlerState s.dev 1 0 ≠ 1)
    ∧ ((tending 0 [] []).dev.fw.compDown.contains 3 = false ∧ (tending 0 [3] []).dev.fw.compDown.contains 3 = true)
    ∧ ((tending 0 [] []).dev.fw.act = none ∧ cmState (tending 1 [] []).dev 1 = 1)
    ∧ (∀ n ∈ [0, 1], (recentRestarts running.env (tending 1 [] (List.replicate n 5)).dev 1 (64 + 1)).length < 2)
    ∧ ((dev (fun v => { v with tick := { v.tick with halted := [1 * 8 + 1 + 2] } }) running).dev.tick.halted.contains (1 * 8 + 1 + 2) = true
      ∧ running.dev.tick.halted.contains (1 * 8 + 1 + 0) = false)
    ∧ (∀ x ∈ [(63, 0), (64, 0), (64, 5)], let s := dev (fun v => { v with traces := [(1, [⟨2, 7, [], 5⟩])], fw := { v.fw with fwd := [(1 * 4 + 2, (20000 - x.2, x.1))] } }) running;
      SMap.get [] s.dev.traces 1 = ⟨2, 7, [], 5⟩ :: [] ∧ s.dev.ostlerUp 1 0 = true
        ∧ (let old := SMap.get (0, 0) s.dev.fw.fwd (1 * 4 + 2); (if old.1 = s.env.nowOf 1 / 1000000 then old.2 else 0) = (if x.2 = 0 then x.1 else 0)))
    ∧ ((dev (fun v => { v with pins := { v.pins with ir := 0x20 } }) running).dev.pins.ir = 0x20)
    ∧ (let s := poke [(CR_STATUS 0, 5), (CR_LIFE 0, 79)] running;
      crockUsable s.env s.dev = true ∧ bit (reg s (CR_STATUS 0)) 0 = true ∧ fld (reg s (CR_LIFE 0)) 0 8 ≤ 80)
    ∧ crockUsable running.env running.dev = false := by decide +kernel

def crockCmd : Cmd := cmd 0x10 0 [(8, 1, 1), (9, 1, 0), (16, 4, 0), (24, 8, buf 64)]

theorem witness_FirmwareRestarts_restore :
    let s := given crockCmd (poke [(CR_STATUS 0, 5), (CR_CKPT 0, 1)] (coached .opened running));
    ready s 0 crockCmd 0x10 ∧ leAt crockCmd.bytes 8 1 = 1 ∧ leAt crockCmd.bytes 9 1 < 8 ∧ bit (reg s (CR_CKPT 0)) (leAt crockCmd.bytes 9 1) = true
      ∧ crockUsable s.env s.dev = true := by
  simp only [ready, ringed, NoneAfter]; decide +kernel

/-- R407, R408: the fourth crash within ten minutes isolates the ostler. -/
theorem test_fourth_crash : gives (exec (.ostlerCrash 1 1) (tending 0 [] (List.replicate 3 19000000000))) (fun t => ostlerState t.dev 1 1 == 3) = true
    ∧ gives (exec (.ostlerCrash 1 1) (tending 0 [] (List.replicate 2 19000000000))) (fun t => ostlerState t.dev 1 1 == 1) = true := by decide +kernel

/-- The MCK domain of a die is held in reset. -/
def stillMck (d : Nat) : State := poke [(CK_SEL d, 0x80000)] running
/-- Die 1's firmware restarts for a trial or for its end. -/
def reviving (due : List Nat) (back : Bool) : State :=
  dev (fun v => { v.modPort 0 (fun h => { h with running := [⟨0x17, 4, 0xFF, 1, 7, 5, 0, [], 0, 0⟩] }) with
    fw := { v.fw with act := some ⟨1, some 5, some 0, due, img, false, [], back⟩ } }) (tending 1 [] [])
/-- The coachman of a die in a restart whose image failed so many times of late. -/
def failing (d n st0 : Nat) : State :=
  dev (fun v => { v with fw := { v.fw with restarts := [(64 + d, List.replicate n 19000000000)] } }) (poke [(FW_STATUS 0, st0), (FW_STATUS d, 1)] running)

theorem witness_FirmwareRestarts_states :
    (fwRuns running.env (tending 0 [] []).dev 1 = true ∧ fwRuns running.env running.dev 1 = false)
    ∧ (Clocked (tending 0x10 [] []) 1 3 ∧ ¬ Clocked (stillMck 1) 1 3)
    ∧ (let s := tending 1 [] []; cmState s.dev 1 = 1 ∧ s.dev.fw.resetDue = [] ∧ Clocked s 1 3 ∧ s.dev.fw.act = none)
    ∧ (∀ x ∈ [([], false), ([], true), ([2, 3], false), ([2, 3], true)], let s := reviving (1 :: x.1) x.2;
      cmState s.dev 1 = 1 ∧ s.dev.fw.resetDue = [] ∧ Clocked s 1 3 ∧ s.dev.fw.act = some ⟨1, some 5, some 0, 1 :: x.1, img, false, [], x.2⟩
        ∧ s.dev.runningOp 0 0x17 4 = some ⟨0x17, 4, 0xFF, 1, 7, 5, 0, [], 0, 0⟩ ∧ ringed s 0)
    ∧ (∀ x ∈ [(0, 1, 1), (1, 1, 0), (1, 2, 0), (1, 2, 1), (0, 2, 1)], let s := failing x.1 x.2.1 x.2.2;
      cmState s.dev x.1 = 1 ∧ s.dev.fw.resetDue = [] ∧ Clocked s x.1 3 ∧ s.dev.fw.act = none
        ∧ (recentRestarts s.env s.dev x.1 (64 + x.1)).length = x.2.1 ∧ s.env.master = 0 ∧ (x.1 = 1 → s.dev.fwUp s.env = (x.2.2 == 0))) := by
  simp only [ringed, NoneAfter, Clocked]; decide +kernel

/-- R403: the watchdog of a processor that was started long ago, that was halted since, or that is halted. -/
theorem witness_FirmwareRestarts_watchdog :
    (∀ p ∈ [0, 1], let s := tending 0 [] []
      let due (s : State) := SMap.get 0 s.dev.fw.served (1 * 5 + p) + SMap.get 0 s.dev.tick.paused (1 * 8 + 1 + p)
        + 1000000 * (if p = 0 then fld (reg s (FW_WDT_CFG 1)) 16 8 else fld (reg s (FW_WDT_CFG 1)) 0 8);
      s.dev.tick.halted.contains (1 * 8 + 1 + p) = false ∧ due s ≤ s.env.nowOf 1 ∧ fwRuns s.env s.dev 1 = true ∧ s.dev.fw.act = none
        ∧ ostlerState s.dev 1 0 = 0
        ∧ (let s' := dev (fun v => { v with fw := { v.fw with served := [(5, 20000000000), (6, 20000000000)] } }) s; s'.env.nowOf 1 < due s')) := by
  decide +kernel

theorem witness_FirmwareRestarts_errors :
    (∀ x ∈ [(0, 0x100), (1, 0x1000000), (2, 0x1FFFFFF), (4, 0), (7, 5)], let s := tending 0 [] [];
      x.2 < 0x2000000 ∧ fwRuns s.env s.dev 1 = true ∧ s.dev.fw.act = none ∧ (x.1 = 4 → ostlerState s.dev 1 1 = 0))
    ∧ Clocked running 1 3
    ∧ (debugOff running.dev (.port 0) = false ∧ debugOff running.dev .debug = true)
    ∧ (let s := poke [(BU_STATUS 0, 6)] running;
      s.dev.pins.crockDet = true ∧ crockSeen s.env s.dev = true ∧ s.dev.bu.perst = true)
    ∧ (let s := given (snapCmd 1) (poke [(CR_STATUS 0, 5)] (coached .opened running));
      crockUsable s.env s.dev = true ∧ ready s 0 (snapCmd 1) 0x0F ∧ leAt (snapCmd 1).bytes 8 1 = 1 ∧ leAt (snapCmd 1).bytes 9 1 < 8
        ∧ applying s.dev (coachOf (snapCmd 1).bytes) = false ∧ crockWritable s.env s.dev = true)
    ∧ (let s := poke [(CR_STATUS 0, 5), (CR_LIFE 0, 79)] running
      let life := lifeOf 700 (max (w32 90000).toNat (reg s (CR_MAX_ERASE 0)).toNat);
      fld (reg s (CR_LIFE 0)) 0 8 ≤ life ∧ fld (reg s (CR_LIFE 0)) 8 10 ≤ 700 ∧ 80 ≤ life ∧ life < 100) := by
  simp only [ready, ringed, NoneAfter, Clocked]; decide +kernel

/-! ## Witnesses: power and clocks -/

def oppCmd (e w : Nat) : Cmd := cmd 0x18 0 [(8, 1, e), (10, 2, w)]

theorem witness_PowerAndClocksFollowTheirRules_opp :
    (∀ x ∈ [(0, 0), (0, 2), (3, 2)], let s := given (oppCmd x.2 1050) (poke [(PM_STATUS 0, x.1 * 256)] running);
      ready s 0 (oppCmd x.2 1050) 0x18 ∧ leAt (oppCmd x.2 1050).bytes 8 1 = x.2 ∧ x.2 < 8 ∧ leAt (oppCmd x.2 1050).bytes 10 2 = 1050 ∧ oppNow s.env s.dev = x.1
        ∧ emergency s.env s.dev = false ∧ s.dev.pw.recovering = false ∧ limitOk s.env.hw.part x.2 1050 = true
        ∧ (∀ d, d < s.env.dies → overChurns s.dev x.2 d = false ∧ overCores s.dev x.2 d = false))
    ∧ (∀ t0 ∈ [20000000000, 20000000001], let s := dev (fun v => { v with pw := { v.pw with step := some (t0, false) } }) running;
      s.dev.pw.step = some (t0, false) ∧ oppNow s.env s.dev ≠ 7 ∧ decide (t0 ≤ s.env.now) = (t0 == 20000000000))
    ∧ (let s := dev (fun v => { v with pw := { v.pw with step := some (5, true) } }) (poke [(PM_STATUS 0, 0x300)] running);
      s.dev.pw.step = some (5, true) ∧ oppNow s.env s.dev ≠ 0)
    ∧ running.dev.pw.step = none := by
  simp only [ready, ringed, NoneAfter]; decide +kernel

/-- A measurement of so many watts and tenths of a degree on every die. -/
def measure (w c : Nat) : Measure := ⟨BitVec.ofNat 16 w, List.replicate 8 ⟨100, BitVec.ofNat 12 c, 0⟩⟩
/-- An emergency in force with an entry, whose last step and last failed condition lie back. -/
def emerging (st ago : Nat) (rec : Bool) : State :=
  dev (fun v => { v with pw := { v.pw with lastStep := 20000000000 - ago, overAt := 20000000000 - ago, recovering := rec } }) (poke [(PM_STATUS 0, st)] running)

theorem witness_PowerAndClocksFollowTheirRules_emergency :
    (overPower running.env running.dev (measure 1101 500) = true ∧ overHeat running.env running.dev (measure 1100 2000) = true
      ∧ overPower running.env running.dev (measure 1100 500) = false ∧ overHeat running.env running.dev (measure 1100 500) = false
      ∧ emergency running.env running.dev = false)
    ∧ (let s := emerging 0x308 100000000 false;
      emergency s.env s.dev = true ∧ calm s.env s.dev (measure 1045 500) = true ∧ calm s.env s.dev (measure 1046 500) = false ∧ s.dev.pw.overAt + 100000000 ≤ s.env.now
        ∧ s.dev.pw.step = none ∧ s.dev.pw.lastStep + 100000 ≤ s.env.now ∧ fld (reg s (PM_EMERG_FLOOR 0)) 0 3 = 7 ∧ oppNow s.env s.dev = 3)
    ∧ (running.env.now < (emerging 0x308 99999 false).dev.pw.lastStep + 100000)
    ∧ (let s := emerging 0x300 100000000 true;
      s.dev.pw.recovering = true ∧ emergency s.env s.dev = false ∧ s.dev.pw.step = none ∧ s.dev.pw.lastStep + 100000000 ≤ s.env.now
        ∧ ceiling s.env s.dev < oppNow s.env s.dev) := by decide +kernel

/-- A retention image that keeps bank 2 of die 1 and core numbers 0 to 9. -/
def holdCmd : Cmd := cmd 0x19 0 [(8, 8, buf 136)]
def holdState (st : CoachState) : State :=
  given holdCmd (put 0x4000 ([2, 0] ++ leBytes 2 1 ++ leBytes 60 0 ++ leBytes 8 0 ++ leBytes 8 4 ++ leBytes 48 0 ++ leBytes 8 (9 * 2 ^ 18)) (coached st running))

theorem witness_PowerAndClocksFollowTheirRules_hold :
    (∀ st ∈ [CoachState.stopped, .none], let s := holdState st;
      ready s 0 holdCmd 0x19 ∧ (∀ g, g < 4 → coachState s.dev g = .stopped ∨ coachState s.dev g = .none) ∧ bufOk s.dev 0 (bufAt holdCmd.bytes 8) false = true
        ∧ (bufAt holdCmd.bytes 8).len ≠ 0 ∧ holdError s.env s.dev 0 (bufAt holdCmd.bytes 8) = none ∧ s.dev.pw.phase = .run)
    ∧ (coached .opened running).dev.isOpen 0 = true ∧ (∀ g, g < 4 → running.dev.isOpen g = false) := by
  simp only [ready, ringed, NoneAfter]; decide +kernel

/-- A clock switch of domain 2 of die 1 that is pending since some time ago. -/
def clocking (ago : Nat) (l : List (Reg × Nat)) : State :=
  dev (fun v => { v with pw := { v.pw with switches := [(1 * 8 + 2, 20000000000 - ago)] } }) (poke ([(CK_STATUS 1, 0x40000), (CK_SEL 1, 4)] ++ l) running)

theorem witness_PowerAndClocksFollowTheirRules_clocks :
    (running.env.has 1 = true ∧ dieQuiet running.env running.dev 1 = true ∧ dieQuiet running.env (dev (fun v => v.modCore 2112 (fun k => { k with fire := some (fire3 [] none) })) running).dev 1 = false)
    ∧ (let s := clocking 5 [(CK_PLL_EN 1, 0x3F)];
      switching s.dev 1 2 = true ∧ sourceRuns s.dev 1 2 (s.dev.fb (CK_STATUS 1) (8 + 2)) = true ∧ sourceRuns s.dev 1 2 (s.dev.fb (CK_SEL 1) 2) = true ∧ switching s.dev 1 3 = false)
    ∧ (let s := clocking 2000 [];
      switching s.dev 1 2 = true ∧ SMap.get 0 s.dev.pw.switches (1 * 8 + 2) + 2000 ≤ s.env.nowOf 0)
    ∧ (let s := poke [(CK_SEL 1, 0x010000)] running;
      bit (0x0301 : Word) 0 ≠ bit (reg s (CK_SEL 1)) 0 ∧ bit (0x0301 : Word) 8 = true ∧ bit (reg s (CK_SEL 1)) 16 = true
        ∧ bit (0x0301 : Word) 9 = true ∧ bit (reg s (CK_SEL 1)) 17 = false ∧ bit (0x0004 : Word) 2 ≠ bit (reg s (CK_SEL 1)) 2 ∧ bit (0x0004 : Word) 10 = false) := by decide +kernel

/-- R441, R445: a due step moves every die's entry; R435: FORCE without DOMRST sets FORCE_ERR. -/
theorem test_opp_step : gives (exec .oppStep (dev (fun v => { v with pw := { v.pw with step := some (5, true) } }) (poke ((List.range 8).map (fun d => (PM_STATUS d, 0x300))) running)))
    (fun t => (List.range 8).all (fun d => fld (reg t (PM_STATUS d)) 8 3 == 2)) = true := by decide +kernel

/-- A ceiling below, at and above the entry in force; steps that move an entry up and down, and one at the end of the table. -/
theorem witness_PowerAndClocksFollowTheirRules_steps :
    (∀ x ∈ [(0, 2), (2, 2), (3, 2)], let s := given (oppCmd x.2 1050) (poke [(PM_STATUS 0, x.1 * 256)] running);
      ready s 0 (oppCmd x.2 1050) 0x18 ∧ oppNow s.env s.dev = x.1 ∧ leAt (oppCmd x.2 1050).bytes 10 2 ≠ 0 ∧ s.dev.pw.recovering = false)
    ∧ (∀ x ∈ [(true, 0x300), (false, 0x300)], let s := dev (fun v => { v with pw := { v.pw with step := some (5, x.1) } }) (poke [(PM_STATUS 0, x.2)] running);
      s.dev.pw.step = some (5, x.1) ∧ 5 ≤ s.env.now ∧ oppNow s.env s.dev ≠ 0 ∧ oppNow s.env s.dev ≠ 7)
    ∧ (∀ ph ∈ [HoldPhase.run, .entering], let s := dev (fun v => { v with pw := { v.pw with phase := ph } }) (holdState .stopped);
      ready s 0 holdCmd 0x19 ∧ bufOk s.dev 0 (bufAt holdCmd.bytes 8) false = true ∧ (bufAt holdCmd.bytes 8).len ≠ 0
        ∧ holdError s.env s.dev 0 (bufAt holdCmd.bytes 8) = none ∧ s.dev.pw.phase = ph)
    ∧ (∀ p ∈ [0, 1, 2, 3, 4], (poke [(CK_SEL 0, 2 ^ (16 + p))] running).dev.still 0 p = true)
    ∧ pDie core0.idx = 0 ∧ sourceDie (.core core0) = 0 := by
  simp only [ready, ringed, NoneAfter]; decide +kernel

/-! ## Witnesses: bring-up -/

/-- The controller after step `k` with a result, STATE and begun flag, the step having started some time ago. -/
def boot (k result state ago : Nat) (begun' : Bool) : State :=
  dev (fun v => { v with bu := { v.bu with perst := true, begun := begun', start := 20000000000 - ago } })
    (poke [(BU_STATUS 0, k + 16 * state + 64 * result)] (at' 20000000000 State.reset))

/-- Firmware runs an image; an image is chosen and not yet running. -/
def imaged (s : State) : State := dev (fun v => { v with fw := { v.fw with image := some img } }) s
def choosing (k : Nat) (s : State) : State := dev (fun v => { v with fw := { v.fw with chosen := some (k, img) } }) s

theorem witness_BringUpStepsRunInOrder_perst :
    (State.reset.dev.bu.perst = false ∧ State.reset.dev.pw.thermtrip = false ∧ running.dev.bu.perst = true) := by decide +kernel

theorem witness_BringUpStepsRunInOrder_accepts :
    (∀ k ∈ [1, 2, 3, 4, 5, 6, 7, 8, 9, 10, 11, 12], let s := boot (k - 1) 0 2 5 true;
      s.dev.bu.perst = true ∧ s.dev.pw.thermtrip = false ∧ s.dev.pw.phase ≠ .hold ∧ buAccepts s.env s.dev k = true ∧ buAccepts s.env s.dev (k % 12 + 1 + 1) = false
        ∧ s.env.bringUpPort = 0 ∧ buRunning s.env s.dev = false) := by decide +kernel

theorem witness_BringUpStepsRunInOrder_waits :
    (let s := boot 6 0 1 5 false; buRunning s.env s.dev = true ∧ buStep s.env s.dev = 6 ∧ s.dev.bu.begun = false) := by decide +kernel

theorem witness_BringUpStepsRunInOrder_senders :
    (isFirmware (.coachman 0) = true ∧ (2 : Fin 4).val ≠ running.env.bringUpPort) := by decide +kernel

theorem witness_BringUpStepsRunInOrder_modes :
    (let s := boot 3 0 2 5 true; bit (reg s (BU_ARG 0)) 0 = false ∧ bit (reg (poke [(BU_ARG 0, 1)] s) (BU_ARG 0)) 0 = true) := by decide +kernel

theorem witness_BringUpStepsRunInOrder_ends :
    (∀ k ∈ [1, 4, 7, 12], let s := imaged (boot k 0 1 5 true);
      1 ≤ k ∧ k ≤ 12 ∧ buRunning s.env s.dev = true ∧ s.dev.bu.begun = true ∧ (k = 7 → s.dev.fw.image ≠ none ∨ s.dev.bu.result = 3)
        ∧ s.dev.bu.result ≤ 1 ∧ s.env.now < s.dev.bu.start + stepMax s.env s.dev k) := by decide +kernel

theorem witness_BringUpStepsRunInOrder_ports :
    (portOpens running.env (poke [(BU_DIE_STATE 0, 0x11111111), (PM_PAD_RELEASE 0, 0), (PM_PAD_RELEASE 1, 0)] running).dev 0 = true) := by decide +kernel

theorem witness_BringUpStepsRunInOrder_fallback :
    ∀ x ∈ [(250000000, 0), (250000000, 2), (249999999, 0)], let s := choosing x.2 (boot 7 0 1 x.1 true);
      s.dev.fw.chosen = some (x.2, img) ∧ buRunning s.env s.dev = true ∧ buStep s.env s.dev = 7 ∧ s.dev.bu.begun = true ∧ s.dev.fw.image = none
        ∧ bit (reg s (BU_STATUS 0)) 12 = false ∧ s.dev.bu.result < 3 ∧ decide (s.dev.bu.start + stepMax s.env s.dev 7 ≤ s.env.now) = decide (x.1 = 250000000) := by decide +kernel

theorem witness_BringUpRegistersAndRebring :
    (∀ st ∈ [0x100, 0], let s := poke [(BU_STATUS 0, st)] running;
      s.dev.bu.perst = true ∧ s.dev.pw.thermtrip = false ∧ s.dev.pw.phase ≠ .hold ∧ buReady s.env s.dev = (st == 0x100) ∧ s.dev.fwUp s.env = true)
    ∧ (let s := poke [(BU_STATUS 0, 0x100), (FW_STATUS 0, 1)] running; buReady s.env s.dev = true ∧ s.dev.fwUp s.env = false)
    ∧ (bit (4 : Word) 2 = true ∧ bit (3 : Word) 2 = false)
    ∧ (let s := dev (fun v => { v with dieDown := [3] }) running; s.dev.dieDown.contains 3 = true ∧ s.dev.dieDown.contains 2 = false) := by decide +kernel

/-- R373: SAFE_RELEASE ends BOOT_HOLD. -/
theorem test_safe_release : gives (exec (.buCtrlSafeRelease (.coachman 0) 4) (poke [(BU_STATUS 0, 0x100), (FR_SAFEN 0, 1)] running)) (fun t => !bit (reg t (FR_SAFEN 0)) 0) = true := by decide +kernel

/-- The bring-up port once it responds, and firmware; the states in which the work of the steps differs. -/
def started (k : Nat) (l : List (Reg × Nat)) : State := poke l (boot (k - 1) 0 2 5 true)
def fit (crock : Bool) (blank : Bool) (s : State) : State :=
  dev (fun v => { v with pins := { v.pins with crockDet := crock }, crock := { v.crock with blank := blank } }) s
def available (s : State) : State := dev (fun v => v.modPort 0 (fun h => { h with lp := { h.lp with available := true } }) |>.modPort 2
  (fun h => { h with lp := { h.lp with available := true } })) s

theorem witness_BringUpStepsRunInOrder_hosts :
    (let s := available (boot 0 0 2 5 true);
      (s.dev.port s.env.bringUpPort).lp.available = true ∧ (s.dev.port (2 : Fin 4).val).lp.available = true ∧ (2 : Fin 4).val ≠ s.env.bringUpPort
        ∧ s.dev.bu.perst = true ∧ s.dev.pw.thermtrip = false ∧ s.dev.pw.phase ≠ .hold)
    ∧ (let s := started 2 [(BU_DIE_STATE 0, 0x11111114)];
      buAccepts s.env s.dev 2 = true ∧ dieState s.env s.dev 1 ≠ 4)
    ∧ (let s := boot 5 0 2 5 true; buAccepts s.env s.dev (fld (3 : Word) 0 4) = false) := by decide +kernel

theorem witness_BringUpStepsRunInOrder_crock :
    (∀ x ∈ [(0, false, true), (1, false, true), (0, true, false), (1, true, false), (0, true, true)],
      let s := fit x.2.1 x.2.2 (started 5 [(BU_CTRL 0, x.1)]);
      buAccepts s.env s.dev 5 = true ∧ bit (reg s (BU_CTRL 0)) 0 = (x.1 == 1) ∧ s.dev.pins.crockDet = x.2.1 ∧ s.dev.crock.blank = x.2.2)
    ∧ (let s := dev (fun v => { v with crock := { v.crock with defects := [defectEntry 0x01 1 5 0x30 false, defectEntry 0x06 1 2 0x30 false] } })
        (fit true false (started 5 []));
      s.dev.listed ≠ [] ∧ (∀ e ∈ s.dev.listed, fldN e 57 1 = 1 ∧ s.env.has (fldN e 16 3) = true ∧ (fldN e 8 8 = 1 ∨ fldN e 8 8 = 6))) := by decide +kernel

/-- An image that the host loaded lies in the bring-up port's SRAM, or does not; a start with an image chosen, or none. -/
theorem witness_BringUpStepsRunInOrder_images :
    (∀ x ∈ [(0, 6), (0, 0x406), (2, 6)], let s := started 6 [(BU_CTRL 0, x.1), (BU_STATUS 0, x.2 - 1 + 32)];
      buAccepts s.env s.dev 6 = true ∧ bit (reg s (BU_CTRL 0)) 1 = (x.1 == 2) ∧ bit (reg s (BU_STATUS 0)) 10 = (x.2 == 0x406))
    ∧ hostImage running.env running.dev = none
    ∧ (hostImage running.env (poke [(BU_FW_OFF 0, 0x40), (BU_FW_LEN 0, 64)] running).dev).isSome = true
    ∧ (let s := started 7 []; buAccepts s.env s.dev 7 = true ∧ s.dev.fw.chosen = none)
    ∧ (∀ k ∈ [0, 1, 2], let s := choosing k (started 7 [(BU_DIE_STATE 0, 0x11111111)]);
      buAccepts s.env s.dev 7 = true ∧ s.dev.fw.chosen = some (k, img) ∧ dieUp s.env s.dev 3 = true ∧ (chosenBytes s.env s.dev k).length ≤ 0x1000000) := by
  decide +kernel

/-- A microcode image of three bytes and its CRC in the master's image copy. -/
def coded : State :=
  dev (fun v => (v.st (psramMem 0 12) (leBytes 4 0x40 ++ leBytes 4 7)).st (psramMem 0 0x40) ([2, 1, 1] ++ leBytes 4 (crc32 [2, 1, 1])))
    (started 8 [(BU_DIE_STATE 0, 0x11111111)])

theorem witness_BringUpStepsRunInOrder_blocks :
    (buAccepts coded.env coded.dev 8 = true ∧ dieUp coded.env coded.dev 3 = true ∧ ucodeWhole (ucodeBytes coded.dev 0) = true)
    ∧ (let s := started 8 [(BU_DIE_STATE 0, 0x11111111)]; buAccepts s.env s.dev 8 = true ∧ ucodeWhole (ucodeBytes s.dev 0) = false)
    ∧ (∀ k ∈ [9, 10], buAccepts running.env (started k []).dev k = true)
    ∧ ((⟨1, 3, 5⟩ : Found).kind.val = 1 ∧ running.env.has (⟨1, 3, 5⟩ : Found).die.val = true)
    ∧ (∀ w ∈ [0x10, 5, 13], let s := started 11 [(CR_STATUS 0, w)];
      buAccepts s.env s.dev 11 = true ∧ bit (reg s (CR_STATUS 0)) 4 = (w == 0x10) ∧ bit (reg s (CR_STATUS 0)) 3 = (w == 13))
    ∧ (let s := dev (fun v => { v with bu := { v.bu with found := [defectEntry 0x01 1 5 0x30 false] } }) (poke [(CR_STATUS 0, 7)] (boot 11 0 1 5 true));
      buStep s.env s.dev = 11 ∧ buRunning s.env s.dev = true ∧ s.dev.bu.result = 0 ∧ fld (reg s (CR_STATUS 0)) 2 3 = 1
        ∧ bit (reg s (CR_STATUS 0)) 8 = false ∧ s.dev.bu.found ≠ [])
    ∧ (let s := imaged (boot 9 0 1 5 true); ¬ (s.dev.bu.start + stepMax s.env s.dev 9 ≤ s.env.now)) := by decide +kernel

/-! ## Witnesses: errors -/

/-- An error of a source, at a core of die 1 or at a block. -/
def detected (source master : Nat) : Detected := ⟨1, BitVec.ofNat 8 source, BitVec.ofNat 16 master, 2, 3, 0x123, 7⟩
def record' (time : Nat) (copied held : Bool) : FaultRec := ⟨0, false, held, 1, 3, 0x01, 0x2005, 2, 0, 1, time, 0, copied⟩

theorem witness_ErrorsAreRecordedAndHandled_raise :
    (∀ x ∈ [(0x10, 0x2005, 4), (0x01, 0x2005, 0), (0x02, 0x2005, 1), (0x04, 0x3600, 0)], let e := detected x.1 x.2.1;
      classOfSource e.source.toNat = some (if x.1 = 0x10 then clsDL else if x.1 = 2 then clsUC else clsCE) ∧ running.env.has e.die.val = true ∧ running.env.has (mDie e.master.toNat) = true
        ∧ mIsCore e.master.toNat = (x.2.1 == 0x2005) ∧ (mIsCore e.master.toNat = true → e.master.toNat % 0x1000 < 2112))
    ∧ (∀ x ∈ [6, 7], let e := detected x 0x3600;
      classOfSource e.source.toNat = some (if x = 6 then clsCE else clsUS) ∧ e.source.toNat ∉ [1, 2, 3, 9] ∧ mIsCore e.master.toNat = false)
    ∧ (running.dev.isFenced (mPhys 0x2005) = false
      ∧ (dev (fun v => { v with place := { v.place with fenced := [2112 + 5] } }) running).dev.isFenced (mPhys 0x2005) = true) := by decide +kernel

/-- A record in its slot, and so many in the aggregator. -/
def faulty (r : FaultRec) (n : Nat) : State :=
  dev (fun v => { v with flt := { v.flt with slots := [(slotKey 1 3 0, some r)], agg := List.replicate n (slotKey 0 0 0, record' 5 true false) } }) running

theorem witness_ErrorsAreRecordedAndHandled_offer :
    (∀ x ∈ [(63, false), (64, false), (64, true)], let s := faulty (record' 9 false x.2) x.1;
      s.dev.slot (slotKey 1 3 0) = some (record' 9 false x.2) ∧ s.env.has 1 = true ∧ (record' 9 false x.2).copied = false ∧ olderWaits s.dev 1 (slotKey 1 3 0) 9 false = false ∧ olderWaits s.dev 1 (slotKey 1 3 0) 9 true = false
        ∧ s.dev.flt.agg.length = x.1)
    ∧ running.dev.slot (slotKey 1 3 0) = none
    ∧ (running.dev.flt.agg = [] ∧ (faulty (record' 9 false false) 2).dev.handlerUp 0 = true ∧ (record' 5 true false).cls ≠ clsUC
      ∧ (faulty (record' 9 false false) 1).dev.flt.agg = (slotKey 0 0 0, record' 5 true false) :: []) := by decide +kernel

/-- The package in factory mode with an injection ordered, at an address of die 1's vat. -/
def injecting (factory : Bool) (ctrl : Nat) : State :=
  dev (fun v => { v with flt := { v.flt with factory := factory } }) (poke [(FC_INJ_CTRL 1, ctrl), (FC_INJ_ADDR_LO 1, 0x40), (FC_INJ_ADDR_HI 1, 0x1100)] running)

theorem witness_ErrorsAreRecordedAndHandled_registers :
    (fld (0x1B : Word) 0 3 = 3 ∧ fld (0x1B : Word) 3 3 = 3)
    ∧ (mayWriteCoach (coached .opened running).dev 0 (.port 0) = true ∧ mayWriteCoach (coached .opened running).dev 0 (.port 1) = false)
    ∧ (running.dev.flt.factory = false ∧ running.hw.testmode = false)
    ∧ (let s := { dev (fun v => { v with pins := { v.pins with ir := 0x20 } }) running with hw := { running.hw with testmode := true } };
      s.hw.testmode = true ∧ s.dev.pins.ir = 0x20)
    ∧ (injecting true 0).dev.flt.factory = true ∧ bit (reg (injecting true 0) (FC_INJ_CTRL 1)) 24 = false
    ∧ (∀ k ∈ [0, 1, 2, 3], let s := injecting true (0x1003100 + k);
      s.dev.flt.factory = true ∧ bit (reg s (FC_INJ_CTRL 1)) 24 = true ∧ fld (reg s (FC_INJ_CTRL 1)) 0 2 = k ∧ fld (reg s (FC_INJ_CTRL 1)) 8 3 = 1
        ∧ fld (reg s (FC_INJ_CTRL 1)) 12 3 = 3)
    ∧ (let s := injecting true 0x1000101;
      injTarget s.env s.dev (s.dev.rd64 (FC_INJ_ADDR_LO 1) (FC_INJ_ADDR_HI 1) % 0x1000000000000) = some (vatMem 1 0x40, 1, mBlock 1 6 (bankOfWord s.dev 1 0).1)
        ∧ mIsCore (mBlock 1 6 0) = false)
    ∧ (running.env.has 1 = true ∧ running.dev.ostlerUp 1 2 = true ∧ fld (reg running (FC_AGE_LIMITS 1)) 0 8 = 40 ∧ fld (reg running (FC_AGE_LIMITS 1)) 8 8 = 20) := by decide +kernel

/-- R378: sources whose rule names the coach, a device block, core memories, and firmware's errors. -/
theorem witness_ErrorsAreRecordedAndHandled_owners :
    (∀ x ∈ [(0x10, 0x2005), (0x04, 0x2005), (0x04, 0x3600), (0x22, 0x3600)], let e := detected x.1 x.2;
      (classOfSource e.source.toNat).isSome = true ∧ e.source.toNat ∉ [1, 2, 3, 9, 0x40, 0x41, 0x42]
        ∧ (namesOwner e.source.toNat = false → ownersOr ((ownersOfBlock running.dev e.master.toNat).getD [4]) = [4]))
    ∧ (namesOwner 0x10 = true ∧ namesOwner 0x04 = false)
    ∧ (∀ x ∈ [(0x40, mBlock 1 8 2), (0x41, mBlock 1 7 0)], let e := detected x.1 x.2
      let s := tending 0 [] [];
      classOfSource e.source.toNat = some clsFW ∧ e.master.toNat = x.2 ∧ mDie e.master.toNat = 1 ∧ fwRuns s.env s.dev 1 = true
        ∧ ostlerState s.dev 1 2 = 0 ∧ s.dev.fw.act = none) := by decide +kernel

/-- Records that wait behind an older one of their die, in its slot or held. -/
def behind (h : Bool) : State :=
  dev (fun v => { v with flt := { v.flt with slots := [(slotKey 1 3 0, some (record' 9 false false)), (slotKey 1 2 0, some (record' 5 false h))] } }) running

theorem witness_ErrorsAreRecordedAndHandled_waiting :
    (∀ h ∈ [true, false], let s := behind h;
      s.dev.slot (slotKey 1 3 0) = some (record' 9 false false) ∧ Clocked s 1 3 ∧ olderWaits s.dev 1 (slotKey 1 3 0) 9 false = true
        ∧ olderWaits s.dev 1 (slotKey 1 3 0) 9 true = h ∧ s.dev.flt.agg.length < 64)
    ∧ (let r : FaultRec := { record' 5 true false with cls := clsUC }
      let s := dev (fun v => { v with flt := { v.flt with agg := [(slotKey 0 0 1, r)], ucDue := [(slotKey 0 0 1, 2112 + 5)] } }) running;
      s.dev.flt.agg = (slotKey 0 0 1, r) :: [] ∧ s.dev.handlerUp 0 = true ∧ r.cls = clsUC ∧ s.dev.flt.ucDue ≠ [])
    ∧ ((injecting true 0).dev.flt.factory = true ∧ (Party.port 0) ≠ .debug)
    ∧ (let s := poke [(FC_INJ_CTRL 1, 0x1003102), (FC_INJ_ADDR_LO 1, 0x00062000), (FC_INJ_ADDR_HI 1, 0x1140)] (injecting true 0x1003102)
      let a := s.dev.rd64 (FC_INJ_ADDR_LO 1) (FC_INJ_ADDR_HI 1) % 0x1000000000000;
      injTarget s.env s.dev a = none ∧ injPsram s.env a = none ∧ (injTable s.env a).isSome = true ∧ fld (reg s (FC_INJ_CTRL 1)) 0 2 = 2) := by
  simp only [Clocked]; decide +kernel

/-! ## Witnesses: resets -/

/-- The package on its way into HOLD since some time ago, with or without a wake. -/
def entering (ph : HoldPhase) (ago : Nat) : State := dev (fun v => { v with pw := { v.pw with phase := ph, since := 20000000000 - ago, cores := [(5, 7)] } }) running

theorem witness_ResetsLeaveWhatTheTableSays :
    (∀ d ∈ [0, 1], running.env.has d = true ∧ bit (reg (poke [(CK_STATUS d, 0x3F)] running) (CK_STATUS d)) 2 = true)
    ∧ bit (reg running (CK_STATUS 0)) 2 = false
    ∧ (running.dev.fwUp running.env = true ∧ (let s := poke [(FW_STATUS 0, 1)] running; s.dev.fwUp s.env = false))
    ∧ (fld (0x7A5C0001 : Word) 16 16 = 0x7A5C ∧ fld (0x7A5C0001 : Word) 0 2 = 1 ∧ mayReset running.env (.coachman 0) 1 = true ∧ mayReset running.env (.port 0) 1 = true
      ∧ running.dev.pw.thermtrip = false ∧ running.dev.pw.phase ≠ .hold)
    ∧ (fld (0x7A5C000E : Word) 0 2 = 2 ∧ fld (0x7A5C000E : Word) 2 3 = 3 ∧ running.env.has 3 = true ∧ running.dev.dieDown.contains 3 = false)
    ∧ (fld (0x7A5C0002 : Word) 0 2 = 2 ∧ fld (0x7A5C0002 : Word) 2 3 = 0 ∧ running.env.master = 0 ∧ (2 : Fin 4).val ≠ running.env.bringUpPort)
    ∧ (let s := entering .entering 10000; s.dev.pw.phase = .entering ∧ s.dev.pw.since + 10000 ≤ s.env.now ∧ s.dev.pw.wakeDue = false)
    ∧ (running.env.now < (entering .entering 9999).dev.pw.since + 10000)
    ∧ ((entering .hold 10000).dev.pw.phase = .hold ∧ running.dev.pw.phase = .run) := by decide +kernel

/-- The parties whose ports respond, and a start that ended FATAL. -/
theorem witness_ResetsLeaveWhatTheTableSays_further :
    (running.dev.portOpen 0 = true ∧ fld (reg running (BU_STATUS 0)) 6 2 ≠ 3)
    ∧ fld (reg (poke [(BU_STATUS 0, 0xC0)] running) (BU_STATUS 0)) 6 2 = 3
    ∧ (let s := available State.reset; s.dev.portOpen 0 = false ∧ (s.dev.port 0).lp.available = true)
    ∧ (running.dev.portOpen 2 = true ∧ (2 : Fin 4).val ≠ running.env.bringUpPort) := by decide +kernel

/-! ## Witnesses: interfaces of the package -/

theorem witness_PackageInterfacesAnswer :
    (∀ en ∈ [0, 1], running.env.has 3 = true ∧ bit (reg (poke [(XR_CTRL 3, en)] running) (XR_CTRL 3)) 0 = (en == 1))
    ∧ (let s := poke [(XR_CTRL 3, 0x15)] running; fld (reg s (XR_CTRL 3)) 1 7 = fld (0x14 : Word) 1 7 ∧ fld (reg s (XR_CTRL 3)) 1 7 ≠ fld (0x18 : Word) 1 7)
    ∧ smbUp running.env running.dev = true ∧ smbUp State.reset.env State.reset.dev = false ∧ 8 < (0x09 : Byte).toNat
    ∧ running.dev.bu.perst = true ∧ State.reset.dev.bu.perst = false := by decide +kernel

/-- The first pin of the boundary register that the package drives, and the two that no instruction reaches. -/
theorem witness_PackageInterfacesAnswer_pins :
    (∃ (i : Nat) (b : Bool), (pins running.env running.dev)[i]? = some (PinDrive.level b)) ∧ (∃ (i : Nat) (b : Bool), (pins running.env running.dev)[i]? = some (PinDrive.guarded b)) := by
  have h1 : ((pins running.env running.dev).findIdx? (fun x => decide (x = .level true))).isSome = true := by decide +kernel
  have h2 : ((pins running.env running.dev).findIdx? (fun x => decide (x = .guarded true))).isSome = true := by decide +kernel
  obtain ⟨i, hi⟩ := Option.isSome_iff_exists.1 h1
  obtain ⟨j, hj⟩ := Option.isSome_iff_exists.1 h2
  obtain ⟨hi, h, -⟩ := List.findIdx?_eq_some_iff_getElem.1 hi
  obtain ⟨hj, k, -⟩ := List.findIdx?_eq_some_iff_getElem.1 hj
  exact ⟨⟨i, true, List.getElem?_eq_some_iff.2 ⟨hi, of_decide_eq_true h⟩⟩, j, true, List.getElem?_eq_some_iff.2 ⟨hj, of_decide_eq_true k⟩⟩

/-- R468: entry 4 of the ceiling in bits 7:4. -/
theorem test_smbus_read : gives (exec (.smbusRead 0x05 .read) (poke [(PM_STATUS 0, 0x4500)] running)) (fun t => t.dev.pins.smbAnswer == some [0x45]) = true := by decide +kernel

end Sys2Proof.Tests
end

section
/-! SUPPORT. What carrying out a command of a port's ring does: its start, its completion and the registers and memory that both leave alone
(R329, R332 to R341, R345, 11_commands_and_coaches.md). -/
namespace Sys2Proof.Machine

open Sys2Proof Sys2Proof.Safety

/-! ## Bytes -/

@[simp] theorem length_leBytes (n x : Nat) : (leBytes n x).length = n := by
  induction n generalizing x with
  | zero => rfl
  | succ n ih => simp [leBytes, ih]

@[simp] theorem length_completionBytes (r : Running) (st detail : Nat) (result : List Byte) :
    (completionBytes r st detail result).length = 32 := by
  simp [completionBytes]

/-- The bytes of a range read back what was stored there. -/
theorem Dev.ldBytes_st (v : Dev) (a : Nat) (bs : List Byte) : (v.st a bs).ldBytes a bs.length = bs := by
  apply List.ext_getElem
  · simp [Dev.ldBytes]
  · intro i h1 h2
    simp [Dev.ldBytes, Dev.ld_st_in v a bs i h2]

/-! ## Port SRAM (R237) -/

/-- The bytes of a port's SRAM lie on its die. -/
theorem memDie_sramMem (p off : Nat) (h : off < 0x2000000) : memDie (sramMem p off) = memDie (sramMem p 0) := by
  simp only [memDie, sramMem, dieSpace, portDie, portUnit]
  omega

theorem Dev.st_modNet (v : Dev) (a : Nat) (bs : List Byte) (f : NetState → NetState) : (v.modNet f).st a bs = (v.st a bs).modNet f := by
  induction bs generalizing v a with
  | nil => rfl
  | cons b bs ih => exact ih { v with mem := SMap.set 0 v.mem a b } (a + 1)

/-- A write after which no other write of its die comes stores its bytes; else it touches the list of recent writes alone. -/
theorem Dev.stCycle_last (cyc rank a : Nat) (bs : List Byte) (v : Dev)
    (h : ∀ w ∈ v.net.recentWr, memDie w.addr = memDie a → 4 * w.cyc + w.rank ≤ 4 * cyc + rank) :
    ∃ l, v.stCycle cyc rank a bs = (v.st a bs).modNet (fun n => { n with recentWr := l }) := by
  have later : v.net.recentWr.filter (fun w => memDie w.addr == memDie a && decide (4 * cyc + rank < 4 * w.cyc + w.rank)) = [] := by
    rw [List.filter_eq_nil_iff]
    intro w hw
    have := h w hw
    simp; omega
  simp only [Dev.stCycle, later, List.reverse_nil, List.foldl_nil, redoWrite, Dev.st_modNet]
  exact ⟨_, rfl⟩

/-! ## The rings -/

theorem exists_of_length_eq_three {α : Type} {l : List α} (h : l.length = 3) : ∃ a b c, l = [a, b, c] := by
  match l, h with
  | [a, b, c], _ => exact ⟨a, b, c, rfl⟩

/-- Rings below the host page hold every completion below it. -/
theorem cplSlot_below_hostPage {s : State} {p : Nat} (h : ringed s p) :
    (s.dev.port p).base 1 + (s.dev.port p).cplProd % (s.dev.port p).slots 1 * 32 + 32 ≤ hostPage := by
  obtain ⟨hb, hl, hr, -⟩ := h
  obtain ⟨b0, b1, b2, hb⟩ := exists_of_length_eq_three hb
  obtain ⟨l0, l1, l2, hl⟩ := exists_of_length_eq_three hl
  have ring : b1 + 32 * 2 ^ l1 ≤ hostPage := hr (b1, 32 * 2 ^ l1) (by simp [Port.rings, hb, hl])
  have slot : (s.dev.port p).cplProd % 2 ^ l1 < 2 ^ l1 := Nat.mod_lt _ (Nat.two_pow_pos l1)
  simp only [Port.base, Port.slots, hb, hl, List.getD_cons_succ, List.getD_cons_zero]
  omega

/-- The device's write of a completion stores its bytes in the slot of the ring. -/
theorem stSram_completion {s : State} {p : Nat} (h : ringed s p) (bs : List Byte) :
    ∃ l, s.dev.stSram s.env p ((s.dev.port p).base 1 + (s.dev.port p).cplProd % (s.dev.port p).slots 1 * 32) bs
      = (s.dev.st (cplAt s p) bs).modNet (fun n => { n with recentWr := l }) := by
  have below := cplSlot_below_hostPage h
  rw [hostPage] at below
  obtain ⟨-, -, -, hn⟩ := h
  refine Dev.stCycle_last _ _ _ _ _ (fun w hw hd => hn w hw ?_)
  rw [hd, memDie_sramMem _ _ (by omega)]

/-! ## Trace records (R408, R410) -/

/-- A trace record changes the die's FIFO or the count of records lost. -/
theorem traceRec_frame (d g point kind time : Nat) (body : List Byte) (v : Dev) :
    ∃ m l, traceRec d g point kind time body v = { v with regs := m, traces := l } := by
  unfold traceRec
  split
  · dsimp only
    split <;> exact ⟨_, _, rfl⟩
  · exact ⟨_, _, rfl⟩

theorem traceRec_rd_ne (d g point kind time : Nat) (body : List Byte) (v : Dev) {q : Reg} (h : q.key ≠ (FW_TRACE d g).key) :
    (traceRec d g point kind time body v).rd q = v.rd q := by
  unfold traceRec
  split
  · dsimp only
    split
    · rfl
    · exact Dev.rd_setF_ne v _ _ _ h
  · rfl

theorem cmdTrace_frame (env : Env) (p : Nat) (r : Running) (st : Nat) (v : Dev) :
    ∃ m l, cmdTrace env p r st v = { v with regs := m, traces := l } := by
  unfold cmdTrace
  split
  · exact traceRec_frame ..
  · exact ⟨_, _, rfl⟩

theorem cmdTrace_rd_ne (env : Env) (p : Nat) (r : Running) (st : Nat) (v : Dev) {q : Reg}
    (h : ∀ g, g < 4 → q.key ≠ (FW_TRACE (portDie p) g).key) : (cmdTrace env p r st v).rd q = v.rd q := by
  unfold cmdTrace
  split
  · next hg => exact traceRec_rd_ne _ _ _ _ _ _ v (h _ hg)
  · rfl

/-! ## Completions (R329, R333) -/

/-- A port's completion index after one more completion. -/
def Port.completed (h : Port) : Port := { h with cplProd := (h.cplProd + 1) % 0x100000000 }

/-- What completing a command makes of a package with rings: the completion in memory, the index and the alert, and a trace record. -/
theorem complete_of_ringed {s : State} {p : Nat} (h : ringed s p) (r : Running) (st detail : Nat) (result : List Byte) :
    ∃ l, complete s.env p r st detail result s.dev = cmdTrace s.env p r st (setAlert p 0
      (((s.dev.st (cplAt s p) (completionBytes r st detail result)).modNet (fun n => { n with recentWr := l })).modPort p
        Port.completed)) := by
  have bases : (s.dev.port p).bases ≠ [] := fun e => by simp [ringed, e] at h
  obtain ⟨l, hl⟩ := stSram_completion h (completionBytes r st detail result)
  exact ⟨l, by rw [complete, if_neg bases, hl]; rfl⟩

/-- The pieces that completing a command changes: registers, the completion's bytes, the port's index, and the traces. -/
theorem complete_frame {s : State} {p : Nat} (h : ringed s p) (r : Running) (st detail : Nat) (result : List Byte) :
    ∃ m l tr, complete s.env p r st detail result s.dev =
      { s.dev.modPort p Port.completed with
        regs := m, mem := (s.dev.st (cplAt s p) (completionBytes r st detail result)).mem,
        net := { s.dev.net with recentWr := l }, traces := tr } := by
  obtain ⟨l, hl⟩ := complete_of_ringed h r st detail result
  obtain ⟨m, tr, ht⟩ := cmdTrace_frame s.env p r st (setAlert p 0
      (((s.dev.st (cplAt s p) (completionBytes r st detail result)).modNet (fun n => { n with recentWr := l })).modPort p
        Port.completed))
  obtain ⟨mem, hm⟩ := s.dev.st_frame (cplAt s p) (completionBytes r st detail result)
  exact ⟨m, l, tr, by rw [hl, ht, hm]; rfl⟩

theorem complete_port {s : State} {p : Nat} (h : ringed s p) (r : Running) (st detail : Nat) (result : List Byte) :
    (complete s.env p r st detail result s.dev).port p = (s.dev.port p).completed := by
  obtain ⟨m, l, tr, hc⟩ := complete_frame h r st detail result
  rw [hc]
  exact Dev.port_modPort_same s.dev p Port.completed

theorem complete_ld {s : State} {p : Nat} (h : ringed s p) (r : Running) (st detail : Nat) (result : List Byte) (a : Nat) :
    (complete s.env p r st detail result s.dev).ld a = (s.dev.st (cplAt s p) (completionBytes r st detail result)).ld a := by
  obtain ⟨m, l, tr, hc⟩ := complete_frame h r st detail result
  rw [hc]
  rfl

/-- Registers other than the port's alert cause and its die's trace settings keep their values. -/
theorem complete_rd_ne {s : State} {p : Nat} (h : ringed s p) (r : Running) (st detail : Nat) (result : List Byte) {q : Reg}
    (ha : q.key ≠ (hpAlert p).key) (ht : ∀ g, g < 4 → q.key ≠ (FW_TRACE (portDie p) g).key) :
    (complete s.env p r st detail result s.dev).rd q = s.dev.rd q := by
  obtain ⟨l, hl⟩ := complete_of_ringed h r st detail result
  rw [hl, cmdTrace_rd_ne _ _ _ _ _ ht, setAlert, Dev.rd_setB_ne _ _ _ (by exact ha)]
  simp

theorem complete_alert {s : State} {p : Nat} (h : ringed s p) (r : Running) (st detail : Nat) (result : List Byte) :
    (complete s.env p r st detail result s.dev).fb (hpAlert p) 0 = true := by
  have trace : ∀ g, g < 4 → (hpAlert p).key ≠ (FW_TRACE (portDie p) g).key := by
    intro g hg
    simp only [Reg.key, hpAlert, HP_ALERT_STAT, FW_TRACE, dieReg, b2n, portUnit]
    omega
  obtain ⟨l, hl⟩ := complete_of_ringed h r st detail result
  rw [hl, Dev.fb, cmdTrace_rd_ne _ _ _ _ _ trace]
  exact Dev.fb_setB_same _ _ _ _ (by omega)

/-- A command that completes on a port with rings writes its completion. -/
theorem complete_written {s : State} {p : Nat} (h : ringed s p) (r : Running) (st detail : Nat) (result : List Byte) :
    Written s { s with dev := complete s.env p r st detail result s.dev } p r st detail result := by
  refine ⟨?_, by rw [complete_port h, Port.completed], complete_alert h .., rfl, rfl, rfl⟩
  rw [← length_completionBytes r st detail result, Dev.ldBytes]
  simp only [complete_ld h]
  exact Dev.ldBytes_st ..

/-- Outside its slot of the ring a completion leaves memory as it was. -/
theorem complete_ld_out {s : State} {p : Nat} (h : ringed s p) (r : Running) (st detail : Nat) (result : List Byte) {a : Nat}
    (ha : a < cplAt s p ∨ cplAt s p + 32 ≤ a) : (complete s.env p r st detail result s.dev).ld a = s.dev.ld a := by
  rw [complete_ld h]
  exact Dev.ld_st_out _ _ _ _ (by simpa using ha)

/-! ## Starting a command (R335, R341) -/

/-- A command that starts leaves its lane and wakes its die. -/
theorem begun_frame (s : State) (p : Nat) (c : Cmd) :
    ∃ m, begun s p c = { s.dev.setLane p (laneOf c.bytes) ((s.dev.lane p (laneOf c.bytes)).drop 1) with regs := m } :=
  Dev.awake_frame _ _

theorem begun_rd_ne (s : State) (p : Nat) (c : Cmd) {q : Reg} (h : q.key ≠ (PM_STATUS (portDie p)).key) :
    (begun s p c).rd q = s.dev.rd q := by
  rw [begun, Dev.rd_awake_ne _ _ h]
  rfl

theorem begun_port (s : State) (p : Nat) (c : Cmd) :
    (begun s p c).port p = { s.dev.port p with
      lanes := SMap.set [] (s.dev.port p).lanes (laneOf c.bytes) ((s.dev.lane p (laneOf c.bytes)).drop 1) } := by
  obtain ⟨m, hm⟩ := begun_frame s p c
  rw [hm]
  show (s.dev.setLane p _ _).port p = _
  rw [Dev.setLane, Dev.port_modPort_same]

theorem begun_lane (s : State) (p : Nat) (c : Cmd) :
    (begun s p c).lane p (laneOf c.bytes) = (s.dev.lane p (laneOf c.bytes)).drop 1 := by
  rw [Dev.lane, begun_port]
  exact SMap.get_set_same ..

theorem begun_cycle (s : State) (p : Nat) (c : Cmd) (env : Env) (d : Nat) : (begun s p c).cycle env d = s.dev.cycle env d := by
  have freq : (begun s p c).rd (dieReg d 0x160010) = s.dev.rd (dieReg d 0x160010) :=
    begun_rd_ne s p c (by simp only [Reg.key, PM_STATUS, dieReg, b2n]; omega)
  obtain ⟨m, hm⟩ := begun_frame s p c
  simp only [Dev.cycle, Dev.chkAt, Dev.chkSegs, Dev.fd, freq]
  rw [hm]
  rfl

/-- The rings are in force for a command that has started as they were before it. -/
theorem begun_ringed {s : State} {p : Nat} (h : ringed s p) (c : Cmd) : ringed { s with dev := begun s p c } p := by
  obtain ⟨hb, hl, hr, hn⟩ := h
  have net : (begun s p c).net = s.dev.net := by obtain ⟨m, hm⟩ := begun_frame s p c; rw [hm]; rfl
  refine ⟨?_, ?_, ?_, ?_⟩
  · simpa only [begun_port] using hb
  · simpa only [begun_port] using hl
  · rw [begun_port]; exact hr
  · rw [begun_cycle]
    intro w hw
    exact hn w (net ▸ hw)

theorem begun_cplAt (s : State) (p : Nat) (c : Cmd) : cplAt { s with dev := begun s p c } p = cplAt s p := by
  simp only [cplAt, begun_port]
  rfl

/-! ## A command row (R324, R335, R341, R345) -/

/-- Each row of the commands that need nothing beside the port and the command is runCommand with its opcode and handler. -/
theorem exec_commandRow (p : Fin 4) (c : Cmd) (s : State) :
    ∀ x ∈ commandRows p c, exec x.1 s = .next (s.onDev (runCommand x.2.1 p.val c x.2.2)) := by
  simp only [commandRows, List.forall_mem_cons]
  exact ⟨rfl, rfl, rfl, rfl, rfl, rfl, rfl, rfl, rfl, rfl, rfl, rfl, rfl, rfl, rfl, rfl, rfl, rfl, rfl, rfl, rfl, rfl, rfl, rfl, by simp⟩

theorem runCommand_of_not_startable {op p : Nat} {c : Cmd} {f : Handler} {env : Env} {v : Dev} (h : startable env v p c op = false) :
    runCommand op p c f env v = v := by
  simp [runCommand, h]

/-- The state check of a command reads nothing that starting it changes. -/
theorem stateCheck_begun (s : State) (p : Nat) (c : Cmd) (q : Nat) (bs : List Byte) :
    stateCheck s.env (begun s p c) q bs = stateCheck s.env s.dev q bs := by
  obtain ⟨m, hm⟩ := begun_frame s p c
  rw [hm]
  rfl

/-- A command that starts and fails its state check completes with that status. -/
theorem runCommand_of_refused {s : State} {op p : Nat} {c : Cmd} (f : Handler) {y : Nat × Nat} (h : startable s.env s.dev p c op = true)
    (hy : stateCheck s.env (begun s p c) p c.bytes = some y) :
    runCommand op p c f s.env s.dev = complete s.env p (runningOf s.env p c) y.1 y.2 [] (begun s p c) := by
  rw [begun] at hy ⊢
  simp only [runCommand, h, if_true, hy]

/-- What the answer of a command's handler makes of the package: the command completes, or is among the port's running ones. -/
def answered (env : Env) (p : Nat) (r : Running) : Ans × Dev → Dev
  | (.done st detail result, w) => complete env p r st detail result w
  | (.later aux, w) => w.modPort p (fun h => { h with running := h.running ++ [{ r with aux := aux }] })
  | (.copying l st detail, w) =>
    w.modPort p (fun h => { h with running := h.running ++ [{ r with copies := l, st := st, detail := detail }] })

/-- A command that starts and passes the check is answered by its handler. -/
theorem runCommand_of_ready {s : State} {op p : Nat} {c : Cmd} (f : Handler) (h : ready s p c op) :
    runCommand op p c f s.env s.dev = answered s.env p (runningOf s.env p c) (f s.env p c.bytes (begun s p c)) := by
  obtain ⟨start, pass, -⟩ := h
  rw [← stateCheck_begun s p c] at pass
  rw [begun] at pass ⊢
  simp only [runCommand, start, if_true, pass]
  rfl

/-! ## A command that completes at once, and does nothing else -/

/-- The state in which a command has left its lane and completed, with no other effect. -/
def endedAtOnce (s : State) (p : Nat) (c : Cmd) (st detail : Nat) (result : List Byte) : State :=
  { s with dev := complete s.env p (runningOf s.env p c) st detail result (begun s p c) }

theorem endedAtOnce_port {s : State} {p : Nat} (h : ringed s p) (c : Cmd) (st detail : Nat) (result : List Byte) :
    (endedAtOnce s p c st detail result).dev.port p = ((begun s p c).port p).completed := complete_port (begun_ringed h c) ..

theorem endedAtOnce_completes {s : State} {p : Nat} (h : ringed s p) (c : Cmd) (st detail : Nat) (result : List Byte) :
    Completes s (endedAtOnce s p c st detail result) p c st detail result := by
  refine ⟨?_, ?_, ?_⟩
  · obtain ⟨bytes, prod, alert, -⟩ := complete_written (begun_ringed h c) (runningOf s.env p c) st detail result
    rw [begun_cplAt] at bytes
    simp only [begun_port] at prod
    exact ⟨bytes, prod, alert, rfl, rfl, rfl⟩
  · rw [← begun_lane, Dev.lane, endedAtOnce_port h]
    rfl
  · rw [endedAtOnce_port h, begun_port]
    rfl

/-- Outside its slot of the ring memory is as before. -/
theorem endedAtOnce_readByte {s : State} {p : Nat} (h : ringed s p) (c : Cmd) (st detail : Nat) (result : List Byte) {a : Nat}
    (ha : a < cplAt s p ∨ cplAt s p + 32 ≤ a) : readByte (endedAtOnce s p c st detail result) a = readByte s a := by
  obtain ⟨m, hb⟩ := begun_frame s p c
  rw [← begun_cplAt s p c] at ha
  calc readByte (endedAtOnce s p c st detail result) a
      = (begun s p c).ld a := complete_ld_out (begun_ringed h c) _ _ _ _ ha
    _ = readByte s a := by rw [hb]; rfl

/-- Of the registers only the port's and its die's bookkeeping changes. -/
theorem endedAtOnce_regs {s : State} {p : Nat} (h : ringed s p) (c : Cmd) (st detail : Nat) (result : List Byte) :
    RegsExcept s (endedAtOnce s p c st detail result) (cmdRegs p) := by
  intro q hq
  simp only [cmdRegs, List.forall_mem_cons] at hq
  obtain ⟨status, alert, trace0, trace1, trace2, trace3, -⟩ := hq
  refine (complete_rd_ne (begun_ringed h c) _ _ _ _ alert fun g hg => ?_).trans (begun_rd_ne s p c status)
  match g, hg with
  | 0, _ => exact trace0
  | 1, _ => exact trace1
  | 2, _ => exact trace2
  | 3, _ => exact trace3

/-- Of the other pieces only memory, the recent writes, the ports and the traces change. -/
theorem endedAtOnce_changes {s : State} {p : Nat} (h : ringed s p) (c : Cmd) (st detail : Nat) (result : List Byte) :
    ChangesOnly s (endedAtOnce s p c st detail result) [.regs, .mem, .recent, .ports, .traces] := by
  obtain ⟨m, hb⟩ := begun_frame s p c
  obtain ⟨m', l, tr, hc⟩ := complete_frame (begun_ringed h c) (runningOf s.env p c) st detail result
  have frame : ∃ m mem l po tr, (endedAtOnce s p c st detail result).dev =
      { s.dev with regs := m, mem := mem, net := { s.dev.net with recentWr := l }, ports := po, traces := tr } :=
    ⟨m', _, l, _, tr, by rw [show (endedAtOnce s p c st detail result).dev = _ from hc, hb]; rfl⟩
  obtain ⟨m, mem, l, po, tr, frame⟩ := frame
  exact ⟨rfl, rfl, rfl, by rw [frame]; rfl⟩

/-- Settles O48: every row is `runCommand`, whose three ways (it may not start, it fails the state check, its handler answers) are the clauses. -/
theorem commandsRunInTheirLanes : Obligations.CommandsRunInTheirLanes := by
  intro p c s x hx
  rw [exec_commandRow p c s x hx, State.onDev]
  refine ⟨fun h => ?_, fun h rings y hy => ?_, fun h st detail result w hw => ?_, fun h aux w hw => ?_, fun h l st detail w hw => ?_⟩
  · rw [runCommand_of_not_startable h]
  · rw [← stateCheck_begun s p.val c] at hy
    exact ⟨endedAtOnce s p.val c y.1 y.2 [], by rw [runCommand_of_refused _ h hy]; rfl, endedAtOnce_completes rings ..,
      fun _ => endedAtOnce_readByte rings _ _ _ _, endedAtOnce_regs rings _ _ _ _, endedAtOnce_changes rings ..⟩
  · rw [runCommand_of_ready _ h, hw]; rfl
  · rw [runCommand_of_ready _ h, hw]; rfl
  · rw [runCommand_of_ready _ h, hw]; rfl

end Sys2Proof.Machine
end

section
/-! SUPPORT. Register writes that a rule drops: the record they leave, the counts at a host's port, and what they leave unchanged (R24, R306,
R378 to R382). -/
namespace Sys2Proof.Machine

open Sys2Proof Sys2Proof.Safety

/-- After an error other than UC of an owner that exists, on a die of the part, a record stands in its slot. -/
theorem raise_recorded (env : Env) (e : Err) (v : Dev) (h : e.cls ≠ clsUC) (hr : env.has e.die = true) (hc : e.cls < 7) (ho : e.owner < 5) :
    (raise env e v).slot (slotKey e.die e.owner e.cls) ≠ none := by
  rw [raise_slot env e v _ h hr hc ho, if_pos rfl]
  exact Option.some_ne_none _

/-! ## The count of a port's writes -/

/-- Counting a port's write changes its HP_WRITE_SEQ alone. -/
theorem rd_seqCount (env : Env) (h : Fin 4) (e : Nat) (v : Dev) {r : Reg}
    (hr : r.key ≠ 0x11002C + 0x1000 * (h.val % 2) + 0x2000000 * (h.val / 2)) : (seqCount env (.port h) e v).rd r = v.rd r := by
  apply seqCount_rd_ne
  have key : (HP_WRITE_SEQ (portDie h.val) (portUnit h.val)).key = 0x11002C + 0x1000 * (h.val % 2) + 0x2000000 * (h.val / 2) := by
    simp only [Reg.key, HP_WRITE_SEQ, dieReg, b2n, portDie, portUnit, Bool.false_eq_true, if_false]
    omega
  rwa [key]

/-- Counting a port's write leaves the class of every register as it was. -/
theorem regClass_seqCount (env : Env) (h : Fin 4) (e : Nat) (v : Dev) (d off : Nat) :
    regClass (seqCount env (.port h) e v) d off = regClass v d off := by
  have aligned (r : Reg) (hr : r.off % 16 = 0) : (seqCount env (.port h) e v).rd r = v.rd r :=
    rd_seqCount env h e v (by rw [Reg.key]; omega)
  have cmp (c : Nat) := aligned (CMP_CTRL d c) (by simp only [CMP_CTRL, dieReg]; omega)
  have cap (c : Nat) := aligned (CAP_CTRL d c) (by simp only [CAP_CTRL, dieReg]; omega)
  have tout := aligned (TO_OWNER d) (by simp only [TO_OWNER, dieReg])
  have churn (c : Nat) := aligned (CHN_CTRL d c) (by simp only [CHN_CTRL, dieReg]; omega)
  have sep (c : Nat) := aligned (SP_CTRL d c) (by simp only [SP_CTRL, dieReg]; omega)
  have secure (i : Nat) : (seqCount env (.port h) e v).fb (SEC_BLOCK0 d) i = v.fb (SEC_BLOCK0 d) i :=
    congrArg (bit · i) (aligned _ (by simp only [SEC_BLOCK0, dieReg]))
  have region (i : Nat) (hi : i < 64) : ((seqCount env (.port h) e v).rgn d i).owner = (v.rgn d i).owner := by
    show fld _ 4 3 = fld _ 4 3
    rw [rd_seqCount]
    simp only [Reg.key, SEC_RGN_B, dieReg, b2n, Bool.false_eq_true, if_false]
    omega
  unfold regClass
  split
  case h_17 =>
    split
    · rfl
    · split
      · rw [region _ (by omega)]
      · rfl
  all_goals simp only [timerClass, Dev.churnOwner, Dev.sepOwner, Dev.fd, cmp, cap, tout, churn, sep, secure]

/-- Nor does it change who owns the register's block. -/
theorem deniedOwner_seqCount (env : Env) (h : Fin 4) (e : Nat) (v : Dev) (d off : Nat) :
    deniedOwner (seqCount env (.port h) e v) d off = deniedOwner v d off := by
  unfold deniedOwner
  rw [regClass_seqCount]
  obtain ⟨m, hm⟩ := seqCount_frame env (.port h) e v
  rw [hm]
  rfl

theorem visible_seqCount (env : Env) (h : Fin 4) (e : Nat) (v : Dev) (p d off : Nat) :
    visible env (seqCount env (.port h) e v) p d off = visible env v p d off := by
  unfold visible
  rw [regClass_seqCount]
  obtain ⟨m, hm⟩ := seqCount_frame env (.port h) e v
  rw [hm]
  rfl

/-! ## A host's denied write (R306) -/

/-- A host write that its port may not make leaves one SE record, of the owner of the register's block, and is counted as denied. -/
theorem hostRegWrite_denied (env : Env) (h : Fin 4) (d off : Nat) (x : Word) (v : Dev) (hreg : env.hasReg d off = true)
    (hden : visible env v h.val d off = false ∨ hostMay env h.val off = false) :
    ∃ e : Err, e.die = d ∧ e.cls = clsSE ∧ e.owner = deniedOwner v d off
      ∧ hostRegWrite env h.val d off x v = raise env e (countDenied (.port h) v) := by
  have party : portParty h.val = .port h := by simp [portParty]
  have may : (visible env v h.val d off && hostMay env h.val off) = false := by rcases hden with hd | hd <;> simp [hd]
  simp only [hostRegWrite, hreg, may, party, Bool.not_true, Bool.false_eq_true, if_false]
  split
  case isTrue inj =>
    simp only [Bool.and_eq_true, decide_eq_true_eq] at inj
    obtain ⟨⟨lo, hi⟩, -⟩ := inj
    have block : off / 0x10000 = 0x12 := by omega
    refine ⟨_, rfl, rfl, ?_, rfl⟩
    rw [deniedOwner, if_neg (by omega), regClass, block]
    simp only
    rw [if_neg (by omega), if_neg (by omega)]
  case isFalse => exact ⟨_, rfl, rfl, rfl, rfl⟩

/-- An error leaves the registers of the host ports' blocks as they are. -/
theorem raise_rd_portReg (env : Env) (e : Err) (v : Dev) (d off : Nat) (h : e.cls ≠ clsUC) (hc : e.cls < 8) (ho : e.owner < 5)
    (hoff : off / 0x10000 = 0x11) : (raise env e v).rd (dieReg d off) = v.rd (dieReg d off) := by
  apply raise_rd_ne env e v _ h
  · simp only [Reg.key, FC_CNT, dieReg, b2n, Bool.false_eq_true, if_false]
    omega
  · simp only [Reg.key, TG_STATUS, dieReg, b2n, Bool.false_eq_true, if_false]
    omega

/-- The host clause of O37 at a register whose block's owner is a coach or the device: the write is dropped, counted and recorded. -/
theorem hostWrite_denied_counted_and_recorded (h : Fin 4) (d : Fin 8) (w : Fin 2097152) (x : Word) (s : State)
    (hreg : s.env.hasReg d.val (4 * w.val) = true)
    (hden : visible s.env s.dev h.val d.val (4 * w.val) = false ∨ hostMay s.env h.val (4 * w.val) = false)
    (howner : deniedOwner s.dev d.val (4 * w.val) < 5) :
    ∃ t, exec (.registerWrite (.port h) (.die d w) x) s = .next t
      ∧ reg t (HP_DENIED_WR (portDie h.val) (portUnit h.val)) = satAdd32 (reg s (HP_DENIED_WR (portDie h.val) (portUnit h.val))) 1
      ∧ ((s.dev.port h.val).lp.available = true →
          reg t (HP_WRITE_SEQ (portDie h.val) (portUnit h.val))
            = w32 ((reg s (HP_WRITE_SEQ (portDie h.val) (portUnit h.val))).toNat + 1))
      ∧ t.dev.slot (slotKey d.val (deniedOwner s.dev d.val (4 * w.val)) clsSE) ≠ none ∧ t.dev.mem = s.dev.mem := by
  have has : s.env.has d.val = true := by
    simp only [Env.hasReg, Bool.and_eq_true] at hreg
    obtain ⟨⟨⟨hd, -⟩, -⟩, -⟩ := hreg
    exact hd
  obtain ⟨e, hdie, hcls, hown, hw⟩ := hostRegWrite_denied s.env h d.val (4 * w.val) x (seqCount s.env (.port h) d.val s.dev) hreg
    (by rwa [visible_seqCount])
  rw [deniedOwner_seqCount] at hown
  have notUC : e.cls ≠ clsUC := by rw [hcls]; decide
  have cls : e.cls < 7 := by rw [hcls]; decide
  have owner : e.owner < 5 := hown ▸ howner
  have denied : placeWrite s.env (.port h) (.die d w) x s.dev
      = raise s.env e (countDenied (.port h) (seqCount s.env (.port h) d.val s.dev)) := by
    rw [← hw]
    simp [placeWrite, debugOff, isHost, anyRegWrite, hreg]
  have unit : portUnit h.val < 2 := Nat.mod_lt _ (by decide)
  refine ⟨_, rfl, ?_, fun avail => ?_, ?_, ?_⟩ <;> simp only [reg, State.onDev_dev, denied]
  · rw [HP_DENIED_WR, raise_rd_portReg _ _ _ _ _ notUC (by omega) owner (by omega), ← HP_DENIED_WR]
    rw [countDenied, Dev.rd_inc_same, rd_seqCount]
    simp only [Reg.key, HP_DENIED_WR, dieReg, b2n, portDie, portUnit, Bool.false_eq_true, if_false]
    omega
  · rw [HP_WRITE_SEQ, raise_rd_portReg _ _ _ _ _ notUC (by omega) owner (by omega), ← HP_WRITE_SEQ, countDenied, Dev.rd_inc_ne]
    · simp [seqCount, has, avail, Dev.wrN, Dev.rdN]
    · simp only [Reg.key, HP_WRITE_SEQ, HP_DENIED_WR, dieReg]
      omega
  · have recorded := raise_recorded s.env e (countDenied (.port h) (seqCount s.env (.port h) d.val s.dev)) notUC (hdie ▸ has) cls owner
    rwa [hdie, hcls, hown] at recorded
  · obtain ⟨m, tk, f, hr⟩ := raise_frame s.env e (countDenied (.port h) (seqCount s.env (.port h) d.val s.dev)) notUC
    obtain ⟨m', hs⟩ := seqCount_frame s.env (.port h) d.val s.dev
    rw [hr, hs]
    rfl

/-! ## A holder that is no coach -/

/-- The package at reset, with port 0's frame unit held by a number that no coach has. Claims give frame units to coaches 0 to 3 alone, so
that no row makes such a state; O37 speaks of every state. -/
def frameUnitHeldByFive : State := State.reset.onDev (fun _ v => v.modFu 0 (fun f => { f with holder := some 5 }))

/-- Refutes O37: its host clause asks for a record in the slot of the owner of the register's block, with no premise that this owner is a coach
or the device. Port 0's write to FR_STATUS of a frame unit whose holder is 5 is denied, and the collector keeps no record of an owner 5. Where
the owner exists the clause holds: `hostWrite_denied_counted_and_recorded`. -/
theorem not_anyRegisterWriteFollowsItsAccess : ¬ Obligations.AnyRegisterWriteFollowsItsAccess := by
  intro h
  obtain ⟨-, -, -, -, -, -, denied⟩ := h
  obtain ⟨t, ht, -, -, recorded, -⟩ := denied 0 0 0x40001 0 frameUnitHeldByFive (by decide +kernel) (.inr (by decide +kernel))
  injection ht with ht
  subst ht
  exact recorded (by decide +kernel)

end Sys2Proof.Machine
end
